-- ==== Sys2Proof/Word.lean ====
section
/-! DEFINITION. The machine's words and the plainest arithmetic on bit fields. -/

namespace Sys2Proof

/-- A control and status register, a scratchpad word, a routed or scheduled flit word: 32 bits. -/
abbrev Word := BitVec 32

/-- The smallest addressable unit of scratchpad, bulk memory and instruction memory. -/
abbrev Byte := BitVec 8

/-- Site index row × 36 + col (R10, R57). -/
abbrev Site := Fin 1296

/-- Facet of R12. -/
abbrev Facet := Fin 12

/-- Global power-region index of R15. -/
abbrev Region := Fin 72

/-- Sequencer context. -/
abbrev Ctx := Fin 8

/-- Physical subchannel MC_n (R17). -/
abbrev Mc := Fin 384

/-- LPDDR6 package (R18). -/
abbrev Pkg := Fin 48

/-- Optical port (R20). -/
abbrev Port := Fin 32

/-- Optical engine OE_e (R19). -/
abbrev Engine := Fin 16

/-- A router port: 0 north, 1 east, 2 south, 3 west (R10). -/
abbrev Dir := Fin 4

/-- Bits `lo + w - 1` down to `lo` of `v`. -/
abbrev bitsOf (v lo w : Nat) : Nat := v / 2 ^ lo % 2 ^ w

/-- Bit `i` of `v`. -/
abbrev bitOf (v i : Nat) : Bool := v / 2 ^ i % 2 == 1

end Sys2Proof
end

