-- ==== Sys2Proof/Machine/Table.lean ====
section
/-! DEFINITION. Sparse tables: lists of key and value pairs in one canonical form, and their operations. A table is read
against a default: keys strictly rise and no entry equals the default of its key, so equal contents are equal data. -/

namespace Sys2Proof.Machine

/-- A sparse table: (key, value) pairs. -/
abbrev Tbl (α : Type) := List (Nat × α)

/-- The value listed for a key, if any. -/
def tblFind {α : Type} : Tbl α → Nat → Option α
  | [], _ => none
  | (k, v) :: t, a => if k = a then some v else tblFind t a

/-- Lists a value for a key, in key order, in place of any value the key had. -/
def tblPut {α : Type} : Tbl α → Nat → α → Tbl α
  | [], a, v => [(a, v)]
  | (k, w) :: t, a, v =>
    if a < k then (a, v) :: (k, w) :: t
    else if k = a then (a, v) :: t
    else (k, w) :: tblPut t a v

/-- Removes a key. -/
def tblDel {α : Type} (t : Tbl α) (a : Nat) : Tbl α :=
  t.filter fun e => e.1 ≠ a

/-- Removes every key from `lo` up to, but not with, `hi`. -/
def tblDelRange {α : Type} (t : Tbl α) (lo hi : Nat) : Tbl α :=
  t.filter fun e => e.1 < lo ∨ hi ≤ e.1

/-- The value of a key: the listed one, or the default. -/
def tblGet {α : Type} (d : Nat → α) (t : Tbl α) (a : Nat) : α :=
  (tblFind t a).getD (d a)

/-- Sets the value of a key; setting the default removes the entry. -/
def tblSet {α : Type} [DecidableEq α] (d : Nat → α) (t : Tbl α) (a : Nat) (v : α) : Tbl α :=
  if v = d a then tblDel t a else tblPut t a v

/-- Keys strictly rise. -/
def tblSorted {α : Type} (t : Tbl α) : Bool :=
  decide (t.Pairwise fun x y => x.1 < y.1)

/-- The canonical form: keys strictly rise and no entry equals its default. -/
def tblWf {α : Type} [DecidableEq α] (d : Nat → α) (t : Tbl α) : Bool :=
  tblSorted t && t.all fun e => e.2 ≠ d e.1

/-- The first key, in order, whose value meets `p`. -/
def tblKeyWhere {α : Type} (p : α → Bool) : Tbl α → Option Nat
  | [] => none
  | (k, v) :: t => if p v then some k else tblKeyWhere p t

/-- Replaces element `i` of a list. -/
def listSet {α : Type} : List α → Nat → α → List α
  | [], _, _ => []
  | _ :: t, 0, v => v :: t
  | x :: t, i + 1, v => x :: listSet t i v

/-- Removes the first element that meets `p`. -/
def dropFirst {α : Type} (p : α → Bool) : List α → List α
  | [] => []
  | x :: t => if p x then t else x :: dropFirst p t

/-- Applies `f` to the first element that meets `p`. -/
def mapFirst {α : Type} (p : α → Bool) (f : α → α) : List α → List α
  | [] => []
  | x :: t => if p x then f x :: t else x :: mapFirst p f t

/-- Element `i` of a list, or `d`. -/
def nthD {α : Type} (d : α) : List α → Nat → α
  | [], _ => d
  | x :: _, 0 => x
  | _ :: t, i + 1 => nthD d t i

/-- Bits `lo + w - 1` down to `lo` of `v` replaced by `x`. -/
def putBits (v lo w x : Nat) : Nat :=
  v - bitsOf v lo w * 2 ^ lo + x % 2 ^ w * 2 ^ lo

/-- Fields (value, low bit) side by side. -/
def joinFields (l : List (Nat × Nat)) : Nat := (l.map fun e => e.1 * 2 ^ e.2).sum

/-- A truth value as a bit. -/
def b2n (b : Bool) : Nat := if b then 1 else 0

/-- The two's complement value of the low `w` bits of `v`. -/
def sext (w v : Nat) : Int :=
  if v % 2 ^ w < 2 ^ (w - 1) then (v % 2 ^ w : Nat) else (v % 2 ^ w : Nat) - (2 ^ w : Nat)

/-- The low `w` bits of an integer in two's complement. -/
def wrapInt (w : Nat) (x : Int) : Nat := (x % (2 ^ w : Nat)).toNat

/-- Saturating increment. -/
def satAdd (lim a b : Nat) : Nat := min lim (a + b)

end Sys2Proof.Machine
end

