-- ==== Sys2Proof/Machine/Geometry.lean ====
section
/-! DEFINITION. Where things stand on the die: rows, columns, facets, regions, edges (chapter 01). -/

namespace Sys2Proof.Machine

/-- Row of a site index (R57). -/
def rowOf (site : Nat) : Nat := site / 36

/-- Column of a site index (R57). -/
def colOf (site : Nat) : Nat := site % 36

/-- Site index of a row and column. -/
def siteAt (row col : Nat) : Nat := row * 36 + col

/-- Facet of a site (R12). -/
def facetOf (site : Nat) : Nat := 3 * (rowOf site / 9) + colOf site / 12

/-- Global power region of a site (R15). -/
def regionOf (site : Nat) : Nat :=
  6 * facetOf site + (2 * (rowOf site % 9 / 3) + colOf site % 12 / 6)

/-- Facet of a region (R15). -/
def facetOfRegion (region : Nat) : Nat := region / 6

/-- The sites of a region, in ascending order. -/
def sitesOfRegion (region : Nat) : List Nat :=
  (List.range 1296).filter fun x => regionOf x == region

/-- The site across a router port, if the port points into the grid (R10). -/
def neighbour (site dir : Nat) : Option Nat :=
  match dir with
  | 0 => if rowOf site = 0 then none else some (site - 36)
  | 1 => if colOf site = 35 then none else some (site + 1)
  | 2 => if rowOf site = 35 then none else some (site + 36)
  | 3 => if colOf site = 0 then none else some (site - 1)
  | _ => none

/-- The port that faces `dir` at the neighbour. -/
def oppositeDir (dir : Nat) : Nat := (dir + 2) % 4

/-- Whether the link of a site's port crosses a seam (R13). -/
def isSeam (site dir : Nat) : Bool :=
  match neighbour site dir with
  | some n => facetOf n != facetOf site
  | none => false

/-- The seam FIFO of a port of a site, as its index k at the receiving facet (Table 14.3). -/
def seamIdx (site dir : Nat) : Nat :=
  if dir = 0 then colOf site % 12 else if dir = 2 then 12 + colOf site % 12
  else if dir = 3 then 24 + rowOf site % 9 else 33 + rowOf site % 9

/-- The memory-edge site that owns subchannel `mc` (R17). -/
def siteOfMc (mc : Nat) : Nat :=
  if mc < 192 then siteAt (mc / 6 + 2) 0 else siteAt ((mc - 192) / 6 + 2) 35

/-- The six subchannels of a memory-edge site; none of another (R17). -/
def mcsOfSite (site : Nat) : List Nat :=
  if 2 ≤ rowOf site ∧ rowOf site ≤ 33 then
    if colOf site = 0 then (List.range 6).map (· + 6 * (rowOf site - 2))
    else if colOf site = 35 then (List.range 6).map (· + 192 + 6 * (rowOf site - 2))
    else []
  else []

/-- Package of a subchannel (R18). -/
def pkgOfMc (mc : Nat) : Nat := mc / 8

/-- Engine of an optical port (R20). -/
def engineOfPort (port : Nat) : Nat := port / 2

/-- Left site of an optical port's pair (R19, R20). -/
def leftSiteOfPort (port : Nat) : Nat :=
  if port < 16 then siteAt 0 (2 + 2 * port) else siteAt 35 (2 + 2 * (port - 16))

/-- The two sites of an optical port. -/
def sitesOfPort (port : Nat) : List Nat := [leftSiteOfPort port, leftSiteOfPort port + 1]

/-- What a site's outward port meets (Table 01.2). -/
inductive Attachment
  | memory
  | optical
  | service
  | terminated
  | inner
  deriving DecidableEq, Repr

/-- The attachment of a site's router port (R16). -/
def attachment (site dir : Nat) : Attachment :=
  match neighbour site dir with
  | some _ => .inner
  | none =>
    if dir == 3 || dir == 1 then
      if 2 ≤ rowOf site ∧ rowOf site ≤ 33 then .memory else .terminated
    else if 2 ≤ colOf site ∧ colOf site ≤ 33 then .optical
    else if colOf site == 0 || colOf site == 35 then .service
    else .terminated

/-- The four service corners in the order of R21. -/
def corners : List Nat := [siteAt 0 0, siteAt 0 35, siteAt 35 0, siteAt 35 35]

/-- Hops between two sites. -/
def hops (a b : Nat) : Nat :=
  (rowOf a - rowOf b) + (rowOf b - rowOf a) + (colOf a - colOf b) + (colOf b - colOf a)

/-- Seams crossed by a route that moves one way along each axis (R14). -/
def seamsCrossed (a b : Nat) : Nat :=
  (rowOf a / 9 - rowOf b / 9) + (rowOf b / 9 - rowOf a / 9) +
    (colOf a / 12 - colOf b / 12) + (colOf b / 12 - colOf a / 12)

/-- The nearest corner among those in service; an earlier one wins a tie (R21). -/
def nearestCorner (live : List Nat) (site : Nat) : Option Nat :=
  (live.foldl (fun best c =>
    match best with
    | none => some c
    | some b => if hops c site < hops b site then some c else some b) none)

/-- LTNs of the licence sizes of Table 00.1: 1 is 768, 2 is 1,024, 3 is 1,152. -/
def licensedLtns (code : Nat) : Nat :=
  match code with
  | 1 => 768
  | 2 => 1024
  | 3 => 1152
  | _ => 0

/-- Subchannels of the sites of a region. -/
def mcsOfRegion (region : Nat) : List Nat :=
  (List.range 384).filter fun m => regionOf (siteOfMc m) == region

/-- Optical ports of the sites of a region. -/
def portsOfRegion (region : Nat) : List Nat :=
  (List.range 32).filter fun p => (sitesOfPort p).any fun x => regionOf x == region

end Sys2Proof.Machine
end

