-- ==== Sys2Proof/Machine/Registers.lean ====
section
/-! DEFINITION. The register pages: block types, page numbers, and for every block the registers it defines with their
fields, field kinds and reset values, written from the page tables of the chapters (R39, R46, R56 to R58). A register
word is named by the PG_ID of its page and its offset. -/

namespace Sys2Proof.Machine

/-- Field kinds of Table 02.7. -/
inductive Kind
  | l
  | s
  | k
  | ro
  | w1c
  | w1s
  deriving DecidableEq, Repr

/-- One field: low bit, width, kind, and whether it is presence-guarded (P + kind). -/
structure RField where
  lo : Nat
  w : Nat
  kind : Kind
  pres : Bool
  deriving DecidableEq, Repr

/-- One register, or a run of like registers: page in the block, first offset, how many and how far apart, reset value
and writable fields. Bits that no field names are reserved or read-only. -/
structure RDef where
  page : Nat
  off : Nat
  count : Nat
  stride : Nat
  reset : Nat
  fields : List RField
  deriving DecidableEq, Repr

/-- Block type codes of Table 02.8. -/
def tyGLB : Nat := 0x001
def tySEQ : Nat := 0x010
def tyMXA : Nat := 0x011
def tyVXE : Nat := 0x012
def tyDMX : Nat := 0x013
def tySYN : Nat := 0x014
def tySPD : Nat := 0x015
def tyRTR : Nat := 0x016
def tyTEL : Nat := 0x017
def tyMCC : Nat := 0x020
def tyMPH : Nat := 0x021
def tyOPT : Nat := 0x030
def tyOEN : Nat := 0x031
def tyCLK : Nat := 0x040
def tyTIM : Nat := 0x041
def tyPRG : Nat := 0x050
def tyPWR : Nat := 0x051
def tyMTR : Nat := 0x060
def tyRCP : Nat := 0x061
def tyFLT : Nat := 0x070
def tySVC : Nat := 0x080
def tyFUS : Nat := 0x090
def tySEAL : Nat := 0x0A0
def tyPAIR : Nat := 0x0B0
def tyLOUPE : Nat := 0x0C0

/-- PG_ID of a page (Table 02.4). -/
def pgId (ty inst page : Nat) : Nat := ty * 2 ^ 20 + inst * 2 ^ 8 + page

/-- Block type of a page (PG_ID.TYPE). -/
def pgTy (pg : Nat) : Nat := pg / 2 ^ 20

/-- Instance of a page (PG_ID.INST). -/
def pgInst (pg : Nat) : Nat := pg / 2 ^ 8 % 2 ^ 12

/-- Page within the block (PG_ID.PAGE). -/
def pgPage (pg : Nat) : Nat := pg % 2 ^ 8

/-- The block of a page: its type and instance (R620). -/
def blkOf (pg : Nat) : Nat := pg / 2 ^ 8

/-- The first page of a block. -/
def blkPage0 (blk : Nat) : Nat := blk * 2 ^ 8

/-- The block of a type and instance. -/
def blkId (ty inst : Nat) : Nat := ty * 2 ^ 12 + inst

/-- Block type of a block. -/
def blkTy (blk : Nat) : Nat := blk / 2 ^ 12

/-- Instance of a block. -/
def blkInst (blk : Nat) : Nat := blk % 2 ^ 12

/-- The key of a register word. -/
def regKey (pg off : Nat) : Nat := pg * 2 ^ 12 + off

/-- Tile blocks are those of Table 02.10. -/
def isTileTy (ty : Nat) : Bool := tySEQ ≤ ty && ty ≤ tyTEL

/-- Site of a tile page: INST, or INST div 2 for a DMX (R57). -/
def siteOfPg (pg : Nat) : Nat := if pgTy pg == tyDMX then pgInst pg / 2 else pgInst pg

/-- Pages that the owning chapters define, by block type (R55, R58). -/
def pagesOf (ty : Nat) : List Nat :=
  if ty == tyGLB then [0, 1, 2, 3]
  else if ty == tySEQ then [0, 1, 2]
  else if ty == tyMXA then [0, 1]
  else if ty == tyVXE then [0, 1]
  else if ty == tyDMX then [0, 1]
  else if ty == tySYN then [0, 1]
  else if ty == tySPD then [0, 1]
  else if ty == tyRTR then [0, 1, 2, 3, 4]
  else if ty == tyTEL then [0, 1] ++ (List.range 33).map (· + 31)
  else if ty == tyFLT then [0, 1, 2, 3]
  else if ty == tyFUS then [0, 1, 2, 3]
  else if ty == tyMCC || ty == tyMPH || ty == tyOPT || ty == tyOEN || ty == tyCLK || ty == tyTIM ||
      ty == tyPRG || ty == tyPWR || ty == tyMTR || ty == tyRCP || ty == tySVC || ty == tySEAL ||
      ty == tyPAIR || ty == tyLOUPE then [0]
  else []

/-- Whether ENABLE resets to 1 (Table 02.9, R57). -/
def enableReset (ty : Nat) : Bool :=
  ty == tyGLB || ty == tyCLK || ty == tyTIM || ty == tyMTR || ty == tyRCP || ty == tyFLT ||
    ty == tySVC || ty == tyFUS || ty == tySEAL

/-- The global page ranges of Table 02.9: type, first global page, instances, pages per instance. -/
def globalRanges : List (Nat × Nat × Nat × Nat) :=
  [(tyGLB, 0x000, 1, 4), (tyCLK, 0x010, 15, 1), (tyTIM, 0x020, 1, 1), (tyPRG, 0x100, 72, 1),
   (tyPWR, 0x180, 1, 1), (tyMTR, 0x190, 1, 1), (tyRCP, 0x1A0, 1, 1), (tyFLT, 0x1B0, 1, 4),
   (tySVC, 0x1C0, 1, 1), (tyFUS, 0x1D0, 1, 4), (tySEAL, 0x1E0, 1, 1), (tyPAIR, 0x1F0, 1, 1),
   (tyLOUPE, 0x240, 12, 1), (tyMCC, 0x400, 384, 1), (tyMPH, 0x600, 48, 1), (tyOPT, 0x700, 32, 1),
   (tyOEN, 0x780, 16, 1)]

/-- The window page ranges of Table 02.10: type, first window page, pages in the range. -/
def tileRanges : List (Nat × Nat × Nat) :=
  [(tySEQ, 0x00, 16), (tyMXA, 0x10, 4), (tyVXE, 0x14, 4), (tyDMX, 0x18, 2), (tyDMX, 0x1A, 2),
   (tySYN, 0x20, 8), (tySPD, 0x28, 4), (tyRTR, 0x30, 16), (tyTEL, 0x40, 64)]

/-- PG_ID of a global page number, if the page is present (R55, R56). -/
def globalPage (p : Nat) : Option Nat :=
  (globalRanges.find? fun r => r.2.1 ≤ p && p < r.2.1 + r.2.2.1 * r.2.2.2).map fun r =>
    pgId r.1 ((p - r.2.1) / r.2.2.2) ((p - r.2.1) % r.2.2.2)

/-- PG_ID of a window page of a site, if the page is present (R57, R58). -/
def tilePage (site p : Nat) : Option Nat :=
  match tileRanges.find? fun r => r.2.1 ≤ p && p < r.2.1 + r.2.2 with
  | none => none
  | some r =>
    if (pagesOf r.1).contains (p - r.2.1) then
      let inst := if r.1 == tyDMX then 2 * site + (r.2.1 - 0x18) / 2 else site
      some (pgId r.1 inst (p - r.2.1))
    else none

/-- Instances of a block type (Tables 02.9, 02.10). -/
def instancesOf (ty : Nat) : Nat :=
  if ty == tyDMX then 2592 else if isTileTy ty then 1296
  else ((globalRanges.find? fun r => r.1 == ty).map fun r => r.2.2.1).getD 0

/-- Whether a PG_ID names a page that is present. -/
def pageExists (pg : Nat) : Bool := (pagesOf (pgTy pg)).contains (pgPage pg) && decide (pgInst pg < instancesOf (pgTy pg))

/-- The page of a device address in the register space (R30, R31, R56, R57); none is unmapped or absent. -/
def pageAt (addr : Nat) : Option Nat :=
  if addr < 0x100_0000 then globalPage (addr / 0x1000)
  else if addr < 0x1_0000_0000 then none
  else if 0x1_8E40_0000 ≤ addr then none
  else
    let row := (addr - 0x1_0000_0000) / 2 ^ 26
    let col := addr / 2 ^ 20 % 64
    if row < 36 ∧ col < 36 then tilePage (siteAt row col) (addr / 0x1000 % 256) else none

/-- First address of a page. -/
def pageAddr (pg : Nat) : Nat :=
  let ty := pgTy pg
  if isTileTy ty then
    let site := siteOfPg pg
    let first :=
      if ty == tyDMX then 0x18 + 2 * (pgInst pg % 2)
      else ((tileRanges.find? fun r => r.1 == ty).map fun r => r.2.1).getD 0
    0x1_0000_0000 + rowOf site * 2 ^ 26 + colOf site * 2 ^ 20 + (first + pgPage pg) * 0x1000
  else
    match globalRanges.find? fun r => r.1 == ty with
    | some r => (r.2.1 + pgInst pg * r.2.2.2 + pgPage pg) * 0x1000
    | none => 0

/-- A field. -/
def fL (lo w : Nat) : RField := ⟨lo, w, .l, false⟩
def fS (lo w : Nat) : RField := ⟨lo, w, .s, false⟩
def fK (lo w : Nat) : RField := ⟨lo, w, .k, false⟩
def fC (lo w : Nat) : RField := ⟨lo, w, .w1c, false⟩
def fA (lo w : Nat) : RField := ⟨lo, w, .w1s, false⟩
def fPL (lo w : Nat) : RField := ⟨lo, w, .l, true⟩
def fPK (lo w : Nat) : RField := ⟨lo, w, .k, true⟩
def fPA (lo w : Nat) : RField := ⟨lo, w, .w1s, true⟩

/-- One register. -/
def reg1 (page off reset : Nat) (fields : List RField) : RDef := ⟨page, off, 1, 4, reset, fields⟩

/-- A run of registers. -/
def regN (page off count stride reset : Nat) (fields : List RField) : RDef :=
  ⟨page, off, count, stride, reset, fields⟩

/-- A run of read-only words, each 0 at reset: 64-bit counters and captured values. -/
def regRO (page off count : Nat) : RDef := ⟨page, off, count, 4, 0, []⟩

/-- MXA pages, Tables 04.8 to 04.14. -/
def regsMXA : List RDef :=
  [reg1 0 0x040 0x0000_0002 [fK 0 1, fK 1 1], reg1 0 0x044 0x0000_0008 [fS 0 8],
   reg1 0 0x048 0x0000_0007 [], reg1 0 0x04C 0 [fC 0 1], regRO 0 0x050 2, regRO 1 0x040 14]

/-- SEQ pages, Tables 05.6 to 05.9. -/
def regsSEQ : List RDef :=
  [regRO 0 0x040 1, reg1 0 0x044 0 [fA 0 8], reg1 0 0x048 0 [fA 0 8], reg1 0 0x04C 0 [fK 0 8],
   regRO 0 0x050 1, regN 0 0x060 8 4 0 [fL 1 17], regRO 0 0x080 8, regRO 0 0x0A0 8,
   regN 0 0x0C0 8 4 0 [fK 0 12],
   reg1 1 0x040 0 [fL 0 13], regN 1 0x044 4 4 0 [fL 0 32], reg1 1 0x054 0 [fA 0 1, fA 1 1, fL 8 8],
   regRO 1 0x058 1, regRO 2 0x040 1, reg1 2 0x044 0x2020_2010 []]

/-- VXE pages, Table 05.10. -/
def regsVXE : List RDef := [regRO 0 0x040 1, reg1 0 0x044 0 [fC 0 1], regRO 1 0x040 6]

/-- DMX pages, Table 05.11. -/
def regsDMX : List RDef := [reg1 0 0x040 0x10 [fK 0 5], regRO 0 0x044 2, regRO 1 0x040 8]

/-- TEL pages, Table 05.12; block page 31 is window page 0x5F. -/
def regsTEL : List RDef :=
  [reg1 0 0x040 1 [fK 0 1], regRO 0 0x044 1, reg1 0 0x048 0x820 [fL 0 12], regRO 1 0x040 1,
   regRO 1 0x044 1, reg1 1 0x048 0xFF [], regRO 1 0x050 2] ++
    (List.range 33).map fun i => regRO (31 + i) 0x040 1008

/-- SYN pages, Tables 06.2 to 06.5. The object records of page 1 are the sync objects themselves. -/
def regsSYN : List RDef :=
  [reg1 0 0x040 0 [fL 0 16], regRO 0 0x044 3, reg1 0 0x050 0x80 [], regRO 0 0x054 2, regRO 0 0x060 4]

/-- SPD pages, Tables 07.5 to 07.9. -/
def regsSPD : List RDef :=
  [reg1 0 0x040 0x41 [fL 0 1, fL 4 4], reg1 0 0x044 0 [fA 0 1], regRO 0 0x048 4, regRO 1 0x040 12]

/-- RTR pages, Tables 09.6 to 09.11. -/
def regsRTR : List RDef :=
  [reg1 0 0x040 0x110 [fK 0 8, fK 8 1], regRO 0 0x044 1, reg1 0 0x048 0 [fC 0 1], regRO 0 0x04C 2,
   regRO 1 0x040 3, reg1 1 0x04C 0 [fL 0 11], regRO 1 0x050 4, regRO 2 0x040 16,
   reg1 3 0x040 0 [fL 0 5], reg1 3 0x044 0 [fL 0 10], regN 3 0x048 4 4 0 [fL 0 32],
   reg1 3 0x058 0 [fA 0 1, fA 1 1], regRO 4 0x040 12]

/-- MCC page, Tables 10.7 to 10.9. -/
def regsMCC : List RDef :=
  [reg1 0 0x040 0x0011_0181 [fL 0 1, fL 4 8, fL 12 8, fL 20 1], reg1 0 0x044 0x00FF_FFC1 [],
   reg1 0 0x048 0 [fA 0 1], reg1 0 0x04C 0x1FF [fK 0 9], regRO 0 0x050 3, regRO 0 0x060 10]

/-- MPH page, Tables 10.10 and 10.11. -/
def regsMPH : List RDef :=
  [reg1 0 0x040 0x0001_0801 [fK 0 1, fL 8 8, fL 16 1], regRO 0 0x044 1, reg1 0 0x048 0 [fA 0 8],
   regRO 0 0x04C 1, regRO 0 0x050 2]

/-- OEN page, Tables 13.8 and 13.9. -/
def regsOEN : List RDef :=
  [reg1 0 0x040 0x18C [fK 0 8, fK 8 1], reg1 0 0x044 0x4000 [], regRO 0 0x048 1, regRO 0 0x050 4,
   regRO 0 0x060 20]

/-- OPT page, Table 13.10. -/
def regsOPT : List RDef :=
  [reg1 0 0x040 0x304 [fK 0 8, fK 8 1, fK 9 1, fK 16 3], regRO 0 0x044 4,
   reg1 0 0x054 0 [fA 0 1], regRO 0 0x058 2, regRO 0 0x060 6, reg1 0 0x080 0 [fL 8 8, fL 16 8],
   regN 0 0x084 2 4 0 [fL 0 32], regRO 0 0x0A0 10, regN 0 0x200 32 4 0 [fK 0 1, fK 1 2, fK 3 1],
   regN 0 0x280 32 4 0 [fK 0 1, fK 1 1, fK 2 9, fK 11 8], regRO 0 0x300 1,
   reg1 0 0x304 0 [fA 0 1, fA 1 1], regRO 0 0x308 1, regRO 0 0x310 1, reg1 0 0x314 0 [fA 0 1],
   regRO 0 0x318 1]

/-- CLK page of a facet generator, Tables 14.3 to 14.5. -/
def regsCLK : List RDef :=
  [reg1 0 0x040 0x4001 [fK 0 1, fK 8 8], reg1 0 0x044 0x1C [], regRO 0 0x048 8,
   regN 0 0x100 42 8 0 [], regN 0 0x104 42 8 0 []]

/-- CLK page of instances 12 to 14: only CLK_STATUS and CLK_RELOCKS are defined. -/
def regsCLKs : List RDef := [regRO 0 0x044 1, regRO 0 0x064 1]

/-- TIM page, Tables 14.6 and 14.7. -/
def regsTIM : List RDef :=
  [regRO 0 0x040 2, reg1 0 0x048 7 [fL 0 3], regN 0 0x050 2 4 0 [fL 0 32],
   reg1 0 0x058 0 [fA 0 1, fA 1 1], reg1 0 0x05C 7 [], regRO 0 0x060 3,
   regN 0 0x080 3 4 0 [fS 0 32], reg1 0 0x08C 0 [fS 0 16], reg1 0 0x090 0 [fS 0 32],
   reg1 0 0x094 0 [fS 0 32], reg1 0 0x098 0xFFFF_FFFF [fS 0 32], reg1 0 0x09C 0 [fS 0 2],
   regRO 0 0x0A0 3, regRO 0 0x0C0 3, reg1 0 0x0CC 0 [fA 0 1], regRO 0 0x0D0 3, reg1 0 0x0DC 0 [fA 0 1]]

/-- PRG page, Tables 15.8 to 15.10. -/
def regsPRG : List RDef :=
  [reg1 0 0x040 0x0050_8201 [fK 0 1, fL 8 8, fL 16 8], reg1 0 0x044 0 [fS 0 5],
   reg1 0 0x048 0 [fL 0 2], reg1 0 0x04C 0x800 [], regRO 0 0x050 3, reg1 0 0x05C 0x0003_00FF [],
   regRO 0 0x060 2, reg1 0 0x080 0x04B0_0007 [], regRO 0 0x084 1]

/-- PWR page, Tables 16.3 to 16.5. -/
def regsPWR : List RDef :=
  [reg1 0 0x040 0x1E87 [fL 0 1, fL 1 1, fL 2 1, fL 4 4, fL 8 8], reg1 0 0x044 0x2AF8 [fS 0 14],
   reg1 0 0x048 0xFA [fS 0 9], reg1 0 0x04C 0 [fL 0 14], reg1 0 0x050 0x0960_08C0 [fL 0 12],
   reg1 0 0x054 0x2AF8 [], regRO 0 0x058 1, reg1 0 0x05C 0 [fL 4 1, fL 7 1, fL 8 1], regRO 0 0x060 2,
   reg1 0 0x068 0x13F [], reg1 0 0x06C 0 [fC 0 1, fC 1 1, fC 2 1], regRO 0 0x080 9, regRO 0 0x100 18]

/-- MTR page, Table 17.6. -/
def regsMTR : List RDef :=
  [reg1 0 0x040 1 [fL 0 1], regRO 0 0x044 6, reg1 0 0x060 0 [fL 0 7, fL 8 2], regRO 0 0x068 6,
   regN 0 0x080 2 4 0 [fS 0 32], reg1 0 0x088 0x40 [fS 0 8], regRO 0 0x08C 1, reg1 0 0x0A0 0 [fPL 0 12],
   reg1 0 0x0A4 0 [fPL 0 32], reg1 0 0x0A8 0 [fPA 0 1, fPA 1 1], regRO 0 0x0AC 1]

/-- RCP page, Table 17.9. -/
def regsRCP : List RDef :=
  [regRO 0 0x040 1, reg1 0 0x044 0 [fPA 0 1], regRO 0 0x048 22]

/-- SEAL page, Tables 17.10 and 17.11. -/
def regsSEAL : List RDef := [regRO 0 0x040 1, reg1 0 0x044 0 [fA 0 1], regRO 0 0x048 3]

/-- FLT pages, Tables 18.7 and 18.8. -/
def regsFLT : List RDef :=
  [reg1 0 0x040 0x10 [fL 0 8], regRO 0 0x044 10, regRO 1 0x040 16, reg1 1 0x080 0 [fA 0 1],
   regN 2 0x040 16 4 0 [fL 0 32], reg1 2 0x080 0 [fA 0 1], regRO 3 0x040 1, reg1 3 0x044 0 [fA 0 12],
   regRO 3 0x048 2, regRO 3 0x050 13]

/-- LOUPE page, Table 18.9. -/
def regsLOUPE : List RDef :=
  [reg1 0 0x040 0 [fK 0 11, fK 16 8], reg1 0 0x044 0 [fK 0 3, fK 3 1, fK 4 8, fK 12 10],
   reg1 0 0x048 0 [fPK 0 1], reg1 0 0x04C 0 [fA 0 1, fA 1 1, fA 2 1], regRO 0 0x050 2,
   reg1 0 0x058 0 [fL 0 10], regRO 0 0x060 16]

/-- SVC page, Table 19.9. -/
def regsSVC : List RDef :=
  [reg1 0 0x040 0xA00 [fL 0 1, fL 8 8], reg1 0 0x044 0 [fA 0 1], regRO 0 0x048 1,
   reg1 0 0x04C 0x58 [fS 0 10], reg1 0 0x050 0 [fA 0 8, fA 8 8], reg1 0 0x054 0 [fPL 0 1],
   reg1 0 0x080 0 [fA 0 1, fA 1 1, fA 2 1, fA 3 1, fA 4 1], reg1 0 0x084 0 [fL 0 16],
   reg1 0 0x088 0 [fL 0 19], reg1 0 0x08C 0x2300_2300 [fL 0 32], regN 0 0x090 4 4 0 [fL 0 32],
   regN 0 0x0A0 8 4 0 [fL 0 32], regRO 0 0x0C0 3, reg1 0 0x0CC 0 [fL 0 11], regRO 0 0x0D0 1,
   reg1 0 0x0D4 0 [fL 0 7], regRO 0 0x0D8 1, regRO 0 0x0E0 8]

/-- GLB pages, Tables 20.7 to 20.9. -/
def regsGLB : List RDef :=
  [reg1 0 0x040 1 [], reg1 0 0x044 0 [fA 0 1, fA 1 1, fA 2 1], regRO 0 0x048 1, reg1 0 0x04C 1 [fL 0 1],
   regRO 0 0x050 3, regRO 1 0x040 5, regRO 1 0x060 8, regRO 2 0x040 3, regRO 3 0x040 1,
   reg1 3 0x044 0 [fL 0 11], regRO 3 0x048 1, regRO 3 0x050 2]

/-- FUS pages, Table 20.10. -/
def regsFUS : List RDef :=
  [regRO 0 0x040 1, reg1 0 0x044 0 [fL 0 10], regRO 0 0x048 2, regRO 1 0x040 2, reg1 2 0x040 0 [fPL 0 10],
   reg1 2 0x044 0 [fPL 0 32], reg1 2 0x048 0 [fPA 0 1], regRO 2 0x04C 1, regRO 3 0x040 5]

/-- PAIR page, Tables 21.3 and 21.4. -/
def regsPAIR : List RDef :=
  [reg1 0 0x040 0 [fPK 0 2, fPK 3 5, fPK 8 5], regN 0 0x044 2 4 0 [fPK 0 32],
   reg1 0 0x04C 0x4001 [fL 0 1, fL 8 8], reg1 0 0x050 0 [fA 0 1, fA 1 1], regRO 0 0x054 2, regRO 0 0x060 3]

/-- The registers of a block type; CLK instances 12 to 14 define fewer. -/
def regsOf (ty inst : Nat) : List RDef :=
  if ty == tyMXA then regsMXA else if ty == tySEQ then regsSEQ else if ty == tyVXE then regsVXE
  else if ty == tyDMX then regsDMX else if ty == tyTEL then regsTEL else if ty == tySYN then regsSYN
  else if ty == tySPD then regsSPD else if ty == tyRTR then regsRTR else if ty == tyMCC then regsMCC
  else if ty == tyMPH then regsMPH else if ty == tyOEN then regsOEN else if ty == tyOPT then regsOPT
  else if ty == tyCLK then (if inst < 12 then regsCLK else regsCLKs)
  else if ty == tyTIM then regsTIM else if ty == tyPRG then regsPRG else if ty == tyPWR then regsPWR
  else if ty == tyMTR then regsMTR else if ty == tyRCP then regsRCP else if ty == tySEAL then regsSEAL
  else if ty == tyFLT then regsFLT else if ty == tyLOUPE then regsLOUPE else if ty == tySVC then regsSVC
  else if ty == tyGLB then regsGLB else if ty == tyFUS then regsFUS else if ty == tyPAIR then regsPAIR
  else []

/-- Whether a definition covers an offset of a page. -/
def RDef.covers (d : RDef) (page off : Nat) : Bool :=
  d.page == page && decide (d.off ≤ off) && decide (off < d.off + d.count * d.stride) &&
    (off - d.off) % d.stride == 0

/-- The definition of the register at an offset of a page (R37: none is a reserved offset). -/
def regAt (pg off : Nat) : Option RDef :=
  (regsOf (pgTy pg) (pgInst pg)).find? fun d => d.covers (pgPage pg) off

/-- The engine lane of lane l of a port, and the port and plane of an engine lane, at reset (Table 13.1): see Optical. -/
def laneReset (el : Nat) : Nat :=
  if el < 16 then 1 + (el / 8) * 4 + (el % 8) * 8 else 0

/-- The LINK_ST word of a port at reset: SEAM, OUTWARD, TERMINATED (Table 09.9). -/
def linkReset (site dir : Nat) : Nat :=
  b2n (isSeam site dir) + 2 * b2n (neighbour site dir).isNone +
    4 * b2n (attachment site dir == .terminated)

end Sys2Proof.Machine
end

