-- ==== Sys2Proof/Machine/CommonTypes.lean ====
section
/-! DEFINITION. The parts of the state that every block shares: block control, page headers, the error log and its
collectors, the loupes, facet clocks, messages that leave the module, poison origins. -/

namespace Sys2Proof.Machine

/-- PG_CTRL and PG_STATUS of one block, shared by all its pages (R620). `resetPend`: a RESET waits for the block's
safe point (R41). `commitAt`: device time of a pending COMMIT (R51, R52). `disabling`: ENABLE was written 0 while RUN
was 1, and the block halts at its next safe point. `commitPg`: the page that the last COMMIT was written to, in which its
CSTALL is set (R620). -/
structure BlkCtl where
  enable : Bool
  haltReq : Bool
  run : Bool
  resetPend : Bool
  commitAt : Option Nat
  retired : Bool
  disabling : Bool
  commitPg : Nat
  deriving DecidableEq, Repr

/-- The header items of one page that are its own (R620): PG_ERR, PG_ERR_MASK, PG_ERR_INJ, PG_ERR_CNT, WLOCK,
POISON_SEEN. -/
structure PageHdr where
  err : Nat
  mask : Nat
  inj : Nat
  corr : Nat
  unc : Nat
  wlock : Bool
  poisonSeen : Bool
  deriving DecidableEq, Repr

/-- One register word staged for COMMIT: the S fields written and their values, as masks of bits. -/
structure Staged where
  mask : Nat
  value : Nat
  deriving DecidableEq, Repr

/-- Error record of Table 18.2; DETAIL as eight words. -/
structure LogRec where
  tfirst : Nat
  tlast : Nat
  count : Nat
  pgid : Nat
  bit : Nat
  cls : Nat
  flags : Nat
  coll : Nat
  seqno : Nat
  detail : List Nat
  deriving DecidableEq, Repr

/-- A coalescing entry of R527: its source, times, latest detail, count of reports not yet written, and whether a report
came in this interval. -/
structure CoalEntry where
  pgid : Nat
  bit : Nat
  cls : Nat
  flags : Nat
  tfirst : Nat
  tlast : Nat
  count : Nat
  detail : List Nat
  active : Bool
  deriving DecidableEq, Repr

/-- Overflow count of one class (R528). -/
structure Overflow where
  cls : Nat
  tfirst : Nat
  tlast : Nat
  count : Nat
  deriving DecidableEq, Repr

/-- A collector: its queue of 64 reports, its 32 coalescing entries, its overflow counts, and the reports of the last
1 ms (R526 to R528). `forced`: device time until which every source coalesces (the injection of FLT bit 9). -/
structure Collector where
  queue : List LogRec
  entries : List CoalEntry
  overflow : List Overflow
  recent : List (Nat × Nat)
  forced : Nat
  deriving DecidableEq, Repr

/-- A loupe entry of R540: device time, site, class, context, twelve payload words. -/
structure LoupeRec where
  time : Nat
  site : Nat
  cls : Nat
  ctx : Nat
  payload : List Nat
  deriving DecidableEq, Repr

/-- A loupe's buffer: armed, trigger seen, stopped, entries oldest first, entries still to record after the trigger, the
CLK_Q cycle of the last entry. -/
structure Loupe where
  armed : Bool
  triggered : Bool
  stopped : Bool
  entries : List LoupeRec
  postLeft : Nat
  lastQ : Option Nat
  deriving DecidableEq, Repr

/-- A facet generator's clock: CLK_C cycles, the part of a period already elapsed (in MHz × units), device-time count
with 32 fraction bits (R424), edges withheld in all and in this 1 ms, period of the last withheld edge, end of the last
1 ms interval, relock failures of the last second, whether CLK_C runs, what the correction of R425 still takes from or adds
to the count (in 2^-32 units) and how much of it per epoch of 16,384 units, last tap moves of its seam FIFOs, the cycle from
which CLK_CYCLES counts (its page's last RESET, R41), whether a loss of lock stopped CLK_C (R428). -/
structure FacetClk where
  cycles : Nat
  phase : Nat
  acc : Nat
  stretches : Nat
  msStretches : Nat
  lastWithheld : Option Nat
  msAt : Nat
  relockFails : List Nat
  running : Bool
  ahead : Nat
  behind : Nat
  rate : Nat
  taps : List (Nat × Nat)
  cycBase : Nat
  lost : Bool
  deriving DecidableEq, Repr

/-- Where a message that leaves the module goes: a management connection, the UDP collector, an optical port's link, the
module of a MODID over the optical fabric, the pair's port, the sideband bus, a pin. -/
inductive Chan
  | mgmt (conn : Nat)
  | udp
  | optical (port : Nat)
  | pairLink (port : Nat)
  | fabric (dest : Nat)
  | i3c
  | pin
  deriving DecidableEq, Repr

/-- A message that left the module: its channel, kind (class and type, or frame type) and payload. -/
structure OutMsg where
  chan : Chan
  kind : String
  words : List Nat
  deriving DecidableEq, Repr

/-- A poison origin (R514): device time, reporting page, and where it lies. `place` below 2^16 is a site, with the
scratchpad word; 2^16 + 8 × site + port a link, with the word of the transfer; 2^17 + n subchannel n, with the burst;
2^18 + site a router, with the slot or route. `ltn`: the LTN of a scratchpad's site then. `done`: when its weight refetch was
complete (R520). -/
structure Origin where
  time : Nat
  pgid : Nat
  place : Nat
  address : Nat
  ltn : Option Nat
  done : Option Nat
  deriving DecidableEq, Repr

/-- A management subscription (R559): connection, period in ms (0: none), flags, device time of the next REPORT, tokens
streamed up to the last. -/
structure Sub where
  conn : Nat
  period : Nat
  flags : Nat
  due : Nat
  seen : Nat
  deriving DecidableEq, Repr

/-- A register access that the service complex performed for a packet and has not answered yet: requester, tag, address,
whether it was a write, status of Table 02.2, value read. -/
structure RegRsp where
  req : Nat
  tag : Nat
  addr : Nat
  write : Bool
  status : Nat
  value : Nat
  deriving DecidableEq, Repr

def Collector.init : Collector := ⟨[], [], [], [], 0⟩
def Loupe.init : Loupe := ⟨false, false, false, [], 0, none⟩

end Sys2Proof.Machine
end

