-- ==== Sys2Proof/Machine/Numerics.lean ====
section
/-! DEFINITION. Numeric formats, rounding, special functions, dither (chapter 03), all on exact values. -/

namespace Sys2Proof.Machine

/-- The value of an encoding: NaN, a signed infinity, or (−1)^neg × n × 2^e (R60). -/
inductive NVal
  | nan
  | inf (neg : Bool)
  | fin (neg : Bool) (n : Nat) (e : Int)
  deriving DecidableEq, Repr

/-- A floating-point format: exponent bits, fraction bits, bias, exponent of the largest finite value and its significand
(Table 03.1). -/
structure Fmt where
  eb : Nat
  m : Nat
  bias : Nat
  emax : Int
  maxSig : Nat
  deriving DecidableEq, Repr

/-- The formats of Table 03.1. -/
def fmtAF16 : Fmt := ⟨6, 9, 31, 31, 1023⟩
def fmtBF16 : Fmt := ⟨8, 7, 127, 127, 255⟩
def fmtE4M3 : Fmt := ⟨4, 3, 7, 8, 14⟩
def fmtE5M2 : Fmt := ⟨5, 2, 15, 15, 7⟩
def fmtE3M2 : Fmt := ⟨3, 2, 3, 4, 7⟩
def fmtE2M3 : Fmt := ⟨2, 3, 1, 2, 15⟩
def fmtE2M1 : Fmt := ⟨2, 1, 1, 2, 3⟩
def fmtB32 : Fmt := ⟨8, 23, 127, 127, 16777215⟩

/-- The finite value of an encoding's fields (R60). -/
def decodeFin (f : Fmt) (code : Nat) : NVal :=
  let ex := bitsOf code f.m f.eb
  let fr := bitsOf code 0 f.m
  let neg := bitOf code (f.m + f.eb)
  if ex = 0 then .fin neg fr (1 - (f.bias : Int) - f.m)
  else .fin neg (2 ^ f.m + fr) ((ex : Int) - f.bias - f.m)

/-- AF16: exponent field 63 is NaN (R64). -/
def decodeAF16 (code : Nat) : NVal :=
  if bitsOf code 9 6 = 63 then .nan else decodeFin fmtAF16 code

/-- An IEEE-like format with infinities: BF16, binary32, E5M2. -/
def decodeInf (f : Fmt) (code : Nat) : NVal :=
  if bitsOf code f.m f.eb = 2 ^ f.eb - 1 then
    if bitsOf code 0 f.m = 0 then .inf (bitOf code (f.m + f.eb)) else .nan
  else decodeFin f code

/-- E4M3: S.1111.111 is NaN. -/
def decodeE4M3 (code : Nat) : NVal :=
  if code % 128 = 127 then .nan else decodeFin fmtE4M3 code

/-- MXINT8 element: n × 2^−6 (R61). -/
def decodeInt8 (code : Nat) : NVal :=
  let v := sext 8 code
  .fin (decide (v < 0)) v.natAbs (-6)

/-- Element formats by the code of Table 08.5; other codes are reserved. -/
def decodeElem (fcode code : Nat) : NVal :=
  match fcode with
  | 0x0 => decodeE4M3 code
  | 0x8 => decodeE4M3 code
  | 0x1 => decodeInf fmtE5M2 code
  | 0x9 => decodeInf fmtE5M2 code
  | 0x2 => decodeFin fmtE3M2 code
  | 0x3 => decodeFin fmtE2M3 code
  | 0x4 => decodeFin fmtE2M1 code
  | 0x5 => decodeInt8 code
  | 0xC => decodeInf fmtBF16 code
  | 0xD => decodeAF16 code
  | _ => .nan

/-- Element width in bits by format code. -/
def elemBits (fcode : Nat) : Nat :=
  match fcode with
  | 0x2 => 6
  | 0x3 => 6
  | 0x4 => 4
  | 0xC => 16
  | 0xD => 16
  | _ => 8

/-- MX formats carry a block scale. -/
def isMx (fcode : Nat) : Bool := fcode ≤ 5

/-- The format codes of Table 08.5 that are not reserved. -/
def isFormat (fcode : Nat) : Bool :=
  fcode ≤ 5 || fcode == 8 || fcode == 9 || fcode == 0xC || fcode == 0xD

/-- A value times its block scale X = 2^(e − 127); scale 0xFF is NaN (R62). -/
def scaleBy (scale : Nat) (x : NVal) : NVal :=
  if scale = 0xFF then .nan
  else match x with
    | .fin neg n e => .fin neg n (e + (scale : Int) - 127)
    | y => y

/-- Roundings: to nearest even, toward zero, stochastic with dither d (R69, R74). -/
inductive Rnd
  | rne
  | rtz
  | sr (d : Nat)
  deriving DecidableEq, Repr

/-- n × 2^s rounded to an integer. -/
def roundQ (r : Rnd) (n : Nat) (s : Int) : Nat :=
  if 0 ≤ s then n * 2 ^ s.toNat
  else
    let k := (-s).toNat
    match r with
    | .rtz => n / 2 ^ k
    | .sr d => (n * 2 ^ 16 + d * 2 ^ k) / 2 ^ (k + 16)
    | .rne =>
      let q := n / 2 ^ k
      let rem := n % 2 ^ k
      if 2 ^ k < 2 * rem ∨ (2 * rem = 2 ^ k ∧ q % 2 = 1) then q + 1 else q

/-- Exponent of the unit of a format at n × 2^e: e_x = max(floor(log2), smallest normal exponent). -/
def unitExp (f : Fmt) (n : Nat) (e : Int) : Int := max ((Nat.log2 n : Int) + e) (1 - (f.bias : Int))

/-- A finite non-zero magnitude rounded to a format: the code without sign, or none beyond the largest finite. -/
def roundMag (f : Fmt) (r : Rnd) (n : Nat) (e : Int) : Option Nat :=
  let ex := unitExp f n e
  let u := ex - f.m
  let q := roundQ r n (e - u)
  if (f.emax - f.m < u ∧ 0 < q) ∨ (u = f.emax - f.m ∧ f.maxSig < q) then none
  else if q = 0 then some 0
  else if 2 ^ (f.m + 1) ≤ q then some ((ex + 1 + f.bias).toNat * 2 ^ f.m)
  else if 2 ^ f.m ≤ q then some ((ex + f.bias).toNat * 2 ^ f.m + (q - 2 ^ f.m))
  else some q

/-- The code of the largest finite value, without sign. -/
def maxCode (f : Fmt) : Nat :=
  (f.emax + f.bias).toNat * 2 ^ f.m + (f.maxSig - 2 ^ f.m)

/-- Sign bit of a format. -/
def signBit (f : Fmt) (neg : Bool) : Nat := if neg then 2 ^ (f.m + f.eb) else 0

/-- A value rounded to a saturating format: code and overflow flag (R66, R67, R68). `nanCode` is the NaN of the format. -/
def roundSat (f : Fmt) (nanCode : Nat) (r : Rnd) (x : NVal) : Nat × Bool :=
  match x with
  | .nan => (nanCode, false)
  | .inf neg => (signBit f neg + maxCode f, true)
  | .fin neg n e =>
    if n = 0 then (signBit f neg, false)
    else match roundMag f r n e with
      | some c => (signBit f neg + c, false)
      | none => (signBit f neg + maxCode f, true)

/-- AF16 result of an operation (R64, R66). -/
def toAF16 (r : Rnd) (x : NVal) : Nat × Bool := roundSat fmtAF16 0x7E00 r x

/-- AF16 to BF16 (Table 03.4). -/
def toBF16 (r : Rnd) (x : NVal) : Nat × Bool := roundSat fmtBF16 0x7FC0 r x

/-- AF16 to E4M3 or E5M2 without a scale (Table 03.4). -/
def toPlain8 (f : Fmt) (r : Rnd) (x : NVal) : Nat × Bool := roundSat f 0x7F r x

/-- binary32 by round to nearest even, overflow to infinity (R87): encoding and overflow flag. -/
def toB32 (x : NVal) : Nat × Bool :=
  match x with
  | .nan => (0x7FC0_0000, false)
  | .inf neg => (signBit fmtB32 neg + 0x7F80_0000, false)
  | .fin neg n e =>
    if n = 0 then (signBit fmtB32 neg, false)
    else match roundMag fmtB32 .rne n e with
      | some c => (signBit fmtB32 neg + c, false)
      | none => (signBit fmtB32 neg + 0x7F80_0000, true)

/-- J7 result as BF16: infinities carried, NaN 0x7FC0, overflow to infinity (R88). -/
def j7ToBF16 (x : NVal) : Nat × Bool :=
  match x with
  | .nan => (0x7FC0, false)
  | .inf neg => (signBit fmtBF16 neg + 0x7F80, false)
  | .fin neg n e =>
    if n = 0 then (signBit fmtBF16 neg, false)
    else match roundMag fmtBF16 .rne n e with
      | some c => (signBit fmtBF16 neg + c, false)
      | none => (signBit fmtBF16 neg + 0x7F80, true)

/-- The signed integer of a finite value at exponent `e0`, not above its own. -/
def numAt (neg : Bool) (n : Nat) (e e0 : Int) : Int :=
  let v : Int := (n * 2 ^ (e - e0).toNat : Nat)
  if neg then -v else v

/-- Exact sum (R67 gives the sign of a zero). -/
def numAdd (x y : NVal) : NVal :=
  match x, y with
  | .nan, _ => .nan
  | _, .nan => .nan
  | .inf a, .inf b => if a = b then .inf a else .nan
  | .inf a, _ => .inf a
  | _, .inf b => .inf b
  | .fin a n e, .fin b k f =>
    let e0 := min e f
    let v := numAt a n e e0 + numAt b k f e0
    if v = 0 then .fin (a && b && n == 0 && k == 0) 0 0 else .fin (decide (v < 0)) v.natAbs e0

/-- Negation. -/
def numNeg (x : NVal) : NVal :=
  match x with
  | .nan => .nan
  | .inf a => .inf (!a)
  | .fin a n e => .fin (!a) n e

/-- Exact product. -/
def numMul (x y : NVal) : NVal :=
  match x, y with
  | .nan, _ => .nan
  | _, .nan => .nan
  | .inf a, .inf b => .inf (a != b)
  | .inf a, .fin b k _ => if k = 0 then .nan else .inf (a != b)
  | .fin a n _, .inf b => if n = 0 then .nan else .inf (a != b)
  | .fin a n e, .fin b k f => .fin (a != b) (n * k) (e + f)

/-- An inexact value: a little above v × 2^e, below (v + 1) × 2^e. Rounding it rounds the exact value. -/
def above (neg : Bool) (v : Nat) (e : Int) : NVal := .fin neg (2 * v + 1) (e - 1)

/-- Quotient of finite values, y not zero, carried far beyond the rounding position. -/
def numDiv (x y : NVal) : NVal :=
  match x, y with
  | .fin a n e, .fin b k f =>
    let q := n * 2 ^ 128 / k
    if n * 2 ^ 128 % k = 0 then .fin (a != b) q (e - f - 128) else above (a != b) q (e - f - 128)
  | _, _ => .nan

/-- AF16 codes in the order of MAX: +0 above −0 (Table 05.4). -/
def orderKey (code : Nat) : Int :=
  if 0x8000 ≤ code then -(((code - 0x8000 : Nat) : Int)) - 1 else code

def isNaN16 (code : Nat) : Bool := bitsOf code 9 6 == 63

/-- MAX, MIN, and the comparison a > b of SEL on AF16 codes (R65, Table 05.4). -/
def af16Gt (a b : Nat) : Bool := decide (orderKey b < orderKey a)
def af16Max (a b : Nat) : Nat := if isNaN16 a || isNaN16 b then 0x7E00 else if af16Gt a b then a else b
def af16Min (a b : Nat) : Nat := if isNaN16 a || isNaN16 b then 0x7E00 else if af16Gt a b then b else a

/-- AF16 arithmetic by RNE on codes: result and overflow. -/
def afAdd (a b : Nat) : Nat × Bool := toAF16 .rne (numAdd (decodeAF16 a) (decodeAF16 b))
def afSub (a b : Nat) : Nat × Bool := toAF16 .rne (numAdd (decodeAF16 a) (numNeg (decodeAF16 b)))
def afMul (a b : Nat) : Nat × Bool := toAF16 .rne (numMul (decodeAF16 a) (decodeAF16 b))
def afFma (a b c : Nat) : Nat × Bool :=
  toAF16 .rne (numAdd (numMul (decodeAF16 a) (decodeAF16 b)) (decodeAF16 c))

/-- Division of AF16 codes as for SMAX_FINAL: x / ±0 is the largest finite value with overflow, 0 / 0 is NaN (R152). -/
def afDiv (a b : Nat) : Nat × Bool :=
  match decodeAF16 a, decodeAF16 b with
  | .fin sa n e, .fin sb k f =>
    if k = 0 then
      if n = 0 then (0x7E00, false) else (signBit fmtAF16 (sa != sb) + maxCode fmtAF16, true)
    else toAF16 .rne (numDiv (.fin sa n e) (.fin sb k f))
  | _, _ => (0x7E00, false)

/-- The SR step of R74 on two exact addends. -/
def srStep (d : Nat) (x y : NVal) : Nat × Bool := toAF16 (.sr d) (numAdd x y)

/-- Integer square root: the bits of the root from bit b down. -/
def isqrtGo : Nat → Nat → Nat → Nat
  | 0, n, r => if (r + 1) * (r + 1) ≤ n then r + 1 else r
  | b + 1, n, r => if (r + 2 ^ (b + 1)) * (r + 2 ^ (b + 1)) ≤ n then isqrtGo b n (r + 2 ^ (b + 1)) else isqrtGo b n r

/-- Integer square root. -/
def isqrt (n : Nat) : Nat := isqrtGo (Nat.log2 n / 2 + 1) n 0

/-- π × 2^320 and ln 2 × 2^320, truncated. -/
def piFix : Nat := 0x3243f6a8885a308d313198a2e03707344a4093822299f31d0082efa98ec4e6c89452821e638d01377
def ln2Fix : Nat := 0xb17217f7d1cf79abc9e3b39803f2f6af40f343267298b62d8a0d175b8baafa2be7b876206debac98

/-- 1.0 with 256 fraction bits. -/
def one256 : Nat := 2 ^ 256

/-- Taylor terms of e^r, r with 256 fraction bits: fuel, index, term, sum. -/
def expGo : Nat → Nat → Nat → Nat → Nat → Nat
  | 0, _, _, _, sum => sum
  | k + 1, i, r, term, sum =>
    let t := term * r / 2 ^ 256 / i
    expGo k (i + 1) r t (sum + t)

/-- e^x for x = xi × 2^−256: (v, k) with e^x = v × 2^(k − 256), v from 2^256 to 2^257. -/
def expFix (xi : Int) : Nat × Int :=
  let ln2 : Int := (ln2Fix / 2 ^ 64 : Nat)
  let k := xi / ln2
  let r := (xi - k * ln2).toNat
  (expGo 70 1 r one256 one256, k)

/-- A finite value with 256 fraction bits. -/
def fix256 (neg : Bool) (n : Nat) (e : Int) : Int := numAt neg n e (-256)

/-- Whether |n × 2^e| is 2^k or more. -/
def atLeast (n : Nat) (e : Int) (k : Int) : Bool := n != 0 && decide (k ≤ (Nat.log2 n : Int) + e)

/-- e^x (R72). -/
def expNum (x : NVal) : NVal :=
  match x with
  | .fin neg n e =>
    if n = 0 then .fin false 1 0
    else if atLeast n e 7 then (if neg then above false 0 (-200) else .fin false 1 200)
    else
      let (v, k) := expFix (fix256 neg n e)
      above false v (k - 256)
  | _ => .nan

/-- 2^x. -/
def exp2Num (x : NVal) : NVal :=
  match x with
  | .fin neg n e =>
    if n = 0 then .fin false 1 0
    else if atLeast n e 8 then (if neg then above false 0 (-200) else .fin false 1 200)
    else
      let xi := fix256 neg n e
      let k := xi / (one256 : Int)
      let r := (xi - k * one256).toNat
      if r = 0 then .fin false 1 k
      else above false (expGo 70 1 (r * (ln2Fix / 2 ^ 64) / 2 ^ 256) one256 one256) (k - 256)
  | _ => .nan

/-- Bits of log2 of m, 1 ≤ m < 2 with 256 fraction bits. -/
def log2Go : Nat → Nat → Nat → Nat
  | 0, _, acc => acc
  | k + 1, m, acc =>
    let q := m * m / 2 ^ 256
    if 2 ^ 257 ≤ q then log2Go k (q / 2) (2 * acc + 1) else log2Go k q (2 * acc)

/-- log2 x: negative is NaN, ±0 the negative largest finite with overflow (Table 05.4). -/
def log2Num (x : NVal) : NVal :=
  match x with
  | .fin neg n e =>
    if n = 0 then .inf true
    else if neg then .nan
    else
      let k := (Nat.log2 n : Int) + e
      if n = 2 ^ Nat.log2 n then .fin (decide (k < 0)) k.natAbs 0
      else
        let f := log2Go 160 (n * 2 ^ 256 / 2 ^ Nat.log2 n) 0
        if 0 ≤ k then above false (k.toNat * 2 ^ 160 + f) (-160)
        else above true (k.natAbs * 2 ^ 160 - f - 1) (-160)
  | _ => .nan

/-- 1 / x: ±0 gives the largest finite of the sign with overflow. -/
def rcpNum (x : NVal) : NVal :=
  match x with
  | .fin neg n e => if n = 0 then .inf neg else numDiv (.fin false 1 0) (.fin neg n e)
  | _ => .nan

/-- Even exponent for a root. -/
def evenExp (n : Nat) (e : Int) : Nat × Int := if e % 2 = 0 then (n, e) else (2 * n, e - 1)

/-- √x: negative is NaN, −0 gives −0. -/
def sqrtNum (x : NVal) : NVal :=
  match x with
  | .fin neg n e =>
    if n = 0 then .fin neg 0 0
    else if neg then .nan
    else
      let (n', e') := evenExp n e
      let q := isqrt (n' * 2 ^ 256)
      if q * q = n' * 2 ^ 256 then .fin false q (e' / 2 - 128) else above false q (e' / 2 - 128)
  | _ => .nan

/-- 1 / √x: negative is NaN, ±0 gives the largest finite of the sign with overflow. -/
def rsqrtNum (x : NVal) : NVal :=
  match x with
  | .fin neg n e =>
    if n = 0 then .inf neg
    else if neg then .nan
    else
      let (n', e') := evenExp n e
      let q := isqrt (2 ^ 512 / n')
      if q * q * n' = 2 ^ 512 then .fin false q (-(e' / 2) - 256) else above false q (-(e' / 2) - 256)
  | _ => .nan

/-- e^x as a number with 256 fraction bits, |x| below 128. -/
def expScaled (xi : Int) : Nat :=
  let (v, k) := expFix xi
  if 0 ≤ k then v * 2 ^ k.toNat else v / 2 ^ (-k).toNat

/-- tanh x. -/
def tanhNum (x : NVal) : NVal :=
  match x with
  | .fin neg n e =>
    if n = 0 then .fin neg 0 0
    else if atLeast n e 6 then .fin neg (2 ^ 100 - 1) (-100)
    else
      let t := expScaled (fix256 false (2 * n) e)
      above neg ((t - one256) * 2 ^ 256 / (t + one256)) (-256)
  | _ => .nan

/-- 1 / (1 + e^−x). -/
def sigmoidNum (x : NVal) : NVal :=
  match x with
  | .fin neg n e =>
    if n = 0 then .fin false 1 (-1)
    else if atLeast n e 6 then (if neg then above false 0 (-200) else .fin false (2 ^ 100 - 1) (-100))
    else
      let t := expScaled (fix256 true n e)
      if neg then above false (t * 2 ^ 256 / (one256 + t)) (-256)
      else above false (2 ^ 512 / (one256 + t)) (-256)
  | _ => .nan

/-- x / (1 + e^−x). -/
def siluNum (x : NVal) : NVal :=
  match x with
  | .fin neg n e =>
    if n = 0 then .fin neg 0 0 else numMul (.fin neg n e) (sigmoidNum (.fin neg n e))
  | _ => .nan

/-- Terms of Σ x^(2k+1) / (1·3·5…(2k+1)), x2 = x² with 256 fraction bits. -/
def phiGo : Nat → Nat → Nat → Nat → Nat → Nat
  | 0, _, _, _, sum => sum
  | k + 1, i, x2, term, sum =>
    let t := term * x2 / 2 ^ 256 / i
    phiGo k (i + 2) x2 t (sum + t)

/-- Φ(x) − 1/2 for x ≥ 0, x with 256 fraction bits, below 16. -/
def phiHalf (x : Nat) : Nat :=
  let x2 := x * x / 2 ^ 256
  let s := phiGo 700 3 x2 x x
  let g := expScaled (-((x2 / 2 : Nat) : Int))
  let root := isqrt (2 * piFix * 2 ^ 192)
  s * g / root

/-- x × Φ(x). -/
def geluNum (x : NVal) : NVal :=
  match x with
  | .fin neg n e =>
    if n = 0 then .fin neg 0 0
    else if atLeast n e 4 then
      if neg then above true 0 (-200) else numMul (.fin false n e) (.fin false (2 ^ 100 - 1) (-100))
    else
      let h := phiHalf (fix256 false n e).toNat
      let p := if neg then 2 ^ 255 - h else 2 ^ 255 + h
      numMul (.fin neg n e) (above false p (-256))
  | _ => .nan

/-- Taylor terms of sine or cosine: fuel, index, r², term, positive sum, negative sum, sign. -/
def trigGo : Nat → Nat → Nat → Nat → Nat → Nat → Bool → Nat
  | 0, _, _, _, p, q, _ => p - q
  | k + 1, i, r2, term, p, q, plus =>
    let t := term * r2 / 2 ^ 256 / (i * (i + 1))
    if plus then trigGo k (i + 2) r2 t (p + t) q false else trigGo k (i + 2) r2 t p (q + t) true

/-- sin and cos of r, 0 ≤ r < π/2, 256 fraction bits. -/
def sinFix (r : Nat) : Nat := trigGo 60 2 (r * r / 2 ^ 256) r r 0 false
def cosFix (r : Nat) : Nat := trigGo 60 1 (r * r / 2 ^ 256) one256 one256 0 false

/-- Quadrant and remainder of |x| by π/2. -/
def quadrant (n : Nat) (e : Int) : Nat × Nat :=
  let xi := (numAt false n e (-320)).toNat
  (xi / (piFix / 2) % 4, xi % (piFix / 2) / 2 ^ 64)

/-- sin x, radians. -/
def sinNum (x : NVal) : NVal :=
  match x with
  | .fin neg n e =>
    if n = 0 then .fin neg 0 0
    else
      let (q, r) := quadrant n e
      let v := if q % 2 = 0 then sinFix r else cosFix r
      above (neg != decide (2 ≤ q)) v (-256)
  | _ => .nan

/-- cos x, radians. -/
def cosNum (x : NVal) : NVal :=
  match x with
  | .fin _ n e =>
    if n = 0 then .fin false 1 0
    else
      let (q, r) := quadrant n e
      let v := if q % 2 = 0 then cosFix r else sinFix r
      above (q == 1 || q == 2) v (-256)
  | _ => .nan

/-- A special function on an AF16 code, correctly rounded (R72). -/
def special (f : NVal → NVal) (code : Nat) : Nat × Bool :=
  match decodeAF16 code with
  | .nan => (0x7E00, false)
  | x => toAF16 .rne (f x)

def afExp (code : Nat) : Nat × Bool := special expNum code
def afRcp (code : Nat) : Nat × Bool := special rcpNum code
def afRsqrt (code : Nat) : Nat × Bool := special rsqrtNum code

/-- SipHash state word rotation and arithmetic, 64 bits. -/
def add64 (a b : Nat) : Nat := (a + b) % 2 ^ 64
def rotl64 (x k : Nat) : Nat := (x * 2 ^ k) % 2 ^ 64 + x / 2 ^ (64 - k)

/-- The four state words of SipHash. -/
structure Sip where
  v0 : Nat
  v1 : Nat
  v2 : Nat
  v3 : Nat
  deriving DecidableEq, Repr

/-- One SipRound. -/
def sipRound (s : Sip) : Sip :=
  let a0 := add64 s.v0 s.v1
  let b0 := add64 s.v2 s.v3
  let a1 := rotl64 s.v1 13 ^^^ a0
  let b1 := rotl64 s.v3 16 ^^^ b0
  let a2 := rotl64 a0 32
  let c0 := add64 b0 a1
  let d0 := add64 a2 b1
  let c1 := rotl64 a1 17 ^^^ c0
  let d1 := rotl64 b1 21 ^^^ d0
  ⟨d0, c1, rotl64 c0 32, d1⟩

/-- Two compression rounds on one message word. -/
def sipWord (s : Sip) (m : Nat) : Sip :=
  let t := sipRound (sipRound { s with v3 := s.v3 ^^^ m })
  { t with v0 := t.v0 ^^^ m }

/-- Four finalisation rounds. -/
def sipFinal (s : Sip) : Sip := sipRound (sipRound (sipRound (sipRound s)))

/-- XOR of the four words. -/
def sipXor (s : Sip) : Nat := s.v0 ^^^ s.v1 ^^^ s.v2 ^^^ s.v3

/-- SipHash-2-4 with 128-bit output of a 16-byte message (two words m0, m1) under key halves k0, k1 (R77). -/
def sipHash128 (k0 k1 m0 m1 : Nat) : Nat × Nat :=
  let s : Sip := ⟨0x736f6d6570736575 ^^^ k0, 0x646f72616e646f6d ^^^ k1 ^^^ 0xee,
    0x6c7967656e657261 ^^^ k0, 0x7465646279746573 ^^^ k1⟩
  let s := sipWord (sipWord (sipWord s m0) m1) (16 * 2 ^ 56)
  let f := sipFinal { s with v2 := s.v2 ^^^ 0xee }
  let g := sipFinal { f with v1 := f.v1 ^^^ 0xdd }
  (sipXor f, sipXor g)

/-- A position record (Table 03.6). -/
structure PosRec where
  stream : Nat
  token : Nat
  kblock : Nat
  pstep : Nat
  domain : Nat
  deriving DecidableEq, Repr

/-- The record's 16 bytes as two little-endian 64-bit words. -/
def PosRec.words (p : PosRec) : Nat × Nat :=
  (p.stream % 2 ^ 16 + p.token % 2 ^ 40 * 2 ^ 16 + p.kblock % 2 ^ 8 * 2 ^ 56,
   p.kblock / 2 ^ 8 % 2 ^ 16 + p.pstep % 2 ^ 16 * 2 ^ 16 + p.domain % 2 ^ 8 * 2 ^ 32)

/-- A 128-bit key as four little-endian words: its two halves. -/
def keyHalves (k : List Nat) : Nat × Nat :=
  (nthD 0 k 0 + nthD 0 k 1 * 2 ^ 32, nthD 0 k 2 + nthD 0 k 3 * 2 ^ 32)

/-- The four words of a 128-bit hash output (R77). -/
def hashWords (h : Nat × Nat) : List Nat :=
  [h.1 % 2 ^ 32, h.1 / 2 ^ 32, h.2 % 2 ^ 32, h.2 / 2 ^ 32]

/-- The seed S of a key and a position record (R77): four 32-bit words. -/
def seedOf (key : List Nat) (p : PosRec) : List Nat :=
  hashWords (sipHash128 (keyHalves key).1 (keyHalves key).2 p.words.1 p.words.2)

/-- The mixing function of R79 on one seed word. -/
def mixWord (w r c : Nat) : Nat :=
  let h := w ^^^ ((r * 0x9E37_79B1 + c * 0x85EB_CA77) % 2 ^ 32)
  let h := (h ^^^ (h / 2 ^ 15)) * 0x2C1B_3C6D % 2 ^ 32
  let h := (h ^^^ (h / 2 ^ 12)) * 0x297A_2D39 % 2 ^ 32
  h ^^^ (h / 2 ^ 15)

/-- The dither of an SR step at coordinates (r, c) under seed S (R79). -/
def dither (seed : List Nat) (r c : Nat) : Nat := mixWord (nthD 0 seed (c % 4)) r c % 2 ^ 16

/-- The prime of the residue check. -/
def resP : Nat := 65521

/-- Powers modulo P by repeated squaring: fuel bits of the exponent. -/
def powMod : Nat → Nat → Nat → Nat
  | 0, _, _ => 1
  | k + 1, b, n =>
    let h := powMod k (b * b % resP) (n / 2)
    if n % 2 = 1 then b * h % resP else h

/-- 2^e mod P; a negative exponent uses the inverse 32,761 (R120). -/
def pow2Res (e : Int) : Nat :=
  if 0 ≤ e then powMod 40 2 e.toNat else powMod 40 32761 (-e).toNat

/-- The residue of an exact dyadic value; NaN, infinite and poisoned operands have residue 0 (R120). -/
def res (x : NVal) : Nat :=
  match x with
  | .fin neg n e =>
    let r := n % resP * pow2Res e % resP
    if neg then (resP - r) % resP else r
  | _ => 0

/-- A J7 dot product's step: rne32 of a product or sum, with the overflow flag carried (R87). -/
def j7Mul (a b : NVal) : NVal × Bool :=
  let r := toB32 (numMul a b)
  (decodeInf fmtB32 r.1, r.2)

/-- rne32 of a sum. -/
def j7Add (a b : NVal) : NVal × Bool :=
  let r := toB32 (numAdd a b)
  (decodeInf fmtB32 r.1, r.2)

/-- One level of a pairwise tree. -/
def pairUp {α : Type} (f : α → α → α) : List α → List α
  | x :: y :: t => f x y :: pairUp f t
  | t => t

/-- J7 sum with flag. -/
def j7Plus (x y : NVal × Bool) : NVal × Bool :=
  let r := j7Add x.1 y.1
  (r.1, x.2 || y.2 || r.2)

/-- The pairwise tree over one group of 32 products: five levels. -/
def j7Tree (ps : List (NVal × Bool)) : NVal × Bool :=
  let l := pairUp j7Plus (pairUp j7Plus (pairUp j7Plus (pairUp j7Plus (pairUp j7Plus ps))))
  nthD (NVal.fin false 0 0, false) l 0

/-- The J7 dot product of one pass: four groups of 32 products added to acc in ascending order (R87). -/
def j7Groups : Nat → List (NVal × Bool) → NVal × Bool → NVal × Bool
  | 0, _, acc => acc
  | k + 1, ps, acc => j7Groups k (ps.drop 32) (j7Plus acc (j7Tree (ps.take 32)))

/-- The R70 conversion of a block of 32 AF16 codes to an MX format: scale, elements, overflow. -/
def toMx (fcode : Nat) (r : Rnd) (xs : List Nat) : Nat × List Nat × Bool :=
  let ns := xs.map decodeAF16
  if ns.any (· == NVal.nan) then (0xFF, xs.map fun _ => 0, false)
  else
    let lg := ns.foldl (fun (a : Option Int) x =>
      match x with
      | .fin _ n e => if n = 0 then a else some (max ((Nat.log2 n : Int) + e) (a.getD ((Nat.log2 n : Int) + e)))
      | _ => a) none
    let fm := match fcode with
      | 0 => fmtE4M3
      | 1 => fmtE5M2
      | 2 => fmtE3M2
      | 3 => fmtE2M3
      | _ => fmtE2M1
    let emax : Int := if fcode = 5 then 0 else fm.emax
    let e := match lg with
      | none => -127
      | some l => min (max (l - emax) (-127)) 127
    let conv := fun (x : NVal) =>
      match x with
      | .fin neg n ex =>
        if fcode = 5 then
          let q := roundQ r n (ex - e + 6)
          let c := min q 127
          (if neg then (256 - c) % 256 else c, decide (127 < q))
        else roundSat fm 0 r (.fin neg n (ex - e))
      | _ => (0, false)
    let cs := ns.map conv
    ((e + 127).toNat, cs.map (·.1), cs.any (·.2))

end Sys2Proof.Machine
end

