-- ==== Sys2Proof/Machine/TileTypes.lean ====
section
/-! DEFINITION. The state of a tile beyond its registers: sync objects, threads, task windows, the matrix array, the vector
engine, the DMA engines, scratchpad banks (chapters 04 to 08). -/

namespace Sys2Proof.Machine

/-- A word or a value with its poison bit. -/
structure PWord where
  v : Nat
  p : Bool
  deriving DecidableEq, Repr

/-- What the code of a stored word shows when it is read: clean, a single-bit error, a double-bit error (R210, R211). -/
inductive Ecc
  | clean
  | single
  | double
  deriving DecidableEq, Repr

/-- What the surroundings do to one scratchpad access: what the word's code shows, and the port order of Table 07.2 that
won the bank when the access is dropped in a conflict (R194). -/
structure Acc where
  ecc : Ecc
  lostTo : Option Nat
  deriving DecidableEq, Repr

/-- What the surroundings do to the accesses of a command, in the order it makes them; accesses beyond the list are clean
and meet no conflict. -/
abbrev Env := List Acc

/-- A sync object: its binding, and the state of a semaphore or a barrier (R166, R172, R175). -/
structure SyncObj where
  bound : Bool
  ctx : Nat
  vid : Nat
  barrier : Bool
  count : Nat
  part : Nat
  arr0 : Nat
  arr1 : Nat
  phase : Nat
  rc : Nat
  last : Nat
  deriving DecidableEq, Repr

/-- States of a context (R131). -/
inductive CtxSt
  | idle
  | running
  | halted
  | faulted
  deriving DecidableEq, Repr

/-- What a thread waits for: a full window (R140), a sync wait with the entry counter when it first issued (R143, R146, R176),
a remote response (R139). -/
inductive Block
  | none
  | window (engine : Nat)
  | swait (vid count kind entry : Nat)
  | remote (tag rd : Nat)
  deriving DecidableEq, Repr

/-- A context's thread: state, program counter, registers x1 to x31, retired instructions, block, whether a fault is
recorded (R133), whether a stop waits for BUSY to clear. -/
structure Thread where
  st : CtxSt
  pc : Nat
  regs : List (Nat × Word)
  instret : Nat
  block : Block
  faultRec : Bool
  stopping : Bool
  deriving DecidableEq, Repr

/-- A task: context, entry number, engine (0 MXA, 1 VXE, 2 DMX_0, 3 DMX_1), header words, descriptor words, offset it was
copied from, whether a word was poisoned, whether it is a RAMP task (R118). -/
structure Task where
  ctx : Nat
  entry : Nat
  engine : Nat
  hdr : List Nat
  desc : List Nat
  offset : Nat
  poisoned : Bool
  ramp : Bool
  deriving DecidableEq, Repr

/-- A task being copied, or copied and not yet entered (R141, R217): the words read so far, what the surroundings do to the
reads still to come, the cycle in which its next two words are read. -/
structure Copy where
  task : Task
  words : List PWord
  env : Env
  due : Nat
  deriving DecidableEq, Repr

/-- Stationary operands of a pass: the instruction and pass they were loaded for, mode and format, the last load cycle of
each group loaded, the scaled values of each logical column, their residues, poison per logical column, and the check column
C_r of the array rows loaded (R107, R120, R121). -/
structure MOps where
  entry : Nat
  pass : Nat
  mode : Nat
  wfmt : Nat
  ends : List Nat
  cols : List (List NVal)
  residues : List (List Nat)
  poison : List Bool
  check : List Nat
  deriving DecidableEq, Repr

/-- A mismatch of a pass: activation row, row of the array, kind (Table 04.13). -/
structure Mis where
  arow : Nat
  row : Nat
  kind : Nat
  deriving DecidableEq, Repr

/-- An activation row in the array: instruction, pass, row index, issue cycle, the operands it meets, its scaled elements,
their residues, whether it is poisoned, its row metadata, its seed S, its initial partial sums when they come from memory, the
outputs of its columns that have left the array, those of them a drain holds, its residue lanes so far, and the cycles by
which stalls delay its later events (R93, R113, R121). -/
structure MRow where
  entry : Nat
  pass : Nat
  row : Nat
  issue : Nat
  opsEntry : Nat
  opsPass : Nat
  acts : List NVal
  residues : List Nat
  poison : Bool
  badHdr : Bool
  token : Nat
  keyIdx : Nat
  seed : List Nat
  init : List PWord
  outs : List (List PWord)
  held : List Nat
  lanes : List Nat
  delay : Nat
  deriving DecidableEq, Repr

/-- A pass that rows have entered: the entry cycle of its last row, its mismatch, rows drained, its verdict, whether it
never raises a completion signal (R95). -/
structure MPass where
  entry : Nat
  pass : Nat
  lastIssue : Option Nat
  mis : Option Mis
  drained : Nat
  verdict : Option Bool
  lost : Bool
  deriving DecidableEq, Repr

/-- A fired MXA instruction: its task, next pass to load, next pass and row to take, passes completed, and the pass at
which it was stopped (R106). -/
structure MInstr where
  task : Task
  nextLoad : Nat
  nextPass : Nat
  nextRow : Nat
  done : Nat
  stopped : Option Nat
  deriving DecidableEq, Repr

/-- A replay in progress: instruction, first and last pass of the group, whether the mismatch was injected (R124). -/
structure MReplay where
  entry : Nat
  first : Nat
  last : Nat
  inj : Bool
  deriving DecidableEq, Repr

/-- A weight front: the operand set it brings, array rows entered, the cycle in which it would enter its next row. -/
structure MFront where
  entry : Nat
  pass : Nat
  row : Nat
  due : Nat
  deriving DecidableEq, Repr

/-- The matrix array of a tile. Operand sets are named by the instruction and pass they were loaded for: `active` is the
one new rows meet; `fronts` are those whose front has not passed every array row, oldest first, the last ones still
loading; `since` rows were admitted behind the newest front in the array. The chain buffer is keyed by row × 256 + column.
`level` is 0 to 5 (Table 04.12); `ramp` the cycle of a ramp-up's last step; `gapSince` the first cycle of the gap;
`fillAt` the cycle from which filler rows are still to be counted; `due` the cycle from which a front at row 0 waits; `passed`
the cycle after the last front left the array. -/
structure Mxa where
  instrs : List MInstr
  ops : List MOps
  active : Option (Nat × Nat)
  fronts : List MFront
  since : Nat
  rows : List MRow
  chain : List (Nat × PWord)
  passes : List MPass
  replay : Option MReplay
  replays : List Nat
  wvalid : Bool
  suspect : Bool
  level : Nat
  ramp : Option Nat
  rampTask : Option Task
  gapSince : Option Nat
  fillAt : Nat
  due : Nat
  lastRow : Option Nat
  lastQ : Nat
  lastMode : Nat
  ready : Bool
  lastTag : Nat
  passed : Nat
  deriving DecidableEq, Repr

/-- The running task of the vector engine; `performed` once its output writes are made, `ok` unless it faulted. -/
structure VxeRun where
  task : Task
  performed : Bool
  ok : Bool
  deriving DecidableEq, Repr

/-- Address spaces of a DMX request (R229). -/
inductive Space
  | own
  | remote
  | inter
  | direct
  deriving DecidableEq, Repr

/-- A request of a transfer: list index of its page, source, destination, bytes. One that reads a page generation has the
generation expected in place of a destination. -/
structure DReq where
  page : Nat
  gen : Bool
  sspace : Space
  saddr : Nat
  dspace : Space
  daddr : Nat
  len : Nat
  deriving DecidableEq, Repr

/-- A request in flight: its tag, its transfer's entry number, the requester it carries (R200, R201), first issue cycle,
subchannels it counts against, whether its write is out, the data being written, times reissued, site it was last sent to. One
whose transfer has left its engine is abandoned, and only awaits its late response (R158, R163). -/
structure DTag where
  tag : Nat
  entry : Nat
  who : Nat
  rsite : Bool
  req : DReq
  first : Nat
  mcs : List Nat
  writing : Bool
  data : List PWord
  reissues : Nat
  site : Nat
  deriving DecidableEq, Repr

/-- A generation read: page, tag, cycle, value found, whether it was poisoned, whether it matched, whether its mismatch was
injected (R44). -/
structure GenRes where
  page : Nat
  tag : Nat
  at_ : Nat
  found : Nat
  pois : Bool
  ok : Bool
  inj : Bool
  deriving DecidableEq, Repr

/-- How a transfer stands: running, stale at a page, or with a page reference refused. -/
inductive XferSt
  | running
  | stale (g : GenRes)
  | badRef (page : Nat)
  deriving DecidableEq, Repr

/-- A fired transfer or attention-page task: whether it is split, requests not yet issued, how it stands, the generations
read. -/
structure DXfer where
  task : Task
  split : Bool
  reqs : List DReq
  st : XferSt
  gens : List GenRes
  deriving DecidableEq, Repr

/-- A DMA engine. -/
structure Dmx where
  xfers : List DXfer
  tags : List DTag
  deriving DecidableEq, Repr

/-- Kinds of a remote scratchpad access; the atomic's number is its funct7 (Table 07.4). -/
inductive RKind
  | read
  | write
  | amo (f : Nat)
  | cas
  deriving DecidableEq, Repr

/-- A remote request a thread waits for: tag, the requester it carries, kind, target LTN and word, words, data, second
operand, first issue cycle, times reissued, site it was last sent to, none while it was never sent (R200, R201, R208). -/
structure RemOut where
  tag : Nat
  who : Nat
  rsite : Bool
  kind : RKind
  ltn : Nat
  word : Nat
  n : Nat
  data : List PWord
  b : Nat
  first : Nat
  reissues : Nat
  site : Option Nat
  deriving DecidableEq, Repr

/-- A remote access queued at a bank: one word of a request. -/
structure BankAcc where
  req : Nat
  rsite : Bool
  tag : Nat
  kind : RKind
  word : Nat
  data : PWord
  b : Nat
  arrived : Nat
  starved : Bool
  deriving DecidableEq, Repr

/-- A replay-cache entry (R207). -/
structure RcEntry where
  req : Nat
  rsite : Bool
  tag : Nat
  old : PWord
  stored : Nat
  deriving DecidableEq, Repr

/-- A scratchpad bank: remote queue, replay cache, the atomic between its read and its write with the old value read,
scrub row, corrected words awaiting write-back. -/
structure Bank where
  queue : List BankAcc
  cache : List RcEntry
  atomic : Option (BankAcc × PWord)
  scrubRow : Nat
  writeBack : List Nat
  deriving DecidableEq, Repr

/-- A multi-word remote request being served: words still to perform, words read. -/
structure Gather where
  req : Nat
  rsite : Bool
  tag : Nat
  kind : RKind
  left : Nat
  got : List (Nat × PWord)
  deriving DecidableEq, Repr

/-- A scratchpad beyond its contents: whether words not listed read poisoned (R214), banks, requests being served, start
cycle of an initialisation. -/
structure Spd where
  base : Bool
  banks : List (Nat × Bank)
  gathers : List Gather
  initAt : Option Nat
  deriving DecidableEq, Repr

/-- A key-store entry (R157). -/
structure KeyEntry where
  words : List Nat
  bound : Bool
  mask : Nat
  deriving DecidableEq, Repr

/-- A tile: its threads, the context whose turn is next (R134), entry counter, tasks copied or being copied, windows, engines
(the tasks of the VXE, oldest first: only the last can still be issuing), remote requests of its threads, tags whose request
failed and whose late response is to be discarded (R201), scratchpad, the cycle at which its region last entered ON, and for
each tag with a fired task the cycle from which its occupancy is still to be counted. -/
structure Tile where
  threads : List (Nat × Thread)
  turn : Nat
  entryCtr : Nat
  copied : List Copy
  win : List Task
  mxa : Mxa
  vxe : List VxeRun
  dmx0 : Dmx
  dmx1 : Dmx
  rem : List RemOut
  late : List Nat
  spd : Spd
  onSince : Nat
  occ : List (Nat × Nat)
  deriving DecidableEq, Repr

/-- An unbound object. -/
def SyncObj.init : SyncObj := ⟨false, 0, 0, false, 0, 0, 0, 0, 0, 0, 0⟩

/-- A thread that never ran. -/
def Thread.init : Thread := ⟨.idle, 0, [], 0, .none, false, false⟩

/-- An empty array at level zero. -/
def Mxa.init : Mxa :=
  ⟨[], [], none, [], 0, [], [], [], none, [], false, false, 0, none, none, none, 0, 0, none, 1, 7, false, 0, 0⟩

/-- An idle DMA engine. -/
def Dmx.init : Dmx := ⟨[], []⟩

/-- An idle bank. -/
def Bank.init : Bank := ⟨[], [], none, 0, []⟩

/-- A scratchpad that has just been powered up without retention (R214). -/
def Spd.init : Spd := ⟨true, [], [], none⟩

/-- An unbound key entry. -/
def KeyEntry.init : KeyEntry := ⟨[], false, 0⟩

/-- A tile that has just been powered up without retention. -/
def Tile.init : Tile := ⟨[], 0, 0, [], [], Mxa.init, [], Dmx.init, Dmx.init, [], [], Spd.init, 0, []⟩

end Sys2Proof.Machine
end

