-- ==== Sys2Proof/Machine/NetTypes.lean ====
section
/-! DEFINITION. The state of the on-die network: scheduled transfers, order lists, routed packets, LTN maps, links
(chapter 09). -/

namespace Sys2Proof.Machine

/-- A scheduled-plane transfer: header fields of Table 09.2, words, whether its header is unusable (R240), attribution
tag. -/
structure Xfer where
  token : Nat
  keyIdx : Nat
  pstep : Nat
  rid : Nat
  words : List PWord
  badHdr : Bool
  atag : Nat
  deriving DecidableEq, Repr

/-- Progress of an output's order list: entry, transfers passed of it or flits of an OPEN entry, cycle of its last flit or since
which it waits (R250). -/
structure OrderPos where
  entry : Nat
  reps : Nat
  last : Nat
  deriving DecidableEq, Repr

/-- A routed packet or a memory data packet: type of Table 09.5 (0x20 for memory data), router it stands at, port it came
in on (4: injected there, 5: passed to the site; 8 + port: waits at that output as a memory data packet), destination site
and LTN, requester, tag, cause, RSITE, address word, payload words, the input port whose buffer holds a memory data packet
(4: none), cycle since which it waits at its router. -/
structure Packet where
  ty : Nat
  at_ : Nat
  inPort : Nat
  dsite : Nat
  dltn : Nat
  req : Nat
  tag : Nat
  cause : Nat
  rsite : Bool
  addr : Nat
  words : List PWord
  buf : Nat
  since : Nat
  deriving DecidableEq, Repr

/-- A router's LTN map: whether one is loaded, epoch, one site index per LTN, the staged copy with its epoch and verdict,
device time of a pending commit (R263 to R265). -/
structure RtrMap where
  loaded : Bool
  epoch : Nat
  sites : List Nat
  staged : Option (Nat × List Nat × Nat)
  commit : Option Nat
  deriving DecidableEq, Repr

/-- Link errors of the last second at a router's port: corrected wires with times, uncorrectable flits, spares used, wires
awaiting the steer (R267, R268), and the seam FIFO's net slip and occupancy (R418). -/
structure Link where
  corr : List (Nat × Nat)
  unc : List Nat
  retired : List Nat
  steer : List Nat
  sigma : Int
  running : Bool
  readyLow : Bool
  deriving DecidableEq, Repr

/-- An error in one group of a scheduled flit on a link (R240): a wire corrected, an uncorrectable data group (the transfer's
word that is its first), an uncorrectable control group. Each names its flit. -/
inductive LinkUpset
  | corrected (flit wire : Nat)
  | data (word : Nat)
  | control (flit : Nat)
  deriving DecidableEq, Repr

/-- The flit of a transfer that an error lies in. -/
def LinkUpset.flit : LinkUpset → Nat
  | .corrected f _ => f
  | .data w => w / 16
  | .control f => f

/-- What a routed packet shows after a link: intact, a failing CRC, a failing header check (R261). -/
inductive PktUpset
  | intact
  | crc
  | hchk
  deriving DecidableEq, Repr

def OrderPos.init : OrderPos := ⟨0, 0, 0⟩
def RtrMap.init : RtrMap := ⟨false, 0, [], none, none⟩
def Link.init : Link := ⟨[], [], [], [], 0, false, false⟩

end Sys2Proof.Machine
end

