-- ==== Sys2Proof/Machine/RoleTypes.lean ====
section
/-! DEFINITION. The state of a job: its configuration and placement, the sequences of a Prompt or Generation module, the
sequence slots of a Cache module, and the messages in flight between modules (chapters 11, 12 and 19). -/

namespace Sys2Proof.Machine

/-! ### The job (R313) -/

/-- One step of a lane reduction, on a stack: push a lane's values, or add the `n` topmost under a route's stream, k-block
and node number, in the router of an LTN's tile (R253, R341). -/
inductive RStep
  | lane (a : Nat)
  | add (n stream kblock node ltn : Nat)
  deriving DecidableEq, Repr

/-- STREAM values of a head group: score pass, V pass, softmax step (Table 11.7). -/
structure GroupCfg where
  score : Nat
  v : Nat
  smax : Nat
  deriving DecidableEq, Repr

/-- One layer: page format, lanes on Cache and on Generation modules, softmax scale in AF16, head groups of the page part
and of the tail, reduction trees on Cache and on Generation modules, STREAM of MERGE, LTNs of this module's tiles that form its lanes. -/
structure LayerCfg where
  fmt : Nat
  lanesC : Nat
  lanesG : Nat
  scale : Nat
  groups : List GroupCfg
  tailGroups : List GroupCfg
  treeC : List RStep
  treeG : List RStep
  merge : Nat
  lanes : List Nat
  deriving DecidableEq, Repr

/-- The LTN of a lane's tile. -/
def LayerCfg.laneLtn (lc : LayerCfg) (a : Nat) : Nat := (lc.lanes[a]?).getD 2048

/-- The job configuration: role code, solo, JOBHASH, KV heads, query heads, KV head of each query head, window, layers,
the first and number of layers this module holds, reply timeout if the configuration sets one, attention key, GOLDEN_HRS, sequence table, page pool and
table pool (base and size), kinds of the attribution tags, pair mode, pacing, margin in 0.1 %, compile-time estimates
(phase, region, OCC cycles, energy per cycle, peak current), the step the operator chose, first layer and layers of each
Generation module, whether the placement uses the interleaved view. -/
structure JobCfg where
  role : Nat
  solo : Bool
  hash : Nat
  hkv : Nat
  hq : Nat
  kvOf : List Nat
  window : Nat
  layers : List LayerCfg
  first : Nat
  count : Nat
  timeout : Option Nat
  attnKey : List Nat
  goldenHrs : Nat
  seqTab : Nat
  pagePool : Nat × Nat
  tabPool : Nat × Nat
  tagKinds : List (Nat × Nat)
  pair : Bool
  pacing : Bool
  margin : Nat
  phases : List (Nat × Nat × Nat × Nat × Nat)
  step : Nat
  gens : List (Nat × Nat)
  inter : Bool
  deriving DecidableEq, Repr

/-! ### Placement (Tables 12.1 and 12.4) -/

/-- A stage: its LTNs, replay depth, boundary entry points (LTN, context, address). -/
structure Stage where
  ltns : List Nat
  depth : Nat
  entries : List (Nat × Nat × Nat)
  deriving DecidableEq, Repr

/-- A restore list entry: scratchpad offset, length, addresses of copies A and B. -/
structure RestEnt where
  off : Nat
  len : Nat
  a : Nat
  b : Nat
  deriving DecidableEq, Repr

/-- A route set entry: site, selector (0 transmit, 1 receive, 2 route, 3 + output order list), entry, four words. -/
structure RouteEnt where
  site : Nat
  sel : Nat
  idx : Nat
  ws : List Nat
  deriving DecidableEq, Repr

/-- A tile image: LTN, scratchpad bytes it covers, whether a program of it uses context 7, initial contents (offset, words),
sync bindings (object, the word written to SOBJ_BIND), key indices (index, mask), restore list, whether its golden copies
fit, SHA-256 of each restore entry's bytes. -/
structure TileImg where
  ltn : Nat
  size : Nat
  ctx7 : Bool
  init : List (Nat × List Nat)
  sync : List (Nat × Nat)
  keys : List (Nat × Nat)
  rlist : List RestEnt
  fits : Bool
  hashes : List (List Nat)
  seqImg : List Nat
  deriving DecidableEq, Repr

/-- A complete layout: one site for each licensed LTN, the stages, the tile images, the router tables, and the outward
transfers (site, port) its routes make. -/
structure Layout where
  map : List Nat
  stages : List Stage
  tiles : List TileImg
  tables : List RouteEnt
  out : List (Nat × Nat)
  deriving DecidableEq, Repr

/-- A candidate: its site, route set, ring rewinds of the stage (LTN, scratchpad offset, words). -/
structure Cand where
  site : Nat
  routes : List RouteEnt
  replay : List (Nat × Nat × List Nat)
  deriving DecidableEq, Repr

/-- A substitution record. -/
structure SubstRec where
  ltn : Nat
  stage : Nat
  accord : Bool
  cands : List Cand
  deriving DecidableEq, Repr

/-- A placement image: inventory hash, layout, substitution records, SUBST_OK, facet-loss variants. -/
structure Placement where
  inv : List Nat
  base : Layout
  records : List SubstRec
  substOk : Nat
  variants : List (Nat × Layout)
  deriving DecidableEq, Repr

/-- A substitution in progress: LTN, failed site, candidate (none while it waits for urgent re-placement), its stage, the
candidate's unused LTN, whether the restore is complete, the switch made, whether it screens. -/
structure Subst where
  ltn : Nat
  x : Nat
  y : Option Cand
  stage : Nat
  unused : Option Nat
  restored : Bool
  switched : Bool
  screen : Bool
  deriving DecidableEq, Repr

/-- Where a stage stands: running, draining, replaying, halted until re-placement, its weights or placement lost. -/
inductive StageSt
  | running
  | draining
  | replaying
  | halted
  | lost
  deriving DecidableEq, Repr

/-- A loaded job: its configuration, placement, each stage's status, substitutions, records as they now stand, when the
golden copies were last checked, facet whose variant is in use, LTNs whose records await coverage repair, granules of golden
copy B that were rewritten onto another logical channel (R358; address / 256, new address). -/
structure Job where
  cfg : JobCfg
  place : Placement
  stages : List StageSt
  substs : List Subst
  records : List SubstRec
  goldenAt : Nat
  variant : Option Nat
  repair : List Nat
  moved : List (Nat × Nat)
  deriving DecidableEq, Repr

/-! ### Sequences of a Prompt or Generation module -/

/-- Stages of a request (R316, R552): waiting for its prompt, opening, entering, live, closing, released. -/
inductive ReqSt
  | prompt
  | opening
  | entering
  | live
  | closing
  | done
  deriving DecidableEq, Repr

/-- The rows a sequence contributes to a step: positions from `pos`; drafts with their forced marks; K and V of each row
for the module's layers, bit 16 of a value its poison; the row-metadata record of each row (R319); when it was issued; whether its sampled word or pages
are poisoned and held, whether it waits to be issued again, and when it ended held. -/
structure SeqStep where
  pos : Nat
  drafts : List (Nat × Bool)
  kv : List (List Nat)
  meta_ : List Nat
  at_ : Nat
  bad : Bool
  again : Bool
  fin : Nat
  deriving DecidableEq, Repr

/-- A request: the words of its SUBMIT, its stream connection, slot, stage, prompt tokens arrived, STATUS and CSLOT of each
shard's answer, time of its SUBMIT, whether its HANDOFF arrived, index T and value of the last token, sealed spans, the
rows of the tail, spans (with layer and head group) whose PAGE_ACK is missing, local copies (span, layer, head group,
address), the step in flight, tokens emitted (index, result word), how many were streamed, when the poison hold of the
last step ends, whether CANCEL is pending, end code, time of its release, prompt chunk progress, energy shares (dyn, stat,
shared, overhead in nJ), admission time as TAI, calibration epoch at admission, first metering interval, receipt flags,
rows served, TAI_ERR at admission, and on a Prompt module the result word and the Generation slots of a HANDOFF that waits for
the shards' PAGE_ACKs. -/
structure Req where
  sub : List Nat
  conn : Option Nat
  slot : Nat
  st : ReqSt
  prompt : List (Nat × Nat)
  answers : List (Option (Nat × Nat))
  submitted : Nat
  handoff : Bool
  t : Nat
  last : Nat
  ns : Nat
  tail : List (List Nat)
  missing : List (Nat × Nat × Nat)
  local_ : List (Nat × Nat × Nat × Nat)
  step : Option SeqStep
  tokens : List (Nat × Nat)
  sent : Nat
  holdTo : Nat
  cancel : Bool
  endCode : Option Nat
  released : Option Nat
  chunk : Nat
  energy : Nat × Nat × Nat × Nat
  start : Nat × Nat
  epoch : Nat
  firstIv : Nat
  rflags : Nat
  served : Nat
  taiErr : Nat
  hand : Option (Nat × List Nat)
  deriving DecidableEq, Repr

/-- A message that awaits its reply (R339): MTAG or PTAG, what it is (1 OPEN, 3 CLOSE, 5 PAGE to a shard, 6 PAGE to a Generation
module, 7 QUERY), receiver's MODID,
slot of its request, shard or span, layer, head group, payload, sendings, device time of the last. -/
structure Msg where
  tag : Nat
  kind : Nat
  dest : Nat
  slot : Nat
  a : Nat
  layer : Nat
  hg : Nat
  words : List Nat
  sends : Nat
  at_ : Nat
  deriving DecidableEq, Repr

/-- An attention step of one layer of a sequence: its slot, layer, position of row 0, rows, spans sealed at the step's
start, queries in MXFP8 (elements, scales) by row and head, shards still to answer, records kept by part (shard j, 16
local, 17 tail) with POISON marks, and the attention output once every part is there. -/
structure Attn where
  slot : Nat
  layer : Nat
  pos : Nat
  nq : Nat
  ns : Nat
  queries : List (List Nat × List Nat)
  want : List Nat
  parts : List (Nat × List (List Nat × Bool))
  out : Option (List (List Nat × Bool))
  deriving DecidableEq, Repr

/-- A QUERY as it arrives: sender, SEQ, TOKEN, SPAN_END, CSLOT, MTAG, LAYER, rows, HQ, and the query of each row and head
(128 elements, 4 scales, whether a word of it is poisoned). -/
structure Query where
  src : Nat
  seq : Nat
  token : Nat
  spanEnd : Nat
  cslot : Nat
  mtag : Nat
  layer : Nat
  nq : Nat
  hq : Nat
  qs : List (List Nat × List Nat × Bool)
  deriving DecidableEq, Repr

/-- A PARTIAL that a Cache module holds until its poison is classified (R517), as the QUERY to run again. -/
structure HeldQuery where
  query : Query
  since : Nat
  deriving DecidableEq, Repr

/-- A request bound on a Cache module (R552): SEQ, REQID, when, SUBMIT header words; and what its receipt needs: admission,
energy shares, rows served, flags, epoch, first interval, whether a record of it was poisoned or it failed. -/
structure Bind where
  seq : Nat
  reqid : Nat
  at_ : Nat
  opened : Bool
  energy : Nat × Nat × Nat × Nat
  start : Nat × Nat
  epoch : Nat
  firstIv : Nat
  rflags : Nat
  served : Nat
  failed : Bool
  taiErr : Nat
  deriving DecidableEq, Repr

/-! ### Service (chapter 19) -/

/-- An open content transfer: connection, type, total length, SHA-256, data received (offset, bytes). -/
structure Content where
  conn : Nat
  ty : Nat
  len : Nat
  hash : List Nat
  data : List (Nat × List Nat)
  deriving DecidableEq, Repr

/-- A site's broadcast state (R565, R566, R569): state code of BC_SITE, IMGID, image length, chunks held, SHA-256 computed,
pending commit time, and whether the COMMIT arrived after it. -/
structure BcSite where
  st : Nat
  img : Nat
  len : Nat
  have_ : List Nat
  sha : List Nat
  commit : Option Nat
  late : Bool
  deriving DecidableEq, Repr

def BcSite.init : BcSite := ⟨0, 0, 0, [], [], none, false⟩

/-- The broadcast engine: whether a broadcast is open, whether its COMMIT went out, whether a site was taken under step 4 of
R568, the image it reads, repairs by site. -/
structure Bcast where
  open_ : Bool
  committed : Bool
  taken : Bool
  image : List Nat
  repairs : List (Nat × Nat)
  deriving DecidableEq, Repr

def Bcast.init : Bcast := ⟨false, false, false, [], []⟩

/-- A reply owed to a control message (R549): connection, TAG, what it waits for (0 nothing, 1 the admission and 2 the
cancellation of the request of a slot, 3 a broadcast's commit), status and payload once known. Replies of one connection go
out in order. -/
structure Reply where
  conn : Nat
  tag : Nat
  why : Nat
  slot : Nat
  answer : Option (Nat × List Nat)
  deriving DecidableEq, Repr

/-! ### Receipts (chapter 17) -/

/-- A receipt not yet sealed (R491): slot, interval of the release, and what Table 17.3 needs of the request; MODE and
JOBHASH are those at the release. -/
structure Pending where
  slot : Nat
  interval : Nat
  reqid : Nat
  seq : Nat
  outcome : Nat
  reason : Option Nat
  tokens : Nat × Nat × Nat
  energy : Nat × Nat × Nat × Nat
  start : Nat × Nat
  end_ : Nat × Nat
  epoch : Nat
  firstIv : Nat
  rflags : Nat
  taiErr : Nat
  role : Nat
  mode : Nat
  hash : Nat
  deriving DecidableEq, Repr

/-- A flacon: FNUM, its COSE_Sign1 encoding (empty while unsigned), the encoded items of its payload but for those known
only when it is signed (keys 7, 16 and 18), receipts by RNUM. -/
structure Flacon where
  fnum : Nat
  cose : List Nat
  payload : List (Nat × List Nat)
  receipts : List (List Nat)
  deriving DecidableEq, Repr

/-! ### Operands of firmware's commands -/

/-- A sequence's part of a microbatch: slot, drafts with forced marks, K and V of each row, queries by layer (one vector of
128 AF16 codes per row and head). -/
structure SeqWork where
  slot : Nat
  drafts : List (Nat × Bool)
  kv : List (List Nat)
  qs : List (Nat × List (List Nat))
  deriving DecidableEq, Repr

/-- What a row is sampled from: its AF16 logits with their poison in bit 16, and the STREAM of the sampler's descriptor
(R154, R155); LTN of the tile that samples it. -/
structure Logits where
  ls : List Nat
  stream : Nat
  ltn : Nat
  deriving DecidableEq, Repr

/-- A phase that work will run: its phase identifier, and the longest of the lengths of the sequences it covers, in tokens
(R464). -/
structure PhaseUse where
  phase : Nat
  len : Nat
  deriving DecidableEq, Repr

/-- A HANDOFF's payload: SEQ, P, slot, result word of the first token, first layer, layers, KV heads, rows of the tail. -/
structure Handoff where
  seq : Nat
  p : Nat
  slot : Nat
  first : Nat
  layer : Nat
  nl : Nat
  hkv : Nat
  tail : List (List Nat)
  deriving DecidableEq, Repr

end Sys2Proof.Machine
end

