-- ==== Sys2Proof/Machine/SysTypes.lean ====
section
/-! DEFINITION. The state of the optical ports, step changes, power regions, the budget controller, metering and receipts,
the seal, service, bring-up and non-volatile storage, the pair and the sideband bus (chapters 13 to 22). -/

namespace Sys2Proof.Machine

/-! ### Optical ports (chapter 13) -/

/-- A DATA frame: virtual channel, first and last of its message, sequence number, 64 payload words, resends so far. -/
structure Frame where
  vc : Nat
  som : Bool
  eom : Bool
  seq : Nat
  words : List PWord
  resent : Nat
  deriving DecidableEq, Repr

/-- An egress channel's message in assembly: flits still to take, words taken. -/
structure EgrMsg where
  left : Nat
  words : List PWord
  deriving DecidableEq, Repr

/-- A message in reassembly: ingress channel (none: being discarded, or VC 0), words still to come, words held. -/
structure RxPart where
  chan : Option Nat
  left : Nat
  words : List PWord
  deriving DecidableEq, Repr

/-- A lane move in progress: port lane, engine lane of the spare, whether the partner confirmed it, and whether this end
started it. -/
structure LaneMove where
  lane : Nat
  el : Nat
  acked : Bool
  mine : Bool
  deriving DecidableEq, Repr

/-- A port beyond its registers: next sequence number, next one expected, frames unacknowledged (oldest first) and waiting
for a credit, frames sent and freed by the partner per VC, frames freed here per VC (all since UP), VC of the next credit
return, the counts last returned (R403), frames received but not delivered, message in reassembly per VC, ingress transfers not yet accepted (VC, site,
transfer, frames freed with it), mailbox transmit words and receive queue, egress
assemblies by channel, echo round trips of this ranging, uncorrectable codewords by lane with times, moves, start of the
training or retraining, last progress of ACK. -/
structure PortSt where
  txSeq : Nat
  rxNext : Nat
  unacked : List Frame
  waiting : List Frame
  sent : List Nat
  freed : List Nat
  rxFreed : List Nat
  nextCvc : Nat
  shown : List Nat
  rx : List Frame
  parts : List (Nat × RxPart)
  ing : List (Nat × Nat × Xfer × Nat)
  mbxTx : List Nat
  mbxRx : List (List Nat)
  egr : List (Nat × EgrMsg)
  echo : List Nat
  ucw : List (Nat × Nat)
  moves : List LaneMove
  since : Nat
  progress : Nat
  deriving DecidableEq, Repr

def PortSt.init : PortSt :=
  ⟨0, 0, [], [], [0, 0, 0, 0], [0, 0, 0, 0], [0, 0, 0, 0], 0, [0, 0, 0, 0], [], [], [], [], [], [], [], [], [], 0, 0⟩

/-! ### Clocks (chapter 14) -/

/-- A pending step change: target, switch time, whether the controller asked for it, reasons it was asked for, whether
targets were raised, facets already switched, the step before it. -/
structure StepPend where
  target : Nat
  t : Nat
  ctrl : Bool
  reasons : List Nat
  raised : Bool
  done : List Nat
  old : Nat
  deriving DecidableEq, Repr

/-- The IEEE 1588 queues: time and information word. -/
structure Ptp where
  tx : List (Nat × Nat)
  rx : List (Nat × Nat)
  deriving DecidableEq, Repr

/-! ### Power (chapters 15 and 16) -/

/-- A region beyond its registers: a waiting request (when written, place in order), the target of a running transition
and its start, whether the logic switches have opened (of a power-on: whether it began from RETAIN), local skip level causes (reason code, last time its condition
held), since when its level is at or above SKIP_DN on a thermal cause, last fall of the level, the skip level its tiles
move from and to and since when, when its rails settle. -/
structure RegionSt where
  pend : Option (Nat × Nat)
  trans : Option (Nat × Nat)
  opened : Bool
  causes : List (Nat × Nat)
  hotSince : Option Nat
  droopSince : Option Nat
  lastFall : Nat
  skipFrom : Nat
  skipTo : Nat
  skipSince : Nat
  settleAt : Nat
  deriving DecidableEq, Repr

def RegionSt.init : RegionSt := ⟨none, none, false, [], none, none, 0, 0, 0, 0, 0⟩

/-- The budget controller: since when P10 has been at or below the release threshold, last fall of G, since when G has been
at or above SKIP_DN, since when the floor condition has held, since when P10 has been at or below CAP_EFF, thermal sources
above THR (source, since when), last time each
reason was active, reasons of steps lowered and not raised again, time up to which the counters have counted, last thermal
down-step, the power model's entries (signature, step, region, E in fJ, peak current, N), steps of the floor sequence
taken, whether admission is deferred (R468), whether the input current limit binds and raised G (R472), whether pacing holds
the step lower. -/
structure Ctl where
  lowSince : Option Nat
  lastFall : Nat
  dnSince : Option Nat
  floorSince : Option Nat
  okSince : Option Nat
  hot : List (Nat × Nat)
  lastActive : List (Nat × Nat)
  lowered : List Nat
  counted : Nat
  lastDn : Nat
  model : List (Nat × Nat × Nat × Nat × Nat × Nat)
  floorStep : Nat
  deferAdm : Bool
  supRule : Bool
  paceHold : Bool
  deriving DecidableEq, Repr

def Ctl.init : Ctl := ⟨none, 0, none, none, none, [], [], [], 0, 0, [], 0, false, false, false⟩

/-! ### Metering and receipts (chapter 17) -/

/-- One metering interval: number, E_IN, E_REG, E_LINK, E_MEM, E_SVC, E_LOSS in nJ, per region the energy drawn while ON and
the time ON in microseconds, mean TEL_TEMP in 1/16 °C, step, whether degraded, the calibration words in force, the frozen
TEL records, whether ATTR_EN was 1, whether ATTR_LATE has been set for it. -/
structure Interval where
  n : Nat
  ein : Nat
  ereg : List Nat
  elink : Nat
  emem : Nat
  esvc : Nat
  eloss : Nat
  eon : List Nat
  ton : List Nat
  temp : List Int
  step : Nat
  degraded : Bool
  cal : List (Nat × Word)
  tel : List (Nat × Nat)
  attr : Bool
  late : Bool
  deriving DecidableEq, Repr

/-- One entry of an attribution table: tag, dyn, stat, shared in nJ, OCC. -/
structure TagShare where
  tag : Nat
  dyn : Nat
  stat : Nat
  shared : Nat
  occ : Nat
  deriving DecidableEq, Repr

/-- An attribution table not yet divided among requests: interval, E_IN, whether degraded, its tags. -/
structure AttrTable where
  n : Nat
  ein : Nat
  degraded : Bool
  tags : List TagShare
  deriving DecidableEq, Repr

/-- Metering: calibration words in use, staging image, a committed image that waits for its interval, uncertainty terms of
epochs still needed, intervals whose attribution is not complete, tables attributed but not divided, energies of divided
intervals of the flacon being formed (interval, E_IN, attributed, degraded), first interval not yet divided among requests,
total input energy in nJ, last good interval mean of each source, end of the last interval, its E_REG and domain energies, its static, memory, optical and service power in mW (R467). -/
structure Mtr where
  cal : List (Nat × Word)
  staging : Option (List (Nat × Word))
  commit : Option (List (Nat × Word))
  terms : List (Nat × List Nat)
  intervals : List Interval
  tables : List AttrTable
  flows : List (Nat × Nat × Nat × Bool)
  shared : Nat
  total : Nat
  lastMeans : List (Nat × Nat)
  at_ : Nat
  lastReg : List Nat
  lastDom : List Nat
  lastBase : Nat
  deriving DecidableEq, Repr

def Mtr.init : Mtr := ⟨[], none, none, [], [], [], [], 0, 0, [], 0, [], [], 0⟩

/-- The receipt engine: receipts waiting for their interval, receipts sealed and in no flacon yet (time, RNUM, encoding),
flacons held unsigned, the delivery store, the next period, since when a reservation has failed and its last try, whether
admissions are held (R504), when a rollover started, key identity (0 is the key of manufacture), a new key ready to take
over, whether admissions are held by the store (R558). -/
structure Rcp where
  waiting : List Pending
  sealed : List (Nat × Nat × List Nat)
  held : List Flacon
  store : List Flacon
  next : Nat
  failing : Option Nat
  tried : Nat
  admitHold : Bool
  rolling : Option Nat
  keyId : Nat
  newKey : Option Nat
  link : Option (List Nat)
  full : Bool
  deriving DecidableEq, Repr

def Rcp.init : Rcp := ⟨[], [], [], [], 0, none, 0, false, none, 0, none, none, false⟩

/-- The seal and the presence window: when the window closes, start of an injected opening, whether the loop was open
during the flacon period being formed. -/
structure Seal where
  window : Option Nat
  injOpen : Option Nat
  opened : Bool
  deriving DecidableEq, Repr

/-- The sums of one interval's samples of a metering source and how many of its 1,000 samples are good (R484). Sources: 10 ×
region + phase (0 to 7 VLOG, 8 and 9 VARR), 720 link, 721 memory, 722 service, 723 input. -/
structure Samples where
  src : Nat
  nj : Nat
  good : Nat
  deriving DecidableEq, Repr

/-- What the sensors show at an interval's end: samples (sources not listed drew nothing), energy drawn while ON and
microseconds ON of regions that were not ON throughout, TEL_TEMP and TEL_CPM by site, and by region VLOG's highest current of a
microsecond, that of the last one, and the average, in A. -/
structure Measured where
  samples : List Samples
  on : List (Nat × Nat × Nat)
  temps : List (Nat × Nat)
  cpm : List (Nat × Nat)
  peaks : List (Nat × Nat × Nat × Nat)
  deriving DecidableEq, Repr

/-- What a screening run shows: length in ms, peak reading, first failing pattern, cause of an abort, PG_ID of the first
engine page that reported, whether a fault trigger came, scratchpad words it leaves. -/
structure ScreenRes where
  ms : Nat
  peak : Nat
  failing : Option Nat
  abort : Option Nat
  page : Option Nat
  fault : Bool
  left : List (Nat × Nat)
  deriving DecidableEq, Repr

/-! ### Non-volatile storage and bring-up (chapter 20) -/

/-- An image slot of the flash: version, SHA-256, whether its signature verifies under FWKEY. -/
structure OsSlot where
  version : Nat
  hash : List Nat
  ok : Bool
  deriving DecidableEq, Repr

/-- A licence copy: MODID, LICID, VERSION, LTNS, ROLES, PAIR, J7, whether it verifies under R580 and is well formed. -/
structure Licence where
  modid : Nat
  licid : List Nat
  version : Nat
  ltns : Nat
  roles : Nat
  pair : Nat
  j7 : Nat
  ok : Bool
  deriving DecidableEq, Repr

/-- A fuse word: its 32 bits, whether void, whether a read of it is corrected, whether uncorrectable, whether programmed
since the array was read. -/
structure Fuse where
  v : Nat
  void : Bool
  corr : Bool
  unc : Bool
  fresh : Bool
  deriving DecidableEq, Repr

def Fuse.init : Fuse := ⟨0, false, false, false, false⟩

/-- What survives without power: fuses, image slots and selector, minimum version, licence copies and counter, boot
counter, calibration epoch, highest block of signature indices reserved, recorded state of the seal loop (true is CLOSED),
retirements recorded by firmware, regions recorded lost, pattern packs (PACKID, VERSION), whether the slot not selected holds
an image written since the last boot, subchannels recorded retired. -/
structure Nv where
  fuses : List (Nat × Fuse)
  slots : List OsSlot
  sel : Nat
  minVersion : Nat
  lics : List Licence
  licCtr : Nat
  boot : Nat
  epoch : Nat
  rsv : Nat
  loopClosed : Bool
  retired : List Nat
  lost : List Nat
  packs : List (Nat × Nat)
  newImage : Bool
  subs : List Nat
  deriving DecidableEq, Repr

def Nv.init : Nv := ⟨[], [], 0, 0, [], 0, 0, 0, 0, true, [], [], [], false, []⟩

/-- A memory package's training: package, whether its capacity is as expected, subchannels that pass at each rate, mode
register word, ranks. -/
structure MemTrain where
  pkg : Nat
  capOk : Bool
  pass14 : Nat
  pass12 : Nat
  dram : Nat
  ranks : Nat
  deriving DecidableEq, Repr

/-- What the steps of a bring-up show (Table 20.2): length of steps 3 to 11 in ms, whether ADV-OS comes up, fuse words read
corrected and uncorrectable, whether FUSE_EN is fitted, whether the reference is present, regions that do not reach ON, sites
whose row repairs do not read, seam taps (facet, k, word) and FIFOs that find none (facet, k), training of packages (those
not listed fail), known-answer failures (site, first failing engine), TRIM_EN and UDP collector of the boot
configuration, whether the seal loop reads open and whether its fuse verifies. -/
structure BootRes where
  ms : List Nat
  osReady : Bool
  corr : List Nat
  unc : List Nat
  jumper : Bool
  ref : Bool
  dead : List Nat
  rows : List Nat
  taps : List (Nat × Nat × Nat)
  noTap : List (Nat × Nat)
  mem : List MemTrain
  kar : List (Nat × Nat)
  trimEn : Bool
  udp : Bool
  sealOpen : Bool
  sealOk : Bool
  deriving DecidableEq, Repr

/-- Bring-up and service beyond registers: whether power is applied and EPO asserted, ADV-OS start, time of the last
watchdog kick, a fuse word being programmed (index, entry, start), fuse-enable jumper, known-answer results by site,
time of a thermal trip, cause of a stop of the converters (0 none, 3 thermal, 4 supply), a bring-up that waits for the
reference, a reset that waits for the fuse word (0 WARM, 1 WARM with FULL, 2 COMPUTE). -/
structure Boot where
  powered : Bool
  epo : Bool
  osStart : Option Nat
  kick : Nat
  prog : Option (Nat × Nat × Nat)
  kar : List (Nat × Nat)
  tripAt : Option Nat
  stopCause : Nat
  wait : Option BootRes
  after : Option (Nat × BootRes)
  deriving DecidableEq, Repr

def Boot.init : Boot := ⟨true, false, none, 0, none, [], none, 0, none, none⟩

/-! ### The pair (chapter 21) and the sideband bus (chapter 22) -/

/-- A DELTA held apart until its COMMIT: step, slot, layer, KIND, data. -/
structure Delta where
  step : Nat
  slot : Nat
  layer : Nat
  kind : Nat
  data : List Nat
  deriving DecidableEq, Repr

/-- A sequence's part of a STEP message: slot, position of row 0, rows, emitted result words. -/
structure PairSeq where
  slot : Nat
  pos : Nat
  rows : Nat
  toks : List Nat
  deriving DecidableEq, Repr

/-- The pair: last step number sent or held complete, highest acknowledged; of a primary, steps not committed (number,
interval in which it ended, tokens of each slot it emitted up to) and replies that wait for the mirror's ACK; of a mirror,
STEP and DELTA messages held, whether the stream is complete up to a COMMIT since enabling or the last gap, since when
PAIR_SENSE has read as it does, whether it has met the 1 ms condition; when the last HELLO was sent; of a primary, the step
number from which a COMMIT that the mirror's ACK covers makes it synchronised; of a mirror, whether the stream has a gap. -/
structure Pair where
  stepNo : Nat
  acked : Nat
  open_ : List (Nat × Nat × List (Nat × Nat))
  held : List (Nat × OutMsg)
  steps : List (Nat × List PairSeq)
  deltas : List Delta
  complete : Bool
  senseSince : Nat
  senseOk : Bool
  helloAt : Nat
  need : Nat
  gap : Bool
  deriving DecidableEq, Repr

def Pair.init : Pair := ⟨0, 0, [], [], [], [], false, 0, false, 0, 1, false⟩

/-- The I3C target: dynamic address, read offset. -/
structure I3c where
  addr : Option Nat
  off : Nat
  deriving DecidableEq, Repr

end Sys2Proof.Machine
end

