-- ==== Sys2Proof/Machine/AppTypes.lean ====
section
/-! DEFINITION. The state of bulk memory (chapter 10). -/

namespace Sys2Proof.Machine

/-- What a burst read shows: clean, one DQ lane corrected, correct after `n` retries, uncorrectable after three (R293 to
R295). -/
inductive BurstErr
  | clean
  | lane (l : Nat)
  | retried (n : Nat)
  | lost
  deriving DecidableEq, Repr

/-- A request at an MCC: requester, RSITE, tag, byte offset within the channel, words, write data if it is a write, its
source site, its place in arrival order, the bursts still to perform once admitted, the words read so far by offset, and
how many younger requests have passed it (R287 to R289). -/
structure MemReq where
  req : Nat
  rsite : Bool
  tag : Nat
  offset : Nat
  words : Nat
  data : Option (List PWord)
  src : Nat
  seq : Nat
  left : List Nat
  got : List (Nat × PWord)
  passed : Nat
  deriving DecidableEq, Repr

/-- A memory channel controller beyond its registers: waiting and admitted requests, arrivals so far, the source admitted
last, corrected events of the last second, time of the last automatic retrain, whether a retrain waits for a copy to end,
device time since which a copy runs, none while it is paused, the time it ran before, the time that service took of it,
start of FORWARD, cycle since which all tags are in use with a request waiting and whether HOT was set for it, next burst of
the patrol scrub and time of the last scrub read, the logical channel that a RETIRED subchannel held last. -/
structure Mcc where
  queue : List MemReq
  admitted : List MemReq
  arrivals : Nat
  lastSrc : Nat
  corr : List Nat
  lastAuto : Option Nat
  retrainWait : Bool
  copyAt : Option Nat
  copyGone : Nat
  copyLate : Nat
  forwardAt : Option Nat
  hotSince : Option Nat
  hotDone : Bool
  scrub : Nat
  scrubAt : Nat
  lastLch : Nat
  deriving DecidableEq, Repr

/-- What a service core's store command does: a store, an atomic of Table 07.4 by its funct7, or one of the accesses that R202
refuses (LR, SC, AMOAND, AMOOR, AMOXOR). -/
inductive CoreOp
  | store
  | amo (f : Fin 6)
  | refused
  deriving DecidableEq, Repr

/-- What an access of the service complex does. -/
inductive AccOp
  | load
  | store (v : Nat)
  | amo (f v : Nat)
  | refused
  deriving DecidableEq, Repr

/-- What follows an access: nothing; the high half of a 64-bit access, with the value it writes; nothing, the low half having
ended with a status and a value; the answer to a REG_RD or REG_WR packet; the rest of a READ, with words left, words read and
the word that finds no completion; the rest of a WRITE, with words left, words done and the word that finds none (R34, R561). -/
inductive AccThen
  | done
  | low (hi : Option Nat)
  | high (st v : Nat)
  | packet (tag : Nat)
  | readRun (conn tag left : Nat) (got : List Nat) (late : Option Nat)
  | writeRun (conn tag : Nat) (left : List Nat) (count : Nat) (late : Option Nat)
  deriving DecidableEq, Repr

/-- An access of the service complex: its requester, address, width in bytes, whether a register page does not complete it in
time (R35). -/
structure Access where
  req : Nat
  addr : Nat
  width : Nat
  op : AccOp
  late : Bool
  then_ : AccThen
  deriving DecidableEq, Repr

/-- A request of the service complex to a scratchpad: its access, the requester number and tag it carries (R200), kind, target
LTN and word, data, the corner it first left by and that cycle, times reissued, the site it was last sent to, none while it was
never sent. One that has failed is kept, not live, while its late response may come (R201). -/
structure SvcReq where
  acc : Access
  who : Nat
  tag : Nat
  kind : RKind
  ltn : Nat
  word : Nat
  data : Nat
  corner : Nat
  first : Nat
  reissues : Nat
  site : Option Nat
  live : Bool
  deriving DecidableEq, Repr

def Mcc.init : Mcc := ⟨[], [], 0, 0, [], none, false, none, 0, 0, none, none, false, 0, 0, 0x1FF⟩

end Sys2Proof.Machine
end

