-- ==== Sys2Proof/Syntax.lean ====
section
/-! DEFINITION. The commands of the block: one constructor per row of the opcode table, in the table's order. -/

namespace Sys2Proof

open Sys2Proof.Machine

/-- A command: a write or read of a register that has a row of its own, a message, an event on a pin or a clock, an
operation of an engine. Operands name the instance it acts on, the payload it carries, and what its surroundings decide
(a measured value, an upset, whether a drain accepts). -/
inductive Instr
  /-- REGISTER_ACCESS_WRITE. R46, R34, R202: requester, device address, width in bytes, whether it is a store or an atomic, value or operand. -/
  | registerAccessWrite (req : Nat) (addr : Nat) (width : Nat) (op : CoreOp) (value : BitVec 64)
  /-- LATCHED_READ. R38, R34: requester, address, width in bytes. -/
  | latchedRead (req : Nat) (addr : Nat) (width : Nat)
  /-- REG_ACCESS_TIMEOUT. R35: requester, address, whether it was a write, the value written. -/
  | regAccessTimeout (req : Nat) (addr : Nat) (write : Bool) (value : Word)
  /-- ENABLE. R620: PG_ID of a page of the block, value written to ENABLE. -/
  | enable (page : Nat) (on : Bool)
  /-- HALT_REQ. R620: PG_ID, value written to HALT_REQ. -/
  | haltReq (page : Nat) (on : Bool)
  /-- SAFE_POINT_HALT. R620: PG_ID of a page of the block that reaches its safe point. -/
  | safePointHalt (page : Nat)
  /-- RESET. R41: PG_ID of a page of the block. -/
  | reset (page : Nat)
  /-- COMMIT. R51: PG_ID of a page of the block. -/
  | commit (page : Nat)
  /-- COMMIT_APPLY. R51: PG_ID of a page of the block at its safe point. -/
  | commitApply (page : Nat)
  /-- COMMIT_STALL. R52: PG_ID of the page the COMMIT was written to. -/
  | commitStall (page : Nat)
  /-- PG_ERR_INJ. R44: PG_ID, bits written. -/
  | pgErrInj (page : Nat) (bits : Word)
  /-- ROW_READY. R117: site. -/
  | rowReady (site : Site)
  /-- ROW_ISSUE. R92: site, code and conflict of the first read, a mismatch event of R121 or R122 on this row. -/
  | rowIssue (site : Site) (env : Env) (mis : Option Mis)
  /-- WEIGHT_GROUP_LOAD. R108: site, code and conflict of the first read. -/
  | weightGroupLoad (site : Site) (env : Env)
  /-- FRONT_ENTER. R110: site. -/
  | frontEnter (site : Site)
  /-- OUTPUT_DRAIN. R113: site, whether the drain can accept the output, the column whose held output it is (none: the output that leaves next), conflict of the write. -/
  | outputDrain (site : Site) (accept : Bool) (held : Option (Fin 128)) (env : Env)
  /-- PASS_VERDICT. R123: site. -/
  | passVerdict (site : Site)
  /-- PASS_COMPLETE. R95: site. -/
  | passComplete (site : Site)
  /-- SHAPING_LEVEL_STEP. R116: site. -/
  | shapingLevelStep (site : Site)
  /-- RAMP_COMPLETE. R118: site. -/
  | rampComplete (site : Site)
  /-- MXA_RESET_EFFECT. R621: site. -/
  | mxaResetEffect (site : Site)
  /-- SEQ_CTX_START. R132: site, bits written. -/
  | seqCtxStart (site : Site) (mask : BitVec 8)
  /-- SEQ_CTX_STOP. R133: site, bits written. -/
  | seqCtxStop (site : Site) (mask : BitVec 8)
  /-- STOP_IDLE. R133: site, context. -/
  | stopIdle (site : Site) (ctx : Ctx)
  /-- SEQ_INSTRUCTION. R134: site, context, code and conflict of a data access or of a copied task's words, whether the first and the second word fetched show a parity error, whether a TASK it issues is a RAMP task. -/
  | seqInstruction (site : Site) (ctx : Ctx) (env : Env) (parity : Bool) (parity2 : Bool) (ramp : Bool)
  /-- SEQ_LOAD_STORE. R138: site, context, load or store, width code, registers, offset, code and conflict of the access. -/
  | seqLoadStore (site : Site) (ctx : Ctx) (store : Bool) (funct3 : BitVec 3) (rd : BitVec 5) (rs1 : BitVec 5) (rs2 : BitVec 5) (imm : BitVec 12) (env : Env)
  /-- TASK. R141: site, context, registers, whether the task is a RAMP task, code and conflict of the words it copies. -/
  | task (site : Site) (ctx : Ctx) (rd : BitVec 5) (rs1 : BitVec 5) (rs2 : BitVec 5) (ramp : Bool) (env : Env)
  /-- TASK_WINDOW_ENTRY. R142: site. -/
  | taskWindowEntry (site : Site)
  /-- TASK_FIRE. R144: site, engines that fire in this cycle. -/
  | taskFire (site : Site) (engines : BitVec 4)
  /-- SWAIT_PEEK. R143, R176: site, context, registers. -/
  | swaitPeek (site : Site) (ctx : Ctx) (rs1 : BitVec 5) (rs2 : BitVec 5)
  /-- SWAIT_CONSUME. R143, R176: site, context, registers. -/
  | swaitConsume (site : Site) (ctx : Ctx) (rs1 : BitVec 5) (rs2 : BitVec 5)
  /-- SWAIT_BARRIER. R143, R176: site, context, registers. -/
  | swaitBarrier (site : Site) (ctx : Ctx) (rs1 : BitVec 5) (rs2 : BitVec 5)
  /-- SSIG. R183: site, context, registers. -/
  | ssig (site : Site) (ctx : Ctx) (rs1 : BitVec 5) (rs2 : BitVec 5)
  /-- HALT. R131: site, context. -/
  | halt (site : Site) (ctx : Ctx)
  /-- RLW. R139: site, context, registers. -/
  | rlw (site : Site) (ctx : Ctx) (rd : BitVec 5) (rs1 : BitVec 5)
  /-- RSW. R139: site, context, registers. -/
  | rsw (site : Site) (ctx : Ctx) (rs1 : BitVec 5) (rs2 : BitVec 5)
  /-- RAMO_ADD. R204: site, context, registers. -/
  | ramoAdd (site : Site) (ctx : Ctx) (rd : BitVec 5) (rs1 : BitVec 5) (rs2 : BitVec 5)
  /-- RAMO_SWAP. R204: site, context, registers. -/
  | ramoSwap (site : Site) (ctx : Ctx) (rd : BitVec 5) (rs1 : BitVec 5) (rs2 : BitVec 5)
  /-- RAMO_MIN. R204: site, context, registers. -/
  | ramoMin (site : Site) (ctx : Ctx) (rd : BitVec 5) (rs1 : BitVec 5) (rs2 : BitVec 5)
  /-- RAMO_MAX. R204: site, context, registers. -/
  | ramoMax (site : Site) (ctx : Ctx) (rd : BitVec 5) (rs1 : BitVec 5) (rs2 : BitVec 5)
  /-- RAMO_MINU. R204: site, context, registers. -/
  | ramoMinu (site : Site) (ctx : Ctx) (rd : BitVec 5) (rs1 : BitVec 5) (rs2 : BitVec 5)
  /-- RAMO_MAXU. R204: site, context, registers. -/
  | ramoMaxu (site : Site) (ctx : Ctx) (rd : BitVec 5) (rs1 : BitVec 5) (rs2 : BitVec 5)
  /-- RCAS. R204: site, context, registers. -/
  | rcas (site : Site) (ctx : Ctx) (rd : BitVec 5) (rs1 : BitVec 5) (rs2 : BitVec 5) (rs3 : BitVec 5)
  /-- CVT. R150: site, code and conflict of the first read. -/
  | cvt (site : Site) (env : Env)
  /-- ADD. R150: site, code and conflict of the first read. -/
  | vxAdd (site : Site) (env : Env)
  /-- SUB. R150: site, code and conflict of the first read. -/
  | vxSub (site : Site) (env : Env)
  /-- MUL. R150: site, code and conflict of the first read. -/
  | vxMul (site : Site) (env : Env)
  /-- FMA. R150: site, code and conflict of the first read. -/
  | vxFma (site : Site) (env : Env)
  /-- MAX. R150: site, code and conflict of the first read. -/
  | vxMax (site : Site) (env : Env)
  /-- MIN. R150: site, code and conflict of the first read. -/
  | vxMin (site : Site) (env : Env)
  /-- SEL. R150: site, code and conflict of the first read. -/
  | vxSel (site : Site) (env : Env)
  /-- EXP. R150: site, code and conflict of the first read. -/
  | vxExp (site : Site) (env : Env)
  /-- EXP2. R150: site, code and conflict of the first read. -/
  | vxExp2 (site : Site) (env : Env)
  /-- LOG2. R150: site, code and conflict of the first read. -/
  | vxLog2 (site : Site) (env : Env)
  /-- RCP. R150: site, code and conflict of the first read. -/
  | vxRcp (site : Site) (env : Env)
  /-- RSQRT. R150: site, code and conflict of the first read. -/
  | vxRsqrt (site : Site) (env : Env)
  /-- SQRT. R150: site, code and conflict of the first read. -/
  | vxSqrt (site : Site) (env : Env)
  /-- TANH. R150: site, code and conflict of the first read. -/
  | vxTanh (site : Site) (env : Env)
  /-- SIGMOID. R150: site, code and conflict of the first read. -/
  | vxSigmoid (site : Site) (env : Env)
  /-- SILU. R150: site, code and conflict of the first read. -/
  | vxSilu (site : Site) (env : Env)
  /-- GELU. R150: site, code and conflict of the first read. -/
  | vxGelu (site : Site) (env : Env)
  /-- SIN. R150: site, code and conflict of the first read. -/
  | vxSin (site : Site) (env : Env)
  /-- COS. R150: site, code and conflict of the first read. -/
  | vxCos (site : Site) (env : Env)
  /-- ACC. R150: site, code and conflict of the first read. -/
  | vxAcc (site : Site) (env : Env)
  /-- SUMR. R150: site, code and conflict of the first read. -/
  | sumr (site : Site) (env : Env)
  /-- MAXR. R150: site, code and conflict of the first read. -/
  | maxr (site : Site) (env : Env)
  /-- SMAX_STEP. R150: site, code and conflict of the first read. -/
  | smaxStep (site : Site) (env : Env)
  /-- SMAX_FINAL. R150: site, code and conflict of the first read. -/
  | smaxFinal (site : Site) (env : Env)
  /-- MERGE. R150: site, code and conflict of the first read. -/
  | vxMerge (site : Site) (env : Env)
  /-- RMSNORM. R150: site, code and conflict of the first read. -/
  | rmsnorm (site : Site) (env : Env)
  /-- LAYERNORM. R150: site, code and conflict of the first read. -/
  | layernorm (site : Site) (env : Env)
  /-- SAMPLE. R150: site, code and conflict of the first read. -/
  | sample (site : Site) (env : Env)
  /-- VXE_TASK_COMPLETE. R149: site. -/
  | vxeTaskComplete (site : Site)
  /-- DMX_TRANSFER. R158: site, engine DMX_k. -/
  | dmxTransfer (site : Site) (k : Fin 2)
  /-- ATTENTION_PAGE. R235: site, engine DMX_k, code and conflict of the first list read. -/
  | attentionPage (site : Site) (k : Fin 2) (env : Env)
  /-- DMX_REQUEST_ISSUE. R161: site, engine, transfer's entry number, which of its waiting requests, code and conflict of a local read. -/
  | dmxRequestIssue (site : Site) (k : Fin 2) (entry : Nat) (index : Nat) (env : Env)
  /-- DMX_TRANSFER_COMPLETE. R158: site, engine, conflict of the status record's writes. -/
  | dmxTransferComplete (site : Site) (k : Fin 2) (env : Env)
  /-- DMX_TAG_TIMEOUT. R163: site, engine, tag. -/
  | dmxTagTimeout (site : Site) (k : Fin 2) (tag : Fin 64)
  /-- GEN_READ_TIMEOUT. R298: site, engine, transfer's entry number. -/
  | genReadTimeout (site : Site) (k : Fin 2) (entry : Nat)
  /-- TEL_BANK_SWAP. R164: every tile's banks swap. -/
  | telBankSwap
  /-- SOBJ_BIND. R171: site, object, word written to SOBJ_BIND. -/
  | sobjBind (site : Site) (obj : Fin 128) (value : Word)
  /-- SOBJ_VAL. R174: site, object, word written to SOBJ_VAL. -/
  | sobjVal (site : Site) (obj : Fin 128) (value : Word)
  /-- SOBJ_PART. R175: site, object, word written to SOBJ_PART. -/
  | sobjPart (site : Site) (obj : Fin 128) (value : Word)
  /-- SYN_LOOKUP. R167: site, word written. -/
  | synLookup (site : Site) (value : Word)
  /-- KS_BIND. R157: site, MASK written with BIND. -/
  | ksBind (site : Site) (mask : BitVec 8)
  /-- KS_UNBIND. R157: site. -/
  | ksUnbind (site : Site)
  /-- RD_REQ. R197: site it arrives at, requester, RSITE, tag, DLTN (0x7FF by site), first word, words. -/
  | rdReq (site : Site) (req : Nat) (rsite : Bool) (tag : Nat) (dltn : Nat) (word : Nat) (count : Nat)
  /-- WR_REQ. R197: site, requester, RSITE, tag, DLTN, first word, data. -/
  | wrReq (site : Site) (req : Nat) (rsite : Bool) (tag : Nat) (dltn : Nat) (word : Nat) (data : List PWord)
  /-- AMO_REQ. R207: site, requester, RSITE, tag, DLTN, word, funct7, operand. -/
  | amoReq (site : Site) (req : Nat) (rsite : Bool) (tag : Nat) (dltn : Nat) (word : Nat) (funct : Fin 6) (operand : Word)
  /-- CAS_REQ. R207: site, requester, RSITE, tag, DLTN, word, rs2, rs3. -/
  | casReq (site : Site) (req : Nat) (rsite : Bool) (tag : Nat) (dltn : Nat) (word : Nat) (expected : Word) (newValue : Word)
  /-- REMOTE_ACCESS_PERFORM. R197: site, bank, code of the word read. -/
  | remoteAccessPerform (site : Site) (bank : Fin 128) (ecc : Ecc)
  /-- ATOMIC_WRITE. R205: site, bank. -/
  | atomicWrite (site : Site) (bank : Fin 128)
  /-- RC_REL. R208: site, requester, RSITE, tag. -/
  | rcRel (site : Site) (req : Nat) (rsite : Bool) (tag : Nat)
  /-- RC_ENTRY_TIMEOUT. R208: site, bank. -/
  | rcEntryTimeout (site : Site) (bank : Fin 128)
  /-- BANK_STARVATION. R199: site, bank. -/
  | bankStarvation (site : Site) (bank : Fin 128)
  /-- RD_RSP. R198: requester's site, requester, RSITE, tag, data, conflict of the local writes. -/
  | rdRsp (site : Site) (req : Nat) (rsite : Bool) (tag : Nat) (data : List PWord) (env : Env)
  /-- WR_ACK. R198: requester's site, requester, RSITE, tag. -/
  | wrAck (site : Site) (req : Nat) (rsite : Bool) (tag : Nat)
  /-- AMO_RSP. R198: requester's site, requester, RSITE, tag, old value. -/
  | amoRsp (site : Site) (req : Nat) (rsite : Bool) (tag : Nat) (old : PWord)
  /-- LOSS. R201: requester's site, requester, RSITE, tag, cause, payload words of 64 bits. -/
  | loss (site : Site) (req : Nat) (rsite : Bool) (tag : Nat) (cause : Fin 8) (words : List (BitVec 64))
  /-- REMOTE_REQUEST_TIMEOUT. R201: requester's site, tag. -/
  | remoteRequestTimeout (site : Site) (tag : Nat)
  /-- SPD_ECC_WRITEBACK. R210: site, bank. -/
  | spdEccWriteback (site : Site) (bank : Fin 128)
  /-- SCRUB_READ. R213: site, bank, code of the word read. -/
  | scrubRead (site : Site) (bank : Fin 128) (ecc : Ecc)
  /-- INIT. R214: site. -/
  | init (site : Site)
  /-- SPD_INIT_COMPLETE. R214: site. -/
  | spdInitComplete (site : Site)
  /-- TRANSFER_HOP. R242: router, output (0 N, 1 E, 2 S, 3 W, 4 RX), link errors on the way to the receiving router. -/
  | transferHop (site : Site) (out : Fin 5) (upsets : List LinkUpset)
  /-- TX_SLOT_SEND. R244: site, slot, code of the first word read. -/
  | txSlotSend (site : Site) (slot : Fin 1024) (ecc : Ecc)
  /-- RX_DELIVERY. R246: site. -/
  | rxDelivery (site : Site)
  /-- ROUTER_STALL. R250: router, output. -/
  | routerStall (site : Site) (out : Fin 5)
  /-- ACCORD_ADD. R253: router, route entry. -/
  | accordAdd (site : Site) (route : Fin 512)
  /-- ROUTED_HOP. R259: router, which of its packets, what the link does to it. -/
  | routedHop (site : Site) (index : Nat) (upset : PktUpset)
  /-- REG_RD. R33, R35: requester, address, tag, whether the page does not complete it in time. -/
  | regRd (req : Nat) (addr : Nat) (tag : Nat) (late : Bool)
  /-- REG_WR. R33, R35: requester, address, value, tag, whether the page does not complete it in time. -/
  | regWr (req : Nat) (addr : Nat) (value : Word) (tag : Nat) (late : Bool)
  /-- REG_RSP. R35: requester, tag. -/
  | regRsp (req : Nat) (tag : Nat)
  /-- MCAST. R262: rectangle in the address word's layout, class byte, payload, routers and ports at which a copy fails its CRC. -/
  | mcast (rect : Word) (cls : BitVec 8) (words : List Word) (bad : List (Nat × Nat))
  /-- MAP_STAGE. R264: router, epoch, pairs (LTN, site), CRC-32C of the whole new map. -/
  | mapStage (site : Site) (epoch : Word) (pairs : List (Nat × Nat)) (crc : Word)
  /-- MAP_VERDICT. R264: router whose verdict reaches firmware. -/
  | mapVerdict (site : Site)
  /-- MAP_COMMIT. R265: router, epoch, device time T. -/
  | mapCommit (site : Site) (epoch : Word) (t : Nat)
  /-- MAP_SWITCH. R264: router. -/
  | mapSwitch (site : Site)
  /-- WIRE_STEER. R267: receiving router, port. -/
  | wireSteer (site : Site) (dir : Dir)
  /-- TBL_WRITE. R271: router. -/
  | tblWrite (site : Site)
  /-- TBL_READ. R271: router. -/
  | tblRead (site : Site)
  /-- MAP_LOOKUP. R263: router, word written. -/
  | mapLookup (site : Site) (value : Word)
  /-- MEM_REQ. R281: router it stands at, requester, RSITE, tag, byte offset, logical channel, words. -/
  | memReq (site : Site) (req : Nat) (rsite : Bool) (tag : Nat) (offset : Nat) (lch : Nat) (words : Nat)
  /-- MEMORY_DATA_PACKET. R282: router, which of its memory data packets, link errors on the way, conflict of the local writes. -/
  | memoryDataPacket (site : Site) (index : Nat) (upsets : List LinkUpset) (env : Env)
  /-- MCC_ADMIT. R289: subchannel. -/
  | mccAdmit (mc : Mc)
  /-- MCC_BURST. R287: subchannel, which admitted request, what the burst's code shows. -/
  | mccBurst (mc : Mc) (index : Nat) (err : BurstErr)
  /-- HOT_CHANNEL. R292: subchannel. -/
  | hotChannel (mc : Mc)
  /-- PATROL_SCRUB. R297: subchannel, what the burst's code shows. -/
  | patrolScrub (mc : Mc) (err : BurstErr)
  /-- CHANNEL_MAP_UPDATE. R278: router, fields of the update word. -/
  | channelMapUpdate (site : Site) (lch : BitVec 9) (old : BitVec 9) (new : BitVec 9)
  /-- TRAINING_COMPLETE. R300: package, whether its capacity is 64 GiB, subchannels that pass at 14.4 and at 12.8 Gbit/s, MPH_DRAM, ranks per channel less one. -/
  | trainingComplete (pkg : Pkg) (capOk : Bool) (pass14 : BitVec 8) (pass12 : BitVec 8) (dram : Word) (ranks : Fin 4)
  /-- RETRAIN. R303: package, bits written. -/
  | retrain (pkg : Pkg) (mask : BitVec 8)
  /-- RETRAIN_COMPLETE. R304: subchannel, whether it succeeded. -/
  | retrainComplete (mc : Mc) (ok : Bool)
  /-- RETIRE. R305: subchannel. -/
  | retire (mc : Mc)
  /-- RETIREMENT_START. R306: the oldest waiting retirement. -/
  | retirementStart
  /-- COPY_COMPLETE. R306, R358: failing subchannel, bursts that could not be read, addresses firmware takes for granules of golden copy B. -/
  | copyComplete (mc : Mc) (bad : List Nat) (place : List Nat)
  /-- FORWARD_EXPIRY. R306: failing subchannel. -/
  | forwardExpiry (mc : Mc)
  /-- OPEN. R317: sender's MODID, SEQ, JOBHASH, shard, NS, MTAG. -/
  | open (src : Nat) (seq : Nat) (hash : Nat) (j : Nat) (ns : Nat) (mtag : Nat)
  /-- OPEN_ACK. R316: MTAG, STATUS, CSLOT. -/
  | openAck (mtag : Nat) (status : Nat) (cslot : Nat)
  /-- CLOSE. R336: sender's MODID, SEQ, CSLOT, MTAG, shard, NS. -/
  | close (src : Nat) (seq : Nat) (cslot : Nat) (mtag : Nat) (j : Nat) (ns : Nat)
  /-- CLOSE_COMPLETE. R336: CSLOT. -/
  | closeComplete (cslot : Nat)
  /-- CLOSE_ACK. R316: MTAG. -/
  | closeAck (mtag : Nat)
  /-- PAGE. R335: sender's MODID and the fields of Table 11.6. -/
  | page (src : Nat) (seq : Nat) (span : Nat) (slot : Nat) (layer : Nat) (hg : Nat) (fmt : Nat) (nh : Nat) (ptag : Nat) (len : Nat) (data : List PWord)
  /-- PAGE_ACK. R324: PTAG, STATUS. -/
  | pageAck (ptag : Nat) (status : Nat)
  /-- QUERY. R340: the fields of Table 11.6. -/
  | query (q : Query)
  /-- PARTIAL. R343: MTAG, STATUS, records (n, m, s) with POISON by row and head. -/
  | partial_ (mtag : Nat) (status : Nat) (records : List (List Nat × Bool))
  /-- HANDOFF. R327: the fields of Table 11.6. -/
  | handoff (h : Handoff)
  /-- REPLY_TIMEOUT. R339: MTAG or PTAG of the message. -/
  | replyTimeout (tag : Nat)
  /-- WORK_ISSUE. R467: 0 microbatch, 1 chunk, 2 admission; the parts, phases and expected duration of the work. -/
  | workIssue (kind : Nat) (works : List SeqWork) (phases : List PhaseUse) (duration : Nat)
  /-- STEP_END. R323: by slot, the logits of its rows. -/
  | stepEnd (results : List (Nat × List Logits))
  /-- PREFILL_CHUNK. R326: slot, logits of the first token, the sequence's slot on each Generation module. -/
  | prefillChunk (slot : BitVec 8) (logits : Logits) (gslots : List (BitVec 12))
  /-- SUBSTITUTION_TRIGGER. R364: whether an operator names an LTN, the LTN or the site. -/
  | substitutionTrigger (byLtn : Bool) (n : BitVec 11)
  /-- SUBST_SWITCH. R365: stage; other stages that became ready within 100 µs of it (Table 12.6). -/
  | substSwitch (stage : BitVec 16) (others : List (BitVec 16))
  /-- SUBST_REPLAY_END. R365: stage. -/
  | substReplayEnd (stage : BitVec 16)
  /-- GOLDEN_CHECK. R359. -/
  | goldenCheck
  /-- VARIANT_SWITCH. R371: facet whose loss the variant covers. -/
  | variantSwitch (facet : Facet)
  /-- URGENT_REPLACEMENT. R372: LTN, the placement found. -/
  | urgentReplacement (ltn : BitVec 11) (cand : Option Cand)
  /-- SCREENING_SWAP. R375: LTN. -/
  | screeningSwap (ltn : BitVec 11)
  /-- PORT_TRAINING. R385: port. -/
  | portTraining (port : Port)
  /-- TRAINING_RETRY. R386: port. -/
  | trainingRetry (port : Port)
  /-- PORT_UP. R385: port, port lanes good at both ends, spare lanes that pass. -/
  | portUp (port : Port) (good : BitVec 8) (spareOk : BitVec 4)
  /-- DISCOVERY. R388: port, the record's words. -/
  | discovery (port : Port) (rec : List Nat)
  /-- ECHO. R387: port, whether the partner asks, measured round trip and the partner's turn-round time. -/
  | echo (port : Port) (request : Bool) (trip : Nat) (hold : Nat)
  /-- LANE_MOVE. R400: port, lane, engine lane of its spare. -/
  | laneMove (port : Port) (lane : Fin 8) (el : Fin 20)
  /-- LANE_ACK. R400: port, lane. -/
  | laneAck (port : Port) (lane : Fin 8)
  /-- LANE_ON. R400: port, lane, whether the record came from the partner, whether the spare lane passes. -/
  | laneOn (port : Port) (lane : Fin 8) (received : Bool) (pass : Bool)
  /-- DATA_FRAME. R391: port, frame, acknowledgement and credit fields, whether the CRC is good, lane of an uncorrectable codeword. -/
  | dataFrame (port : Port) (f : Frame) (ack : BitVec 20) (cvc : Fin 4) (ccount : BitVec 10) (crcOk : Bool) (ucw : Option (Fin 8))
  /-- IDLE_FRAME. R391: port, acknowledgement and credit fields, whether the CRC is good. -/
  | idleFrame (port : Port) (ack : BitVec 20) (cvc : Fin 4) (ccount : BitVec 10) (crcOk : Bool)
  /-- NAK. R393: port, acknowledgement and credit fields. -/
  | nak (port : Port) (ack : BitVec 20) (cvc : Fin 4) (ccount : BitVec 10)
  /-- REPLAY_TIMEOUT. R393: port. -/
  | replayTimeout (port : Port)
  /-- RETRAIN_TIMEOUT. R394: port. -/
  | retrainTimeout (port : Port)
  /-- RETIRE_LANE. R400: port, lane named. -/
  | retireLane (port : Port) (lane : Fin 8)
  /-- LASER_SWITCH. R401: engine, wavelength, whether a working spare laser takes over, bias and output of the laser then active. -/
  | laserSwitch (engine : Engine) (w : Fin 4) (ok : Bool) (reading : Word)
  /-- OPT_ADV. R388: port, register (0 INFO, 1 and 2 the words of JOB), value. -/
  | optAdv (port : Port) (which : Fin 3) (value : Word)
  /-- EGRESS_TRANSFER. R395: port, which of its attached sites. -/
  | egressTransfer (port : Port) (half : Fin 2)
  /-- MBX_TX_DATA. R405: port, value. -/
  | mbxTxData (port : Port) (value : Word)
  /-- SEND. R405: port. -/
  | send (port : Port)
  /-- FLUSH. R405: port. -/
  | flush (port : Port)
  /-- MBX_RX_READ. R405: port. -/
  | mbxRxRead (port : Port)
  /-- MBX_POP. R405: port. -/
  | mbxPop (port : Port)
  /-- GO. R409. -/
  | go
  /-- STEP_CANCEL. R412. -/
  | stepCancel
  /-- STEP_VOLTAGE_RAISE. R411. -/
  | stepVoltageRaise
  /-- STEP_SETTLE_CHECK. R411: regions whose regulator has not reported settled. -/
  | stepSettleCheck (late : List (Fin 72))
  /-- STEP_SWITCH. R410: facet. -/
  | stepSwitch (facet : Facet)
  /-- STEP_VOLTAGE_LOWER. R411. -/
  | stepVoltageLower
  /-- DROOP_EVENT. R414: site. -/
  | droopEvent (site : Site)
  /-- STRETCH_RATE_CHECK. R416: facet. -/
  | stretchRateCheck (facet : Facet)
  /-- TAP_MOVE. R422: facet, FIFO, direction. -/
  | tapMove (facet : Facet) (k : Fin 42) (up : Bool)
  /-- EPOCH_MARKER. R425: facet. -/
  | epochMarker (facet : Facet)
  /-- REFERENCE_LOSS. R427. -/
  | referenceLoss
  /-- REFERENCE_RETURN. R427. -/
  | referenceReturn
  /-- LOCK_LOSS. R428: facet. -/
  | lockLoss (facet : Facet)
  /-- RELOCK. R428: facet. -/
  | relock (facet : Facet)
  /-- PTP_TIMESTAMP. R429: direction, message type, sequence number and domain as PTP_TXQ_INFO holds them. -/
  | ptpTimestamp (tx : Bool) (info : BitVec 28)
  /-- PTP_TXQ_POP. R429. -/
  | ptpTxqPop
  /-- PTP_RXQ_POP. R429. -/
  | ptpRxqPop
  /-- PRG_REQ_ON. R440: region, facet bus power over the last microsecond in W. -/
  | prgReqOn (region : Region) (power : BitVec 11)
  /-- PRG_REQ_RETAIN. R442: region. -/
  | prgReqRetain (region : Region)
  /-- PRG_REQ_OFF. R442: region. -/
  | prgReqOff (region : Region)
  /-- PRG_REQ_INVALID. R444: region. -/
  | prgReqInvalid (region : Region)
  /-- PON_REEVALUATE. R440: region, facet bus power over the last microsecond in W. -/
  | ponReevaluate (region : Region) (power : BitVec 11)
  /-- PON_TIMEOUT. R440: region. -/
  | ponTimeout (region : Region)
  /-- PON_DONE. R441, R579: region; tiles whose row repairs do not read. -/
  | ponDone (region : Region) (rows : List Site)
  /-- GATE_SWITCH_OPEN. R442: region. -/
  | gateSwitchOpen (region : Region)
  /-- GATE_DONE. R442: region. -/
  | gateDone (region : Region)
  /-- TRIM_CHANGE. R455: region, value written to TRIM_EN. -/
  | trimChange (region : Region) (value : Bool)
  /-- PHASE_FAULT. R445: region, VLOG phase 0 to 7 or VARR phase 8 or 9, whether it is out by temperature. -/
  | phaseFault (region : Region) (phase : Fin 10) (temp : Bool)
  /-- OVER_LIMIT. R446: region, average VLOG current of the interval in A. -/
  | overLimit (region : Region) (avg : BitVec 9)
  /-- REGION_TRIP. R447: region, rail (0 region VLOG, 1 a phase, 2 VARR), phase, current in A. -/
  | regionTrip (region : Region) (cause : Fin 3) (phase : Fin 8) (current : BitVec 9)
  /-- IBC_FAILURE. R449: facet, converter. -/
  | ibcFailure (facet : Facet) (ibc : Fin 3)
  /-- DOMAIN_CONVERTER_FAILURE. R449, R473: link, memory or service domain, converter. -/
  | domainConverterFailure (domain : Fin 3) (conv : Fin 2)
  /-- SUPPLY_EXCURSION. R450: input voltage in mV. -/
  | supplyExcursion (mv : BitVec 16)
  /-- INPUT_CUTOFF. R450: input voltage in mV. -/
  | inputCutoff (mv : BitVec 16)
  /-- EPO. R451. -/
  | epo
  /-- CONTROL_UPDATE. R458: P10 in W, input voltage in mV and current in 0.1 A, facet bus powers measured. -/
  | controlUpdate (p10 : Nat) (vin : Nat) (iin : Nat) (bus : List (Facet × BitVec 11))
  /-- EMERG. R461: P10 in W. -/
  | emerg (p10 : Nat)
  /-- STEP_RAISE. R469: the phases and duration of the work to come. -/
  | stepRaise (phases : List PhaseUse) (duration : Nat)
  /-- FLOOR. R470: regions that qualify for RETAIN. -/
  | floor (regions : List (Fin 72))
  /-- CAP_UNREACHABLE_CLEAR. R470. -/
  | capUnreachableClear
  /-- LOCAL_SKIP_DECAY. R471: region. -/
  | localSkipDecay (region : Region)
  /-- THERMAL_THRESHOLD. R474: a tile's site, 2000 + optical engine, or 3000 + memory package; its reading (for a package, THR or more is REFHI). -/
  | thermalThreshold (source : Nat) (temp : BitVec 12)
  /-- THERMAL_DOWN_STEP. R474. -/
  | thermalDownStep
  /-- THERMAL_TRIP. R475: source as for THERMAL_THRESHOLD, reading. -/
  | thermalTrip (source : Nat) (temp : BitVec 12)
  /-- WAIT_SHARE. R476: wait share in 0.01 %. -/
  | waitShare (w : BitVec 14)
  /-- PACE_WINDOW. R477: wait share in 0.01 %, and the work to come. -/
  | paceWindow (w : BitVec 14) (phases : List PhaseUse) (duration : Nat)
  /-- METER_INTERVAL_END. R482: what the sensors show. -/
  | meterIntervalEnd (m : Measured)
  /-- ATTRIBUTION. R488, R465: regions with a dominant phase signature, the signature, and the region's peak current in A. -/
  | attribution (sigs : List (Fin 72 × Nat × Nat))
  /-- ATTRIBUTION_LATE. R488. -/
  | attributionLate
  /-- REQUEST_SHARE. R489: by tag, its split list of SEQ and weight. -/
  | requestShare (splits : List (Nat × List (Nat × Nat)))
  /-- RECEIPT_SEAL. R491. -/
  | receiptSeal
  /-- FLACON_BUILD. R496: whether a reservation that the signature needs can be written. -/
  | flaconBuild (ok : Bool)
  /-- RESERVATION_RETRY. R504: whether the reservation is written. -/
  | reservationRetry (ok : Bool)
  /-- SIGNING_STALL. R504. -/
  | signingStall
  /-- ROLLOVER. R503. -/
  | rollover
  /-- ROLLOVER_DONE. R503. -/
  | rolloverDone
  /-- SEAL_OPEN. R505: whether the fuse verifies within three attempts. -/
  | sealOpen (ok : Bool)
  /-- SEAL_CLOSE. R505. -/
  | sealClose
  /-- CAL_DATA. R507: value. -/
  | calData (value : Word)
  /-- CAL_COMMIT. R508. -/
  | calCommit
  /-- DISCARD. R507. -/
  | discard
  /-- PRESENCE_BUTTON. R563: length of the press in ms. -/
  | presenceButton (ms : Nat)
  /-- PRESENCE_EXPIRY. R563. -/
  | presenceExpiry
  /-- PRES_CLOSE. R563. -/
  | presClose
  /-- ERR_REPORT. R524: PG_ID of a page, bit of an error event there that no other command brings about. -/
  | errReport (page : Nat) (bit : Fin 32)
  /-- COLLECTOR_INTERVAL. R527: collector. -/
  | collectorInterval (k : Fin 13)
  /-- FLT_POP. R530. -/
  | fltPop
  /-- SW_SUBMIT. R531. -/
  | swSubmit
  /-- FLT_REPLACE_SET. R532: bits written. -/
  | fltReplaceSet (bits : BitVec 12)
  /-- POISON_CLASSIFY. R518: whether it is a held QUERY, its place among those held, or else the slot. -/
  | poisonClassify (query : Bool) (n : Nat)
  /-- WEIGHT_REFETCH. R520: place of the origin among those not yet pruned. -/
  | weightRefetch (n : Nat)
  /-- STEP_REISSUE. R519: as for POISON_CLASSIFY, and the values the rows compute again. -/
  | stepReissue (query : Bool) (n : Nat) (work : SeqWork)
  /-- IN_PLACE_RESTART. R513: LTN, scratchpad byte ranges to restore (none: the whole list), whether the sequencer image is repaired. -/
  | inPlaceRestart (ltn : BitVec 11) (ranges : List (Nat × Nat)) (image : Bool)
  /-- SCREENING_RUN. R535: site, PACKID, what the run shows. -/
  | screeningRun (site : Site) (pack : Nat) (res : ScreenRes)
  /-- ARM. R540: facet. -/
  | arm (facet : Facet)
  /-- STOP. R540: facet. -/
  | stop (facet : Facet)
  /-- CLEAR. R540: facet. -/
  | clear (facet : Facet)
  /-- CONNECTION_OPEN. R547: connection. -/
  | connectionOpen (conn : Nat)
  /-- SUBMIT. R551: connection, TAG, LEN, the payload's words. -/
  | submit (conn : Nat) (tag : Word) (len : Nat) (payload : List Word)
  /-- BIND. R550: connection, TAG, LEN, the payload's words. -/
  | bind (conn : Nat) (tag : Word) (len : Nat) (payload : List Word)
  /-- PROMPT. R552: connection, TAG, LEN, the payload's words. -/
  | prompt (conn : Nat) (tag : Word) (len : Nat) (payload : List Word)
  /-- PROMPT_TIMEOUT. R552: slot. -/
  | promptTimeout (slot : BitVec 12)
  /-- BIND_EXPIRY. R552: SEQ. -/
  | bindExpiry (seq : Nat)
  /-- TOKENS. R553: slot. -/
  | tokens (slot : BitVec 12)
  /-- RESUME. R554: connection, TAG, REQID, token index. -/
  | resume (conn : Nat) (tag : Word) (reqid : BitVec 128) (idx : BitVec 64)
  /-- TOKEN_RETENTION_EXPIRY. R554: slot. -/
  | tokenRetentionExpiry (slot : BitVec 12)
  /-- CANCEL. R555: connection, TAG, REQID. -/
  | cancel (conn : Nat) (tag : Word) (reqid : BitVec 128)
  /-- ACK. R557: connection, TAG, FNUM. -/
  | ack (conn : Nat) (tag : Word) (fnum : BitVec 64)
  /-- GET. R557: connection, TAG, first and last FNUM. -/
  | get (conn : Nat) (tag : Word) (first : BitVec 64) (last : BitVec 64)
  /-- SUBSCRIBE. R559: connection, TAG, period in ms, flags. -/
  | subscribe (conn : Nat) (tag : Word) (period : Word) (flags : Word)
  /-- REPORT. R559: connection. -/
  | report (conn : Nat)
  /-- REGISTER_READ. R561, R35: connection, TAG, address, number of words, the word whose page does not complete it in time. -/
  | registerRead (conn : Nat) (tag : Word) (addr : Nat) (count : Nat) (late : Option Nat)
  /-- REGISTER_WRITE. R561, R35: connection, TAG, address, words, the word whose page does not complete it in time. -/
  | registerWrite (conn : Nat) (tag : Word) (addr : Nat) (values : List Word) (late : Option Nat)
  /-- BEGIN. R562: connection, TAG, type, total length, SHA-256. -/
  | begin (conn : Nat) (tag : Word) (ty : BitVec 16) (len : Nat) (hash : List (BitVec 8))
  /-- DATA. R562: connection, TAG, type, offset, bytes. -/
  | data (conn : Nat) (tag : Word) (ty : BitVec 16) (off : Nat) (bytes : List (BitVec 8))
  /-- OSIMG. R574: connection, TAG, the image's version, whether its signature verifies, what a bring-up that follows shows. -/
  | osimg (conn : Nat) (tag : Word) (version : BitVec 31) (ok : Bool) (res : BootRes)
  /-- SEQIMG. R568: connection, TAG. -/
  | seqimg (conn : Nat) (tag : Word)
  /-- PACK. R538: connection, TAG, PACKID, VERSION, major MODEL_VER, whether its signature verifies. -/
  | pack (conn : Nat) (tag : Word) (packid : Nat) (version : Nat) (major : BitVec 8) (ok : Bool)
  /-- LICENCE. R582: connection, TAG, the licence that the content holds. -/
  | licence (conn : Nat) (tag : Word) (lic : Licence)
  /-- JOB_LOAD. R352: connection, TAG, the job configuration that the content holds and where its image stands there, the placement image, whether a program uses J7, a table part that fails its check. -/
  | jobLoad (conn : Nat) (tag : Word) (cfg : JobCfg) (at_ : Nat) (len : Nat) (place : Placement) (j7 : Bool) (part : Option Nat)
  /-- JOB_UNLOAD. R28: connection, TAG. -/
  | jobUnload (conn : Nat) (tag : Word)
  /-- INVENTORY. R351: connection, TAG. -/
  | inventory (conn : Nat) (tag : Word)
  /-- CERT. R501: connection, TAG. -/
  | cert (conn : Nat) (tag : Word)
  /-- KICK. R546. -/
  | kick
  /-- WATCHDOG_EXPIRY. R546: what the bring-up that follows shows. -/
  | watchdogExpiry (res : BootRes)
  /-- CORE_HALT. R564: cores to halt, cores to resume. -/
  | coreHalt (halt : BitVec 8) (resume : BitVec 8)
  /-- BC_START. R565: the image's bytes where BC_SRC names the service SRAM, chunks, routers and ports at which a copy fails its CRC. -/
  | bcStart (sram : List (BitVec 8)) (bad : List (Nat × Nat × Nat))
  /-- BROADCAST_CHUNK. R566: site, whether the chunk's CRC is good. -/
  | broadcastChunk (site : Site) (intact : Bool)
  /-- SCAN. R567. -/
  | scan
  /-- REPAIR. R567: chunks, routers and ports at which a copy fails its CRC. -/
  | repair (bad : List (Nat × Nat × Nat))
  /-- BC_COMMIT. R568. -/
  | bcCommit
  /-- IMAGE_COMMIT. R569: site. -/
  | imageCommit (site : Site)
  /-- ABORT. R570. -/
  | abort
  /-- MGMT_LINK_DOWN. R605. -/
  | mgmtLinkDown
  /-- COLD_START. R572: what the steps show. -/
  | coldStart (res : BootRes)
  /-- WARM. R589: what the steps show. -/
  | warm (res : BootRes)
  /-- FULL. R590: what the steps show. -/
  | full (res : BootRes)
  /-- COMPUTE. R591: what the steps show. -/
  | compute (res : BootRes)
  /-- OS_READY_TIMEOUT. R575: what the steps show. -/
  | osReadyTimeout (res : BootRes)
  /-- FUSE_GO. R592. -/
  | fuseGo
  /-- FUSE_PROGRAM_DONE. R592: whether the word verifies. -/
  | fuseProgramDone (ok : Bool)
  /-- HELLO. R602: EPOCH, ROLE, STEP. CSTEP changes nothing. -/
  | hello (epoch : Word) (role : BitVec 8) (step : BitVec 8)
  /-- HELLO_SEND. R596. -/
  | helloSend
  /-- ADMIT. R596: slot, SUBMIT payload and CSLOTs. -/
  | pairAdmit (slot : Nat) (payload : List Word)
  /-- PAIR_STEP. R598: step number, what it says of each sequence. -/
  | pairStep (number : Nat) (seqs : List PairSeq)
  /-- DELTA. R598: step number, slot, layer, KIND, data (a word's poison in bit 32, a value's in bit 16). -/
  | delta (step : Nat) (slot : Nat) (layer : Nat) (kind : BitVec 8) (data : List Nat)
  /-- PAIR_COMMIT. R598: step number. -/
  | pairCommit (number : Nat)
  /-- RELEASE. R596: slot, end code. -/
  | release (slot : Nat) (code : BitVec 8)
  /-- PAIR_ACK. R597: step number. -/
  | pairAck (number : Nat)
  /-- STEP_COMMITTED. R597. -/
  | stepCommitted
  /-- HANDOVER. R600. -/
  | handover
  /-- RESYNC. R599. -/
  | resync
  /-- TAKEOVER. R601. -/
  | takeover
  /-- I3C_PRIVATE_READ. R609: address, bytes that the controller reads. -/
  | i3cPrivateRead (da : BitVec 7) (n : Nat)
  /-- I3C_PRIVATE_WRITE. R609: address, bytes. -/
  | i3cPrivateWrite (da : BitVec 7) (bytes : List (BitVec 8))
  /-- ENTDAA. R609: the address given. -/
  | entdaa (da : BitVec 7)
  /-- SETDASA. R609: static address, the address given. -/
  | setdasa (sa : BitVec 7) (da : BitVec 7)
  /-- RSTDAA. R609. -/
  | rstdaa
  /-- GETPID. R609: address. -/
  | getpid (da : BitVec 7)
  /-- GETBCR. R609: address. -/
  | getbcr (da : BitVec 7)
  /-- GETDCR. R609: address. -/
  | getdcr (da : BitVec 7)
  /-- GETSTATUS. R609: address. -/
  | getstatus (da : BitVec 7)
  /-- CONNECTION_CLOSE. R562: connection. -/
  | connectionClose (conn : Nat)
  /-- UNDEFINED_CLASS_OR_TYPE. R549: connection, MAGIC, VERSION, CLASS, TYPE, LEN, TAG. -/
  | undefinedClassOrType (conn : Nat) (magic : BitVec 16) (version : BitVec 8) (cls : BitVec 8) (ty : BitVec 16) (len : Word) (tag : Word)
  /-- MGMT_LINK_UP. R605. -/
  | mgmtLinkUp
  /-- NEXT_TREE_READY. R502. -/
  | nextTreeReady
  /-- PAIR_SENSE_ASSERTED. R599. -/
  | pairSenseAsserted
  deriving DecidableEq, Repr

end Sys2Proof
end

