-- ==== Sys2Proof/Decode.lean ====
section
/-! DEFINITION. The commands that a word spells by the opcode table's bits. -/

namespace Sys2Proof

/-- The command that the low `nbits` bits of a word spell. Every row of the opcode table is a command that comes from outside
the module, a register access or an event, and none of them is given bits: no word spells one. -/
def decodeTableWord (_nbits _w : Nat) : Option Instr := none

end Sys2Proof
end

