-- ==== Sys2Proof/Machine/Bytes.lean ====
section
/-! DEFINITION. Bytes and the encodings that messages, receipts and content use: little-endian fields, SHA-256, the Merkle
tree of RFC 9162, CBOR in the deterministic encoding of RFC 8949. -/

namespace Sys2Proof.Machine

/-! ### Fields and words -/

/-- `n` bytes of `v`, least significant first. -/
def le (n v : Nat) : List Nat := (List.range n).map fun i => v / 2 ^ (8 * i) % 2 ^ 8

/-- `n` bytes of `v`, most significant first. -/
def be (n v : Nat) : List Nat := (le n v).reverse

/-- The number whose little-endian bytes are given. -/
def fromLe : List Nat → Nat
  | [] => 0
  | b :: t => b % 2 ^ 8 + 2 ^ 8 * fromLe t

/-- The number whose big-endian bytes are given. -/
def fromBe (l : List Nat) : Nat := fromLe l.reverse

/-- `k` 32-bit words of a number, least significant first. -/
def wordsN (k v : Nat) : List Nat := (List.range k).map fun i => v / 2 ^ (32 * i) % 2 ^ 32

/-- Words as bytes. -/
def bytesOf (ws : List Nat) : List Nat := ws.flatMap (le 4)

/-- Bytes as words, the last padded with zeros. -/
def wordsOf : List Nat → List Nat
  | a :: b :: c :: d :: t => fromLe [a, b, c, d] :: wordsOf t
  | [] => []
  | t => [fromLe t]

/-- The number that a list of words spells, first word lowest. -/
def numOf : List Nat → Nat
  | [] => 0
  | w :: t => w % 2 ^ 32 + 2 ^ 32 * numOf t

/-- The field of `size` bytes at byte `off` of a payload of words. -/
def pfield (ws : List Nat) (off size : Nat) : Nat :=
  numOf ((ws.drop (off / 4)).take ((off % 4 + size + 3) / 4)) / 2 ^ (8 * (off % 4)) % 2 ^ (8 * size)

/-- A payload of `n` bytes with the fields given as offset, size in bytes, value; bytes not named are zero. -/
def layout (n : Nat) (fs : List (Nat × Nat × Nat)) : List Nat :=
  wordsN ((n + 3) / 4) (fs.map fun f => f.2.2 % 2 ^ (8 * f.2.1) * 2 ^ (8 * f.1)).sum

/-! ### SHA-256 -/

def rotr32 (x k : Nat) : Nat := x / 2 ^ k + x % 2 ^ k * 2 ^ (32 - k)

def shaK : List Nat :=
  [0x428a2f98, 0x71374491, 0xb5c0fbcf, 0xe9b5dba5, 0x3956c25b, 0x59f111f1, 0x923f82a4, 0xab1c5ed5] ++
  [0xd807aa98, 0x12835b01, 0x243185be, 0x550c7dc3, 0x72be5d74, 0x80deb1fe, 0x9bdc06a7, 0xc19bf174] ++
  [0xe49b69c1, 0xefbe4786, 0x0fc19dc6, 0x240ca1cc, 0x2de92c6f, 0x4a7484aa, 0x5cb0a9dc, 0x76f988da] ++
  [0x983e5152, 0xa831c66d, 0xb00327c8, 0xbf597fc7, 0xc6e00bf3, 0xd5a79147, 0x06ca6351, 0x14292967] ++
  [0x27b70a85, 0x2e1b2138, 0x4d2c6dfc, 0x53380d13, 0x650a7354, 0x766a0abb, 0x81c2c92e, 0x92722c85] ++
  [0xa2bfe8a1, 0xa81a664b, 0xc24b8b70, 0xc76c51a3, 0xd192e819, 0xd6990624, 0xf40e3585, 0x106aa070] ++
  [0x19a4c116, 0x1e376c08, 0x2748774c, 0x34b0bcb5, 0x391c0cb3, 0x4ed8aa4a, 0x5b9cca4f, 0x682e6ff3] ++
  [0x748f82ee, 0x78a5636f, 0x84c87814, 0x8cc70208, 0x90befffa, 0xa4506ceb, 0xbef9a3f7, 0xc67178f2]

def shaInit : List Nat :=
  [0x6a09e667, 0xbb67ae85, 0x3c6ef372, 0xa54ff53a, 0x510e527f, 0x9b05688c, 0x1f83d9ab, 0x5be0cd19]

/-- The message schedule: `n` more words after those given. -/
def shaSched : Nat → List Nat → List Nat
  | 0, ws => ws
  | n + 1, ws =>
    let i := ws.length
    let a := nthD 0 ws (i - 15)
    let b := nthD 0 ws (i - 2)
    let s0 := rotr32 a 7 ^^^ rotr32 a 18 ^^^ (a / 2 ^ 3)
    let s1 := rotr32 b 17 ^^^ rotr32 b 19 ^^^ (b / 2 ^ 10)
    shaSched n (ws ++ [(nthD 0 ws (i - 16) + s0 + nthD 0 ws (i - 7) + s1) % 2 ^ 32])

/-- One round. -/
def shaRound (v : List Nat) (kw : Nat) : List Nat :=
  match v with
  | [a, b, c, d, e, f, g, h] =>
    let s1 := rotr32 e 6 ^^^ rotr32 e 11 ^^^ rotr32 e 25
    let ch := (e &&& f) ^^^ ((0xFFFF_FFFF - e) &&& g)
    let t1 := h + s1 + ch + kw
    let s0 := rotr32 a 2 ^^^ rotr32 a 13 ^^^ rotr32 a 22
    let mj := (a &&& b) ^^^ (a &&& c) ^^^ (b &&& c)
    [(t1 + s0 + mj) % 2 ^ 32, a, b, c, (d + t1) % 2 ^ 32, e, f, g]
  | _ => v

/-- The compression of one block of 64 bytes. -/
def shaBlock (h : List Nat) (b : List Nat) : List Nat :=
  let ws := shaSched 48 ((List.range 16).map fun i => fromBe ((b.drop (4 * i)).take 4))
  let v := ((List.range 64).map fun i => nthD 0 shaK i + nthD 0 ws i).foldl shaRound h
  (List.zipWith (· + ·) h v).map (· % 2 ^ 32)

/-- Blocks of a padded message. -/
def shaBlocks : Nat → List Nat → List Nat → List Nat
  | 0, h, _ => h
  | n + 1, h, m => shaBlocks n (shaBlock h (m.take 64)) (m.drop 64)

/-- SHA-256 of a byte string, as 32 bytes. -/
def sha256 (m : List Nat) : List Nat :=
  let z := (119 - m.length % 64) % 64
  let p := m ++ [0x80] ++ List.replicate z 0 ++ be 8 (8 * m.length)
  (shaBlocks (p.length / 64) shaInit p).flatMap (be 4)

/-! ### The Merkle tree of RFC 9162 (R497) -/

/-- The largest power of two below `n`. -/
def splitAt2 (n : Nat) : Nat := 2 ^ Nat.log2 (n - 1)

/-- The Merkle tree hash of leaf hashes: fuel, leaves. -/
def merkleRoot : Nat → List (List Nat) → List Nat
  | _, [] => sha256 []
  | _, [l] => l
  | 0, _ => []
  | n + 1, ls =>
    let k := splitAt2 ls.length
    sha256 (1 :: merkleRoot n (ls.take k) ++ merkleRoot n (ls.drop k))

/-- The audit path of leaf `i`: fuel, leaf, leaves. -/
def merklePath : Nat → Nat → List (List Nat) → List (List Nat)
  | 0, _, _ => []
  | n + 1, i, ls =>
    if ls.length ≤ 1 then []
    else
      let k := splitAt2 ls.length
      if i < k then merklePath n i (ls.take k) ++ [merkleRoot (n + 1) (ls.drop k)]
      else merklePath n (i - k) (ls.drop k) ++ [merkleRoot (n + 1) (ls.take k)]

/-- The leaf of an entry. -/
def merkleLeaf (entry : List Nat) : List Nat := sha256 (0 :: entry)

/-! ### CBOR (R492) -/

/-- Initial byte and argument of a major type, in the shortest form. -/
def cborHead (major n : Nat) : List Nat :=
  if n < 24 then [32 * major + n]
  else if n < 2 ^ 8 then [32 * major + 24, n]
  else if n < 2 ^ 16 then (32 * major + 25) :: be 2 n
  else if n < 2 ^ 32 then (32 * major + 26) :: be 4 n
  else (32 * major + 27) :: be 8 n

def cborUint (n : Nat) : List Nat := cborHead 0 n
def cborBytes (b : List Nat) : List Nat := cborHead 2 b.length ++ b
def cborText (b : List Nat) : List Nat := cborHead 3 b.length ++ b
def cborArr (items : List (List Nat)) : List Nat := cborHead 4 items.length ++ items.flatten
def cborTag (t : Nat) (item : List Nat) : List Nat := cborHead 6 t ++ item

/-- An integer of either sign. -/
def cborInt (x : Int) : List Nat := if 0 ≤ x then cborUint x.toNat else cborHead 1 (-1 - x).toNat

/-- A map with unsigned keys, given in ascending order. -/
def cborMap (ps : List (Nat × List Nat)) : List Nat :=
  cborHead 5 ps.length ++ ps.flatMap fun p => cborUint p.1 ++ p.2

end Sys2Proof.Machine
end

