-- ==== Sys2Proof/Config.lean ====
section
/-! DEFINITION. What an implementation fixes and what the manual leaves open: free values, with no body, so that no proof
can see what they are, and the signature scheme as uninterpreted functions. -/

namespace Sys2Proof.Config

/-- A fresh unspecified 32-bit value for each count (log entry 4). -/
opaque freeWord : Nat → BitVec 32

/-- A fresh unspecified number for each count (log entry 4). -/
opaque freeNat : Nat → Nat

/-- HSS-LMS signature over a message under the key of an identity and index; the scheme's arithmetic is not the manual's
(log entry 5). -/
opaque hssSign : Nat → Nat → List Nat → List Nat

/-- The public key of a signing-key identity (log entry 5). -/
opaque hssPublic : Nat → List Nat

/-- Whether a signature verifies over a message under a public-key hash (log entry 5). -/
opaque hssVerify : List Nat → List Nat → List Nat → Bool

/-- The certificate of a signing-key identity (log entry 5). -/
opaque certificate : Nat → List Nat

/-- Bus and device characteristics registers of the I3C target, whose values the manual does not give (log entry 4). -/
opaque i3cBcr : BitVec 8
opaque i3cDcr : BitVec 8

end Sys2Proof.Config
end

