-- ==== Sys2Proof/Machine/State.lean ====
section
/-! DEFINITION. The state of the block as plain data, the reasons it can stop, and the state right after the standby domain
comes up. -/

namespace Sys2Proof.Machine

open Sys2Proof

/-- Reasons a command stops the machine. No command of this model faults: every register access ends in a status and every
event in a next state. -/
inductive Fault
  /-- Raised by nobody; safe. -/
  | unreached
  deriving DecidableEq, Repr

/-- Reasons a command has no meaning. -/
inductive Refusal
  /-- Raised by the dispatch for a command without a meaning; safe, the machine stops. -/
  | notModelled (mnemonic : String)
  deriving DecidableEq, Repr

/-- The state. Registers that no structure below holds are words of `regs`; see INVENTORY.md for each piece. -/
structure State where
  pending : List Instr
  outbox : List OutMsg
  freeCtr : Nat
  time : Nat
  facets : List (Nat × FacetClk)
  regs : List (Nat × Word)
  staged : List (Nat × Staged)
  blks : List (Nat × BlkCtl)
  hdrs : List (Nat × PageHdr)
  latches : List (Nat × Nat)
  log : List LogRec
  logSeq : Nat
  colls : List (Nat × Collector)
  loupes : List (Nat × Loupe)
  origins : List Origin
  tiles : List (Nat × Tile)
  sync : List (Nat × SyncObj)
  keys : List (Nat × KeyEntry)
  spad : List Host.Cell
  spadPoison : List (Nat × Bool)
  imem : List Host.Cell
  telActive : List (Nat × Nat)
  telFrozen : List (Nat × Nat)
  telSwap : Nat
  rtrTbl : List (Nat × List Nat)
  slotCtr : List (Nat × Nat)
  inbuf : List (Nat × List Xfer)
  order : List (Nat × OrderPos)
  links : List (Nat × Link)
  maps : List (Nat × RtrMap)
  chanMaps : List (Nat × List Nat)
  packets : List Packet
  rr : List (Nat × Nat)
  verdicts : List (Nat × Nat × Nat)
  delivered : List (Nat × Nat × List Nat)
  subs : List Sub
  udp : Bool
  mccs : List (Nat × Mcc)
  dram : List Host.Cell
  dramClean : List (Nat × Bool)
  retireQ : List Nat
  job : Option Job
  reqs : List Req
  msgs : List Msg
  tagCtr : Nat
  attns : List Attn
  gens : List (Nat × Nat)
  pages : List Nat
  chunks : List Nat
  oldDirs : List (Nat × List Nat)
  heldQ : List HeldQuery
  closes : List (Nat × Nat × Nat)
  binds : List Bind
  ports : List (Nat × PortSt)
  stepPend : Option StepPend
  ptp : Ptp
  regions : List (Nat × RegionSt)
  reqOrder : Nat
  ctl : Ctl
  mtr : Mtr
  rcp : Rcp
  sealLoop : Seal
  conns : List Nat
  contents : List Content
  replies : List Reply
  streamed : Nat
  bc : List (Nat × BcSite)
  bcast : Bcast
  staging : List Host.Cell
  nv : Nv
  boot : Boot
  pair : Pair
  i3c : I3c
  accesses : List (Nat × Nat × Nat)
  rsps : List RegRsp
  svc : List SvcReq
  svcWait : List Access
  deriving DecidableEq, Repr

/-- The state when the standby domain comes up at a cold start (R423, Table 20.2 step 2): device time 0, STAGE 1, every
register at its reset value, every region OFF, nothing in any memory, fuses and non-volatile storage blank (log entry 1). -/
def State.reset : State where
  pending := []
  outbox := []
  freeCtr := 0
  time := 0
  facets := []
  regs := []
  staged := []
  blks := []
  hdrs := []
  latches := []
  log := []
  logSeq := 0
  colls := []
  loupes := []
  origins := []
  tiles := []
  sync := []
  keys := []
  spad := []
  spadPoison := []
  imem := []
  telActive := []
  telFrozen := []
  telSwap := 0
  rtrTbl := []
  slotCtr := []
  inbuf := []
  order := []
  links := []
  maps := []
  chanMaps := []
  packets := []
  rr := []
  verdicts := []
  delivered := []
  subs := []
  udp := false
  mccs := []
  dram := []
  dramClean := []
  retireQ := []
  job := none
  reqs := []
  msgs := []
  tagCtr := 0
  attns := []
  gens := []
  pages := []
  chunks := []
  oldDirs := []
  heldQ := []
  closes := []
  binds := []
  ports := []
  stepPend := none
  ptp := ⟨[], []⟩
  regions := []
  reqOrder := 0
  ctl := Ctl.init
  mtr := Mtr.init
  rcp := Rcp.init
  sealLoop := ⟨none, none, false⟩
  conns := []
  contents := []
  replies := []
  streamed := 0
  bc := []
  bcast := Bcast.init
  staging := []
  nv := Nv.init
  boot := Boot.init
  pair := Pair.init
  i3c := ⟨none, 0⟩
  accesses := []
  rsps := []
  svc := []
  svcWait := []

end Sys2Proof.Machine
end

