-- ==== Sys2Proof/Machine/Ops.lean ====
section
/-! DEFINITION. The named operations over the state: registers and their fields, block control, page headers, clocks and
device time, tiles, memory, messages that leave the module. -/

namespace Sys2Proof.Machine

open Sys2Proof

/-- The outcome of a command's meaning. -/
abbrev Out := Host.Outcome State Fault Refusal

/-! ### Registers -/

/-- The reset value of a register word: the table's, or the instance's where the table says per instance (Tables 09.9,
10.9, 13.9, 13.10, 14.5). Values of the module itself (fuses) are in state of their own. -/
def regReset (key : Nat) : Word :=
  let pg := key / 2 ^ 12
  let off := key % 2 ^ 12
  let ty := pgTy pg
  let inst := pgInst pg
  if ty == tyRTR && pgPage pg == 2 && 0x040 ≤ off && off < 0x080 && (off - 0x040) % 16 == 0 then
    BitVec.ofNat 32 (linkReset inst ((off - 0x040) / 16))
  else if ty == tyOEN && 0x060 ≤ off && off < 0x0B0 then BitVec.ofNat 32 (laneReset ((off - 0x060) / 4))
  else if ty == tyOPT && (off == 0x058 || off == 0x05C) then
    let l0 := if off == 0x058 then 0 else 4
    let h := inst % 2
    BitVec.ofNat 32 ((8 * h + l0) + (8 * h + l0 + 1) * 2 ^ 8 + (8 * h + l0 + 2) * 2 ^ 16 + (8 * h + l0 + 3) * 2 ^ 24)
  else if ty == tyCLK && 12 ≤ inst then 0
  else if ty == tyCLK && 0x104 ≤ off && off < 0x254 && (off - 0x104) % 8 == 0 then
    let k := (off - 0x104) / 8
    BitVec.ofNat 32 (b2n (if k < 12 then inst / 3 != 0 else if k < 24 then inst / 3 != 3
      else if k < 33 then inst % 3 != 0 else inst % 3 != 2))
  else match regAt pg off with
    | some d => BitVec.ofNat 32 d.reset
    | none => 0

/-- A register word. -/
def State.reg (s : State) (pg off : Nat) : Nat := (tblGet regReset s.regs (regKey pg off)).toNat

/-- Sets a register word (hardware's own change, not a write access). -/
def State.setReg (s : State) (pg off v : Nat) : State :=
  { s with regs := tblSet regReset s.regs (regKey pg off) (BitVec.ofNat 32 v) }

/-- A field of a register. -/
def State.fld (s : State) (pg off lo w : Nat) : Nat := bitsOf (s.reg pg off) lo w

/-- Sets a field of a register. -/
def State.setFld (s : State) (pg off lo w v : Nat) : State := s.setReg pg off (putBits (s.reg pg off) lo w v)

/-- Whether a bit of a register is set. -/
def State.flag (s : State) (pg off i : Nat) : Bool := s.fld pg off i 1 == 1

/-- A 64-bit register pair, low word first (R38). -/
def State.reg64 (s : State) (pg off : Nat) : Nat := s.reg pg off + s.reg pg (off + 4) * 2 ^ 32

/-- Sets a 64-bit register pair, modulo 2^64. -/
def State.setReg64 (s : State) (pg off v : Nat) : State :=
  (s.setReg pg off (v % 2 ^ 32)).setReg pg (off + 4) (v / 2 ^ 32 % 2 ^ 32)

/-- Adds to a 64-bit counter, which wraps at 2^64. -/
def State.bump (s : State) (pg off n : Nat) : State := s.setReg64 pg off (s.reg64 pg off + n)

/-- Adds to a saturating 32-bit counter. -/
def State.bumpSat (s : State) (pg off n : Nat) : State := s.setReg pg off (satAdd 0xFFFF_FFFF (s.reg pg off) n)

/-- Adds to a saturating field. -/
def State.bumpFld (s : State) (pg off lo w n : Nat) : State :=
  s.setFld pg off lo w (satAdd (2 ^ w - 1) (s.fld pg off lo w) n)

/-- Forgets every register word of a block's pages: the return to reset values of R41. -/
def State.clearRegs (s : State) (blk : Nat) : State :=
  { s with regs := tblDelRange s.regs (regKey (blkPage0 blk) 0) (regKey (blkPage0 (blk + 1)) 0) }

/-! ### Pages -/

def pgGLB (p : Nat) : Nat := pgId tyGLB 0 p
def pgSEQ (site p : Nat) : Nat := pgId tySEQ site p
def pgMXA (site p : Nat) : Nat := pgId tyMXA site p
def pgVXE (site p : Nat) : Nat := pgId tyVXE site p
def pgDMX (site k p : Nat) : Nat := pgId tyDMX (2 * site + k) p
def pgSYN (site p : Nat) : Nat := pgId tySYN site p
def pgSPD (site p : Nat) : Nat := pgId tySPD site p
def pgRTR (site p : Nat) : Nat := pgId tyRTR site p
def pgTEL (site p : Nat) : Nat := pgId tyTEL site p
def pgMCC (mc : Nat) : Nat := pgId tyMCC mc 0
def pgMPH (pkg : Nat) : Nat := pgId tyMPH pkg 0
def pgOPT (port : Nat) : Nat := pgId tyOPT port 0
def pgOEN (e : Nat) : Nat := pgId tyOEN e 0
def pgCLK (i : Nat) : Nat := pgId tyCLK i 0
def pgTIM : Nat := pgId tyTIM 0 0
def pgPRG (region : Nat) : Nat := pgId tyPRG region 0
def pgPWR : Nat := pgId tyPWR 0 0
def pgMTR : Nat := pgId tyMTR 0 0
def pgRCP : Nat := pgId tyRCP 0 0
def pgFLT (p : Nat) : Nat := pgId tyFLT 0 p
def pgSVC : Nat := pgId tySVC 0 0
def pgFUS (p : Nat) : Nat := pgId tyFUS 0 p
def pgSEAL : Nat := pgId tySEAL 0 0
def pgPAIR : Nat := pgId tyPAIR 0 0
def pgLOUPE (f : Nat) : Nat := pgId tyLOUPE f 0

/-- The tile blocks of a site, as block numbers (R57). -/
def tileBlks (site : Nat) : List Nat :=
  [blkId tySEQ site, blkId tyMXA site, blkId tyVXE site, blkId tyDMX (2 * site), blkId tyDMX (2 * site + 1),
   blkId tySYN site, blkId tySPD site, blkId tyRTR site, blkId tyTEL site]

/-- Block control at reset (Tables 02.5, 02.6, 02.9). -/
def blkReset (blk : Nat) : BlkCtl := ⟨enableReset (blkTy blk), false, false, false, none, false, false, 0⟩

/-- Block control. -/
def State.blk (s : State) (b : Nat) : BlkCtl := tblGet blkReset s.blks b

/-- Sets block control. -/
def State.setBlk (s : State) (b : Nat) (c : BlkCtl) : State := { s with blks := tblSet blkReset s.blks b c }

/-- A page header with nothing set. -/
def hdrReset (_ : Nat) : PageHdr := ⟨0, 0, 0, 0, 0, false, false⟩

/-- The header items of a page. -/
def State.hdr (s : State) (pg : Nat) : PageHdr := tblGet hdrReset s.hdrs pg

/-- Sets the header items of a page. -/
def State.setHdr (s : State) (pg : Nat) (h : PageHdr) : State := { s with hdrs := tblSet hdrReset s.hdrs pg h }

/-- Sets WLOCK of a page: a write was refused by its field kind (R46). -/
def State.wlock (s : State) (pg : Nat) : State := s.setHdr pg { s.hdr pg with wlock := true }

/-- Sets POISON_SEEN in the first page of a block (R619). -/
def State.poisonSeen (s : State) (pg : Nat) : State :=
  let p0 := blkPage0 (blkOf pg)
  s.setHdr p0 { s.hdr p0 with poisonSeen := true }

/-- Whether the block of a page runs. -/
def State.runs (s : State) (pg : Nat) : Bool := (s.blk (blkOf pg)).run

/-- Whether the block of a page is enabled. -/
def State.enabled (s : State) (pg : Nat) : Bool := (s.blk (blkOf pg)).enable

/-- Whether the block of a page is to stop at its next safe point, or has: HALT_REQ is set, or a disabling or a RESET waits
(Table 02.6, R41). -/
def State.halting (s : State) (pg : Nat) : Bool :=
  let c := s.blk (blkOf pg)
  c.haltReq || c.disabling || c.resetPend

/-- Takes a pending injection: the state with the bit cleared, if it was pending and no lower one is asked for first
(R44). -/
def State.takeInj (s : State) (pg bit : Nat) : Option State :=
  let h := s.hdr pg
  if bitOf h.inj bit then some (s.setHdr pg { h with inj := h.inj - 2 ^ bit }) else none

/-! ### Clocks and device time -/

/-- CLK_C in MHz at a step (Table 14.2). -/
def stepMHz (step : Nat) : Nat :=
  match step with
  | 0 => 3300
  | 1 => 3135
  | 2 => 2970
  | 3 => 2805
  | 4 => 2640
  | 5 => 2310
  | 6 => 1980
  | _ => 1650

/-- INC: device-time units per CLK_C period, with 32 fraction bits, rounded to nearest (R424). -/
def stepInc (step : Nat) : Nat := (16000 * 2 ^ 32 * 2 + stepMHz step) / (2 * stepMHz step)

/-- The current step of a facet generator: CLK_STATUS.STEP. -/
def State.facetStep (s : State) (f : Nat) : Nat := s.fld (pgCLK f) 0x044 2 3

/-- The current step: TIM_STEP_STATUS.CUR. -/
def State.step (s : State) : Nat := s.fld pgTIM 0x05C 0 3

/-- A facet clock after a cold start, not yet locked. -/
def facetReset (_ : Nat) : FacetClk := ⟨0, 0, 0, 0, 0, none, 0, [], false, 0, 0, 0, [], 0, false⟩

/-- A facet's clock. -/
def State.facet (s : State) (f : Nat) : FacetClk := tblGet facetReset s.facets f

/-- Sets a facet's clock. -/
def State.setFacet (s : State) (f : Nat) (c : FacetClk) : State := { s with facets := tblSet facetReset s.facets f c }

/-- CLK_C cycles of a site's facet. -/
def State.cyc (s : State) (site : Nat) : Nat := (s.facet (facetOf site)).cycles

/-- Device time of a facet: the integer part of its count (R424). -/
def State.facetTime (s : State) (f : Nat) : Nat := (s.facet f).acc / 2 ^ 32 % 2 ^ 64

/-- A facet clock after `n` units of device time at a step: whole CLK_C periods, each adding INC (R424), less or more what
the correction of R425 spreads. -/
def facetElapse (step n : Nat) (c : FacetClk) : FacetClk :=
  if c.running then
    let p := c.phase + n * stepMHz step
    let add := p / 16000 * stepInc step
    let fix := add * c.rate / 16384
    let less := min c.ahead fix
    let more := min c.behind fix
    { c with
      cycles := c.cycles + p / 16000
      phase := p % 16000
      acc := c.acc + (add - less) + more
      ahead := c.ahead - less
      behind := c.behind - more }
  else c

/-- `n` units of device time pass: the master count and every facet's clock advance (R423, R424). -/
def State.elapse (s : State) (n : Nat) : State :=
  (List.range 12).foldl (fun t f => t.setFacet f (facetElapse (t.facetStep f) n (t.facet f)))
    { s with time := s.time + n }

/-- Time passes until device time `t`, unless it is already later. -/
def State.waitTime (s : State) (t : Nat) : State := if s.time < t then s.elapse (t - s.time) else s

/-- Time passes until cycle `c` of a site's facet, unless it is already later or the clock stands. -/
def State.waitCyc (s : State) (site c : Nat) : State :=
  let k := s.facet (facetOf site)
  if k.running ∧ k.cycles < c then
    s.elapse (((c - k.cycles) * 16000 - k.phase + stepMHz (s.facetStep (facetOf site)) - 1) /
      stepMHz (s.facetStep (facetOf site)))
  else s

/-! ### Slot skipping (R462, R463) -/

def regionReset (_ : Nat) : RegionSt := RegionSt.init

/-- A power region beyond its registers. -/
def State.rgn (s : State) (r : Nat) : RegionSt := tblGet regionReset s.regions r
def State.setRgn (s : State) (r : Nat) (x : RegionSt) : State := { s with regions := tblSet regionReset s.regions r x }

/-- One microsecond, one millisecond and one second of device time (R423). -/
def usec : Nat := 16000
def msec : Nat := 16000000
def second : Nat := 16000000000

/-- The skip level of a region's tiles at a device time: it moves by 1 in a microsecond (R463). -/
def RegionSt.level (x : RegionSt) (now : Nat) : Nat :=
  let d := (now - x.skipSince) / usec
  if x.skipFrom ≤ x.skipTo then min x.skipTo (x.skipFrom + d) else max x.skipTo (x.skipFrom - d)

/-- Whether a cycle is skipped at a level: its position in its group of 16, with its 4 bits reversed, is below the level. -/
def skipped (level cyc : Nat) : Bool :=
  decide (8 * (cyc % 2) + 4 * (cyc / 2 % 2) + 2 * (cyc / 4 % 2) + cyc / 8 % 2 < level)

/-- The cycles from `a` up to, not with, `b` that are not skipped at a level. -/
def liveCycles (level a b : Nat) : Nat :=
  if level = 0 then b - a
  else
    let n := b - a
    n / 16 * (16 - level) + ((List.range (n % 16)).filter fun i => !skipped level (a + n / 16 * 16 + i)).length

/-- The `n`-th cycle after `c` that is not skipped, `n` below 16. -/
def stepCycles (level : Nat) : Nat → Nat → Nat → Nat
  | 0, c, _ => c
  | _, c, 0 => c
  | f + 1, c, n + 1 => if skipped level (c + 1) then stepCycles level f (c + 1) (n + 1) else stepCycles level f (c + 1) n

/-- The skip level of a tile now (R462). -/
def State.skipNow (s : State) (site : Nat) : Nat := (s.rgn (regionOf site)).level s.time

/-- The cycle that comes `n` cycles after `c`, skipped cycles not counted: they delay every later event of the tile (R463). -/
def State.after (s : State) (site c n : Nat) : Nat :=
  let k := s.skipNow site
  if k = 0 then c + n else stepCycles k 32 (c + n / (16 - k) * 16) (n % (16 - k))

/-- Waits for a cycle of a site that is not skipped. -/
def State.unskip (s : State) (site : Nat) : State :=
  let k := (s.rgn (regionOf site)).level s.time
  let c := s.cyc site
  match (List.range 16).find? fun d => !skipped k (c + d) with
  | some d => s.waitCyc site (c + d)
  | none => s

/-- Events of the last second, this one counted: the threshold rule of R512. -/
def inLastSecond (now : Nat) (l : List Nat) : List Nat := l.filter fun t => now < t + second

/-! ### Free values and messages -/

/-- A fresh unspecified 32-bit value. -/
def State.fresh (s : State) : Nat × State :=
  ((Config.freeWord s.freeCtr).toNat, { s with freeCtr := s.freeCtr + 1 })

/-- A fresh unspecified number. -/
def State.freshNat (s : State) : Nat × State := (Config.freeNat s.freeCtr, { s with freeCtr := s.freeCtr + 1 })

/-- Sends a message out of the module. -/
def State.send (s : State) (ch : Chan) (kind : String) (words : List Nat) : State :=
  { s with outbox := s.outbox ++ [⟨ch, kind, words⟩] }

/-! ### Regions, licence, sites -/

/-- State of a power region (Table 15.4): 0 OFF, 1 RETAIN, 2 ON, 3 WAKING, 4 GATING, 5 LOST. -/
def State.region (s : State) (r : Nat) : Nat := s.fld (pgPRG r) 0x04C 0 3

/-- Whether a site's logic is powered: its region is ON. -/
def State.siteOn (s : State) (site : Nat) : Bool := s.region (regionOf site) == 2

/-- Whether no loss of lock has stopped the CLK_C of a site's facet (R428): nothing there runs on a clock that stands, and
the seam FIFOs towards it hold READY low. -/
def State.clocked (s : State) (site : Nat) : Bool := !(s.facet (facetOf site)).lost

/-- Whether a site's router forwards (R438): its region is not OFF or LOST, and its clock runs. -/
def State.forwards (s : State) (site : Nat) : Bool :=
  let r := s.region (regionOf site)
  r != 0 && r != 5 && s.clocked site

/-- Licensed LTNs (GLB_LIC.LTNS, Table 20.9). -/
def State.ltns (s : State) : Nat := licensedLtns (s.fld (pgGLB 1) 0x048 1 2)

/-- Whether the licence permits J7 (GLB_LIC.J7). -/
def State.j7 (s : State) : Bool := s.flag (pgGLB 1) 0x048 7

/-! ### Tiles -/

def tileReset (_ : Nat) : Tile := Tile.init

/-- A tile. -/
def State.tile (s : State) (site : Nat) : Tile := tblGet tileReset s.tiles site

/-- Sets a tile. -/
def State.setTile (s : State) (site : Nat) (t : Tile) : State := { s with tiles := tblSet tileReset s.tiles site t }

def threadReset (_ : Nat) : Thread := Thread.init

/-- A thread of a tile. -/
def State.thread (s : State) (site ctx : Nat) : Thread := tblGet threadReset (s.tile site).threads ctx

/-- Sets a thread. -/
def State.setThread (s : State) (site ctx : Nat) (t : Thread) : State :=
  s.setTile site { s.tile site with threads := tblSet threadReset (s.tile site).threads ctx t }

/-- The matrix array of a tile. -/
def State.mxa (s : State) (site : Nat) : Mxa := (s.tile site).mxa

/-- Sets the matrix array of a tile. -/
def State.setMxa (s : State) (site : Nat) (m : Mxa) : State := s.setTile site { s.tile site with mxa := m }

/-- DMX_k of a tile. -/
def State.dmx (s : State) (site k : Nat) : Dmx := if k = 0 then (s.tile site).dmx0 else (s.tile site).dmx1

/-- Sets DMX_k of a tile. -/
def State.setDmx (s : State) (site k : Nat) (d : Dmx) : State :=
  if k = 0 then s.setTile site { s.tile site with dmx0 := d } else s.setTile site { s.tile site with dmx1 := d }

/-- The scratchpad of a tile beyond its contents. -/
def State.spd (s : State) (site : Nat) : Spd := (s.tile site).spd

/-- Sets the scratchpad of a tile beyond its contents. -/
def State.setSpd (s : State) (site : Nat) (d : Spd) : State := s.setTile site { s.tile site with spd := d }

def bankReset (_ : Nat) : Bank := Bank.init

/-- A bank of a scratchpad. -/
def State.bank (s : State) (site b : Nat) : Bank := tblGet bankReset (s.spd site).banks b

/-- Sets a bank of a scratchpad. -/
def State.setBank (s : State) (site b : Nat) (k : Bank) : State :=
  s.setSpd site { s.spd site with banks := tblSet bankReset (s.spd site).banks b k }

/-- x0 reads as zero; the other registers of a thread (RISC-V). -/
def Thread.get (t : Thread) (r : Nat) : Nat :=
  if r = 0 then 0 else (tblGet (fun _ => (0 : Word)) t.regs r).toNat

/-- Writes a register; a write to x0 is discarded. -/
def Thread.set (t : Thread) (r v : Nat) : Thread :=
  if r = 0 then t else { t with regs := tblSet (fun _ => (0 : Word)) t.regs r (BitVec.ofNat 32 v) }

/-! ### Memory -/

/-- What a byte that nothing has written reads as: 0 (log entry 6). -/
def memDefault (_ : Nat) : Byte := 0

/-- A byte of a memory. -/
def memByte (m : List Host.Cell) (a : Nat) : Nat := (tblGet memDefault m a).toNat

/-- Writes a byte. -/
def memSetByte (m : List Host.Cell) (a v : Nat) : List Host.Cell := tblSet memDefault m a (BitVec.ofNat 8 v)

/-- The canonical form of a memory. -/
def Memory.wf (m : List Host.Cell) : Bool := tblWf memDefault m

/-- A little-endian 32-bit word (R5). -/
def memWord (m : List Host.Cell) (a : Nat) : Nat :=
  memByte m a + memByte m (a + 1) * 2 ^ 8 + memByte m (a + 2) * 2 ^ 16 + memByte m (a + 3) * 2 ^ 24

/-- Writes a little-endian 32-bit word. -/
def memSetWord (m : List Host.Cell) (a v : Nat) : List Host.Cell :=
  memSetByte (memSetByte (memSetByte (memSetByte m a (bitsOf v 0 8)) (a + 1) (bitsOf v 8 8))
    (a + 2) (bitsOf v 16 8)) (a + 3) (bitsOf v 24 8)

/-- Writes bytes from an address up. -/
def memSetBytes (m : List Host.Cell) (a : Nat) : List Nat → List Host.Cell
  | [] => m
  | v :: t => memSetBytes (memSetByte m a v) (a + 1) t

/-- Forgets every byte from `lo` up to, not with, `hi`. -/
def memClear (m : List Host.Cell) (lo hi : Nat) : List Host.Cell := tblDelRange m lo hi

/-- Words of a scratchpad (R190). -/
def spadWords : Nat := 1572864

/-- Bytes of a scratchpad. -/
def spadBytes : Nat := 0x60_0000

/-- The key of a scratchpad byte: site and offset. -/
def spadKey (site off : Nat) : Nat := site * 2 ^ 23 + off

/-- The poison bit of a scratchpad word: listed, or the tile's base (R212, R214). -/
def State.spadPois (s : State) (site w : Nat) : Bool :=
  tblGet (fun _ => (s.spd site).base) s.spadPoison (site * 2 ^ 21 + w)

/-- A stored scratchpad word. -/
def State.spadWord (s : State) (site w : Nat) : PWord := ⟨memWord s.spad (spadKey site (4 * w)), s.spadPois site w⟩

/-- Stores a scratchpad word with its poison bit (R212). -/
def State.spadStore (s : State) (site w : Nat) (x : PWord) : State :=
  { s with
    spad := memSetWord s.spad (spadKey site (4 * w)) x.v
    spadPoison := tblSet (fun _ => (s.spd site).base) s.spadPoison (site * 2 ^ 21 + w) x.p }

/-- Makes every word of a scratchpad read as zero with poison bit `p` (R214). -/
def State.spadFill (s : State) (site : Nat) (p : Bool) : State :=
  let t := { s with
    spad := memClear s.spad (spadKey site 0) (spadKey (site + 1) 0)
    spadPoison := tblDelRange s.spadPoison (site * 2 ^ 21) ((site + 1) * 2 ^ 21) }
  t.setSpd site { t.spd site with base := p }

def keyReset (_ : Nat) : KeyEntry := KeyEntry.init

/-- A key-store entry (R157). -/
def State.key (s : State) (site k : Nat) : KeyEntry := tblGet keyReset s.keys (site * 8192 + k)

/-- Sets a key-store entry. -/
def State.setKey (s : State) (site k : Nat) (e : KeyEntry) : State :=
  { s with keys := tblSet keyReset s.keys (site * 8192 + k) e }

/-- The key of a key index for a context (R157): entry k, or SEQ_KEYSEL_n in per-deployment keying, if bound and in the
mask. -/
def State.resolveKey (s : State) (site ctx idx : Nat) : Option (List Nat) :=
  let k := if s.flag (pgSEQ site 0) 0x04C ctx then s.fld (pgSEQ site 0) (0x0C0 + 4 * ctx) 0 12 else idx
  let e := s.key site k
  if e.bound && bitOf e.mask ctx then some e.words else none

/-- Activity counting of TEL (R164): adds to counter `i` of a tag's record in the active bank. -/
def State.telAdd (s : State) (site atag i n : Nat) : State :=
  if s.flag (pgTEL site 0) 0x040 0 then
    let k := (site * 4096 + atag) * 8 + i
    { s with telActive := tblSet (fun _ => 0) s.telActive k ((tblGet (fun _ => 0) s.telActive k + n) % 2 ^ 32) }
  else s

/-! ### Sync objects -/

def syncReset (_ : Nat) : SyncObj := SyncObj.init

/-- Object n of a tile. -/
def State.obj (s : State) (site n : Nat) : SyncObj := tblGet syncReset s.sync (site * 128 + n)

/-- Sets object n of a tile. -/
def State.setObj (s : State) (site n : Nat) (o : SyncObj) : State :=
  { s with sync := tblSet syncReset s.sync (site * 128 + n) o }

/-- The object bound to (ctx, vid), if any (R167). -/
def State.resolve (s : State) (site ctx vid : Nat) : Option Nat :=
  (List.range 128).find? fun n =>
    let o := s.obj site n
    o.bound && o.ctx == ctx && o.vid == vid

/-! ### Network -/

def mapReset (_ : Nat) : RtrMap := RtrMap.init

/-- A router's LTN map. -/
def State.map (s : State) (site : Nat) : RtrMap := tblGet mapReset s.maps site

/-- Sets a router's LTN map. -/
def State.setMap (s : State) (site : Nat) (m : RtrMap) : State := { s with maps := tblSet mapReset s.maps site m }

/-- The site of an LTN in a router's map. -/
def State.siteOfLtn (s : State) (at_ ltn : Nat) : Option Nat :=
  let m := s.map at_
  if m.loaded ∧ ltn < s.ltns then m.sites[ltn]? else none

/-- The LTN bound to a site in its router's map (MAP_SELF). -/
def State.ltnOfSite (s : State) (site : Nat) : Option Nat :=
  let m := s.map site
  if m.loaded then
    ((List.range (min s.ltns m.sites.length)).find? fun n => m.sites[n]? == some site)
  else none

def linkReset0 (_ : Nat) : Link := Link.init

/-- The link a router receives on at a port. -/
def State.link (s : State) (site dir : Nat) : Link := tblGet linkReset0 s.links (site * 4 + dir)

/-- Sets a link. -/
def State.setLink (s : State) (site dir : Nat) (l : Link) : State :=
  { s with links := tblSet linkReset0 s.links (site * 4 + dir) l }

/-- Whether a link direction into a router's port is FAILED (LINK_ST). -/
def State.linkFailed (s : State) (site dir : Nat) : Bool := s.flag (pgRTR site 2) (0x040 + 16 * dir) 4

def mccReset (_ : Nat) : Mcc := Mcc.init

/-- A memory channel controller beyond its registers. -/
def State.mcc (s : State) (n : Nat) : Mcc := tblGet mccReset s.mccs n

/-- Sets a memory channel controller. -/
def State.setMcc (s : State) (n : Nat) (m : Mcc) : State := { s with mccs := tblSet mccReset s.mccs n m }

/-- Puts a packet into the network at a router. -/
def State.inject (s : State) (p : Packet) : State := { s with packets := s.packets ++ [p] }

end Sys2Proof.Machine
end

