-- ==== Sys2Proof/Machine/Flags.lean ====
section
/-! DEFINITION. Every error flag: PG_ERR bits, counts, reports, the collectors and the error log, replace causes, events,
poison origins, the loupe, and context faults. -/

namespace Sys2Proof.Machine

open Sys2Proof

/-- Classes of Table 18.2. -/
def clsInfo : Nat := 0
def clsCorr : Nat := 1
def clsUnc : Nat := 2
def clsPoison : Nat := 3
def clsCtx : Nat := 4
def clsRetire : Nat := 5
def clsReplace : Nat := 6

/-- What an error counts as in PG_ERR_CNT (R45). -/
inductive Cnt
  | none
  | corr
  | unc
  deriving DecidableEq, Repr

/-! ### Events to subscribers (R560) -/

/-- An EVENT goes to every subscriber with flag bit 0 and to the UDP collector. -/
def State.event (s : State) (code : Nat) (body : List Nat) : State :=
  let t := (s.subs.filter fun x => x.flags % 2 == 1).foldl
    (fun (u : State) x => u.send (.mgmt x.conn) "EVENT" (code :: s.time :: body)) s
  if s.udp then t.send .udp "EVENT" (code :: s.time :: body) else t

/-! ### The loupe (R540 to R542) -/

def loupeReset (_ : Nat) : Loupe := Loupe.init

def State.loupeOf (s : State) (f : Nat) : Loupe := tblGet loupeReset s.loupes f

def State.setLoupe (s : State) (f : Nat) (l : Loupe) : State := { s with loupes := tblSet loupeReset s.loupes f l }

/-- A loupe stops: ARMED, and with it RUN, reads 0. -/
def State.loupeStop (s : State) (f : Nat) : State :=
  let l := s.loupeOf f
  let t := s.setLoupe f { l with armed := false, stopped := true }
  t.setBlk (blkId tyLOUPE f) { t.blk (blkId tyLOUPE f) with run := false }

/-- Keeps the newest 1,024 entries. -/
def loupePush (es : List LoupeRec) (e : LoupeRec) : List LoupeRec :=
  let l := es ++ [e]
  if 1024 < l.length then l.drop 1 else l

/-- The loupe's trigger matches an event of a class (Table 18.9): `bit` is the PG_ERR bit of a class 6 event. -/
def State.loupeTrig (s : State) (f cls bit : Nat) : Bool :=
  s.flag (pgLOUPE f) 0x044 3 && s.fld (pgLOUPE f) 0x044 0 3 == cls &&
    (cls != 6 || s.fld (pgLOUPE f) 0x044 4 8 == bit)

/-- An event of a class at a site reaches the loupe of its facet: recorded, counted lost, or not asked for. It changes
nothing but the loupe (R541). -/
def State.loupe (s : State) (site cls ctx bit : Nat) (payload : List Nat) : State :=
  let f := facetOf site
  let pg := pgLOUPE f
  let l := s.loupeOf f
  if l.armed && s.fld pg 0x040 0 11 == site then
    let want := bitOf (s.fld pg 0x040 16 8) cls && (cls != 7 || s.flag pg 0x048 0)
    let q := s.cyc site / 4
    let free := l.lastQ != some q
    let rec1 : LoupeRec := ⟨s.facetTime f, site, cls, ctx, (payload ++ List.replicate 12 0).take 12⟩
    let l1 := if want && free then { l with entries := loupePush l.entries rec1, lastQ := some q } else l
    let l2 := if l.triggered && want && free then { l1 with postLeft := l1.postLeft - 1 } else l1
    let l3 := if !l.triggered && s.loupeTrig f cls bit then
      { l2 with triggered := true, postLeft := s.fld pg 0x044 12 10 } else l2
    let t := s.setLoupe f l3
    let u := if want && !free then t.bumpSat pg 0x054 1 else t
    if l3.triggered && l3.postLeft == 0 then u.loupeStop f else u
  else s

/-! ### The error log (R524 to R531) -/

/-- Collector of a page. -/
def collOf (pg : Nat) : Nat := if isTileTy (pgTy pg) then facetOf (siteOfPg pg) else 12

def collReset (_ : Nat) : Collector := Collector.init

def State.coll (s : State) (k : Nat) : Collector := tblGet collReset s.colls k

def State.setColl (s : State) (k : Nat) (c : Collector) : State := { s with colls := tblSet collReset s.colls k c }

/-- The log accepts records while it holds fewer than 4,096 and HALT_REQ of FLT is 0 (R530, R543). -/
def State.logOpen (s : State) : Bool := decide (s.log.length < 4096) && !s.halting (pgFLT 0)

/-- COAL_N; 0 acts as 1. -/
def State.coalN (s : State) : Nat := max 1 (s.fld (pgFLT 0) 0x040 0 8)

/-- The sixteen words of a record (Table 18.2). -/
def LogRec.words (r : LogRec) : List Nat :=
  [r.tfirst % 2 ^ 32, r.tfirst / 2 ^ 32, r.tlast % 2 ^ 32, r.tlast / 2 ^ 32, r.count, r.pgid,
   r.bit + r.cls * 2 ^ 8 + r.flags * 2 ^ 16 + r.coll * 2 ^ 24, r.seqno] ++ r.detail

/-- The log accepts a record: SEQNO, the counters of FLT page 0, and an EVENT for classes 2 to 6. -/
def State.logWrite (s : State) (r : LogRec) : State :=
  let q := { r with seqno := s.logSeq % 2 ^ 32 }
  let t := { s with log := s.log ++ [q], logSeq := (s.logSeq + 1) % 2 ^ 32 }
  let u := t.bump (pgFLT 0) 0x058 r.count
  let v := if bitOf r.flags 1 || bitOf r.flags 2 then u.bump (pgFLT 0) 0x060 r.count else u
  if 2 ≤ r.cls then v.event 0x02 q.words else v

/-- A record raised as a report of collector `k`: an ordinary record, a coalescing entry, or an overflow count (R526 to
R528). The record's COUNT reports are counted. -/
def State.collectAs (s : State) (k : Nat) (r : LogRec) : State :=
  let c := s.coll k
  let key := r.pgid * 2 ^ 8 + r.bit
  let recent := (c.recent.filter fun e => s.time < e.2 + msec) ++ [(key, s.time)]
  let n := (recent.filter fun e => e.1 == key).length
  let s := s.bump (pgFLT 0) 0x050 r.count
  let held := c.entries.any fun e => e.pgid == r.pgid && e.bit == r.bit
  let coalesce := held || decide (s.coalN < n) || decide (64 ≤ c.queue.length) || !s.logOpen || decide (s.time < c.forced)
  if !coalesce then (s.setColl k { c with recent := recent }).logWrite r
  else if held then
    let upd := fun (e : CoalEntry) =>
      let first := if e.count = 0 then r.tfirst else e.tfirst
      (⟨r.pgid, r.bit, r.cls, r.flags, first, r.tlast, min (2 ^ 32 - 1) (e.count + r.count), r.detail, true⟩ : CoalEntry)
    let es := mapFirst (fun (e : CoalEntry) => e.pgid == r.pgid && e.bit == r.bit) upd c.entries
    s.setColl k { c with recent := recent, entries := es }
  else if c.entries.length < 32 then
    let e : CoalEntry := ⟨r.pgid, r.bit, r.cls, r.flags, r.tfirst, r.tlast, r.count, r.detail, true⟩
    s.setColl k { c with recent := recent, entries := c.entries ++ [e] }
  else if c.overflow.any (fun o => o.cls == r.cls) then
    let upd := fun (o : Overflow) => (⟨r.cls, o.tfirst, r.tlast, min (2 ^ 32 - 1) (o.count + r.count)⟩ : Overflow)
    s.setColl k { c with recent := recent, overflow := mapFirst (fun (o : Overflow) => o.cls == r.cls) upd c.overflow }
  else s.setColl k { c with recent := recent, overflow := c.overflow ++ [⟨r.cls, r.tfirst, r.tlast, r.count⟩] }

/-- One report of a page at the present time. -/
def State.collect (s : State) (pg bit cls flags : Nat) (detail : List Nat) : State :=
  s.collectAs (collOf pg) ⟨s.time, s.time, 1, pg, bit, cls, flags, collOf pg, 0, detail⟩

/-- FLT_STATUS.STORM (R529). -/
def State.storm (s : State) : Bool := s.colls.any fun e => !e.2.entries.isEmpty || !e.2.overflow.isEmpty

/-- Whether a collector holds an overflow count. -/
def State.overflowing (s : State) : Bool := s.colls.any fun e => !e.2.overflow.isEmpty

/-- FLT_PENDING: reports held in collectors. -/
def State.held (s : State) : Nat :=
  (s.colls.map fun e => (e.2.queue.map (·.count)).sum + (e.2.entries.map (·.count)).sum +
    (e.2.overflow.map (·.count)).sum).sum

/-- Sets a PG_ERR bit. -/
def State.setErr (s : State) (pg bit : Nat) : State :=
  let h := s.hdr pg
  s.setHdr pg { h with err := putBits h.err bit 1 1 }

/-- Of the PG_ERR_INJ bits that can act at one operation, the lowest pending one acts (R44). -/
def State.takeInjOf (s : State) (pg : Nat) : List Nat → Option (Nat × State)
  | [] => none
  | b :: l =>
    match s.takeInj pg b with
    | some t => some (b, t)
    | none => State.takeInjOf s pg l

/-- Takes one injection if it is pending: whether it acted, and the state. -/
def State.injected (s : State) (pg bit : Nat) : Bool × State :=
  match s.takeInj pg bit with
  | some t => (true, t)
  | none => (false, s)

/-- Whether an injection of a bit is pending. -/
def State.injPend (s : State) (pg bit : Nat) : Bool := bitOf (s.hdr pg).inj bit

/-- Conditions of FLT page 0 that a state shows: FULL, STORM, OVERFLOW. -/
def State.fltConds (s : State) : List (Nat × Bool) :=
  [(8, decide (4096 ≤ s.log.length)), (9, s.storm), (10, s.overflowing)]

/-- A report, and the FLT page's own bits that it brings about (R524 to R530). -/
def State.report : Nat → State → Nat → Nat → Nat → Nat → List Nat → State
  | 0, s, pg, bit, cls, flags, detail => s.collect pg bit cls flags detail
  | k + 1, s, pg, bit, cls, flags, detail =>
    let t := s.collect pg bit cls flags detail
    (s.fltConds.zip t.fltConds).foldl (fun u e =>
      if (!e.1.2 && e.2.2) || u.injPend (pgFLT 0) e.1.1 then
        let (inj, u) := u.injected (pgFLT 0) e.1.1
        let v := u.setErr (pgFLT 0) e.1.1
        if bitOf (v.hdr (pgFLT 0)).mask e.1.1 then v
        else State.report k v (pgFLT 0) e.1.1 clsInfo (b2n inj) [(v.hdr (pgFLT 0)).err, 0, 0, 0, 0, 0, 0, 0]
      else u) t

/-- The FLT page's own bits for the conditions that a change brought about. -/
def State.fltRaise (t old : State) : State :=
  (old.fltConds.zip t.fltConds).foldl (fun u e =>
    if !e.1.2 && e.2.2 then
      let (inj, u) := u.injected (pgFLT 0) e.1.1
      let v := u.setErr (pgFLT 0) e.1.1
      if bitOf (v.hdr (pgFLT 0)).mask e.1.1 then v
      else State.report 3 v (pgFLT 0) e.1.1 clsInfo (b2n inj) [(v.hdr (pgFLT 0)).err, 0, 0, 0, 0, 0, 0, 0]
    else u) t

/-- The offsets of a block's information registers, page and offset, in ascending order (R524). -/
def infoRegs (ty : Nat) : List (Nat × Nat) :=
  if ty == tyMXA then [(0, 0x050), (0, 0x054)]
  else if ty == tySPD then [(0, 0x04C), (0, 0x050), (0, 0x054)]
  else if ty == tyDMX then [(0, 0x048)]
  else if ty == tySYN then [(0, 0x054), (0, 0x058)]
  else if ty == tyRTR then [(0, 0x04C)]
  else if ty == tyMCC then [(0, 0x044), (0, 0x050)]
  else if ty == tyPRG then [(0, 0x04C), (0, 0x050), (0, 0x054)]
  else if ty == tyPWR then [(0, 0x068), (0, 0x06C)]
  else if ty == tyTIM then [(0, 0x058), (0, 0x05C)]
  else if ty == tyCLK then [(0, 0x044)]
  else if ty == tyOEN then [(0, 0x044), (0, 0x048)]
  else if ty == tyOPT then [(0, 0x044)]
  else if ty == tyGLB then [(0, 0x040), (0, 0x048)]
  else []

/-- Detail words of a report (R524): PG_ERR, then the block's information registers; what the event names for a block that has
none, and after them the word or burst of a poison origin (R514). -/
def State.detail (s : State) (pg cls : Nat) (info : List Nat) : List Nat :=
  let p0 := blkPage0 (blkOf pg)
  let regs := (infoRegs (pgTy pg)).map fun e => s.reg (p0 + e.1) e.2
  ((s.hdr pg).err :: regs ++ (if regs.isEmpty || cls == clsPoison then info else []) ++ List.replicate 8 0).take 8

/-- An event sets a PG_ERR bit (R42, R43, R45, R524): the bit, its count, and, unless masked, its report. A pending injection of the
bit acts at it (R44). -/
def State.raise (s : State) (pg bit cls : Nat) (c : Cnt) (inj : Bool) (info : List Nat) : State :=
  let (was, s) := s.injected pg bit
  let inj := inj || was
  let t := s.setErr pg bit
  let h := t.hdr pg
  let u := match c with
    | .none => t
    | .corr => t.setHdr pg { h with corr := satAdd 0xFFFF h.corr 1 }
    | .unc => t.setHdr pg { h with unc := satAdd 0xFFFF h.unc 1 }
  if bitOf h.mask bit then u
  else
    let v := State.report 3 u pg bit cls (b2n inj) (u.detail pg cls info)
    if isTileTy (pgTy pg) then v.loupe (siteOfPg pg) 6 0 bit [pg, h.err] else v

/-- An operation at which an error can arise: it does if `cond`, or if its injection is pending, which then acts (R44). Whether it
arises, whether it was injected, the state. -/
def State.arises (s : State) (pg bit : Nat) (cond : Bool) : Bool × Bool × State :=
  match s.takeInj pg bit with
  | some t => (true, true, t)
  | none => (cond, false, s)

/-- The same for an error that does no more than set its bit. -/
def State.raiseIf (s : State) (pg bit cls : Nat) (c : Cnt) (cond : Bool) (info : List Nat) : State :=
  if cond || s.injPend pg bit then s.raise pg bit cls c false info else s

/-- Poison originates (R514): POISON_SEEN, the origin, and a report of class POISON. `place` and `address` name the word
or burst. -/
def State.origin (s : State) (pg bit : Nat) (c : Cnt) (inj : Bool) (place address : Nat) : State :=
  let t := s.poisonSeen pg
  let o : Origin := ⟨s.time, pg, place, address, if place < 2 ^ 16 then s.ltnOfSite place else none, none⟩
  ({ t with origins := t.origins ++ [o] } : State).raise pg bit clsPoison c inj [place, address]

/-! ### Replace causes (R532, R533) -/

/-- Replace causes newly set: their bits, the time of the first, a record of class 6 and an event each. -/
def State.replace (s : State) (mask : Nat) : State :=
  let old := s.reg (pgFLT 3) 0x040
  let new := (List.range 12).filter fun i => bitOf mask i && !bitOf old i
  if new.isEmpty then s
  else
    let t := if old = 0 then s.setReg64 (pgFLT 3) 0x048 s.time else s
    let u := t.setReg (pgFLT 3) 0x040 (new.foldl (fun a i => a + 2 ^ i) old)
    new.foldl (fun (v : State) i =>
      (State.report 3 v (pgFLT 3) i clsReplace 0 (v.detail (pgFLT 3) clsReplace [i])).event 0x01 [i]) u

/-- Causes of Table 18.3. -/
def causeSpares : Nat := 2 ^ 0
def causeSubch : Nat := 2 ^ 1
def causeOptical : Nat := 2 ^ 2
def causeRegion : Nat := 2 ^ 3
def causePhase : Nat := 2 ^ 4
def causeConverter : Nat := 2 ^ 5
def causeFacet : Nat := 2 ^ 6
def causeSigning : Nat := 2 ^ 7
def causePlacement : Nat := 2 ^ 8
def causeLink : Nat := 2 ^ 9
def causeCorner : Nat := 2 ^ 10
def causeMemory : Nat := 2 ^ 11

/-! ### Writing out what the collectors hold -/

/-- The collector's record of a coalescing entry. -/
def CoalEntry.record (e : CoalEntry) (k : Nat) : LogRec :=
  ⟨e.tfirst, e.tlast, e.count, e.pgid, e.bit, e.cls, e.flags % 2 + 2, k, 0, e.detail⟩

/-- The record of an overflow count: TYPE 0x070, INST the collector, PAGE 0xFF (Table 18.2). -/
def Overflow.record (o : Overflow) (k : Nat) : LogRec :=
  ⟨o.tfirst, o.tlast, o.count, pgId tyFLT k 0xFF, o.cls, o.cls, 4, k, 0, List.replicate 8 0⟩

/-- The waiting record with the oldest interval: its collector. -/
def State.oldestWaiting (s : State) : Option Nat :=
  (s.colls.foldl (fun (b : Option (Nat × Nat)) e =>
    match e.2.queue.head?, b with
    | none, _ => b
    | some r, none => some (e.1, r.tlast)
    | some r, some x => if r.tlast < x.2 then some (e.1, r.tlast) else b) none).map (·.1)

/-- Waiting records are written, oldest interval first, while the log accepts them (R530). -/
def drainLog : Nat → State → State
  | 0, s => s
  | n + 1, s =>
    if s.logOpen then
      match s.oldestWaiting with
      | none => s
      | some k =>
        match (s.coll k).queue with
        | [] => s
        | r :: q => drainLog n ((s.setColl k { s.coll k with queue := q }).logWrite r)
    else s

/-- Waiting records in all collectors. -/
def State.waiting (s : State) : Nat := (s.colls.map fun e => e.2.queue.length).sum

/-- Waiting records are written as far as the log accepts them. -/
def State.drain (s : State) : State := drainLog s.waiting s

/-- A record goes into its collector's queue if there is room. -/
def State.enqueue (s : State) (k : Nat) (r : LogRec) : Option State :=
  let c := s.coll k
  if c.queue.length < 64 then some (s.setColl k { c with queue := c.queue ++ [r] }) else none

/-- At an interval's end: the entries of a collector, written if they count reports, freed if none came (R527). -/
def closeEntries (k : Nat) : List CoalEntry → List CoalEntry → State → State
  | [], done, s => s.setColl k { s.coll k with entries := done }
  | e :: l, done, s =>
    if 0 < e.count then
      match s.enqueue k (e.record k) with
      | some t => closeEntries k l (done ++ [{ e with count := 0, active := false }]) t
      | none => closeEntries k l (done ++ [e]) s
    else if e.active then closeEntries k l (done ++ [{ e with active := false }]) s
    else closeEntries k l done s

/-- At an interval's end: the overflow counts of a collector (R528). -/
def closeOverflow (k : Nat) : List Overflow → List Overflow → State → State
  | [], left, s => s.setColl k { s.coll k with overflow := left }
  | o :: l, left, s =>
    match s.enqueue k (o.record k) with
    | some t => closeOverflow k l left t
    | none => closeOverflow k l (left ++ [o]) s

/-! ### Context faults (R133) -/

/-- Codes of Table 05.1. -/
def fDESC : Nat := 0x01
def fADDR : Nat := 0x02
def fSYNC : Nat := 0x03
def fKEY : Nat := 0x04
def fCONFLICT : Nat := 0x05
def fBARRIER : Nat := 0x06
def fDRAIN : Nat := 0x07
def fSEQ : Nat := 0x08
def fSTALE : Nat := 0x09
def fIMEM : Nat := 0x0A
def fTIMEOUT : Nat := 0x0B

/-- The unfired tasks of a context leave every window (R133). -/
def State.dropTasks (s : State) (site ctx : Nat) : State :=
  let t := s.tile site
  s.setTile site { t with
    win := t.win.filter fun k => k.ctx != ctx
    copied := t.copied.filter fun k => k.task.ctx != ctx }

/-- A context faults; a later fault before its restart is only counted (R133). `inj` marks an injected one (R44). -/
def State.ctxFaultAs (s : State) (site ctx code engine detail : Nat) (inj : Bool) : State :=
  let th := s.thread site ctx
  if th.faultRec then
    let h := s.hdr (pgSEQ site 0)
    s.setHdr (pgSEQ site 0) { h with unc := satAdd 0xFFFF h.unc 1 }
  else
    let t := (s.setThread site ctx { th with st := .faulted, block := .none, faultRec := true, stopping := false }).dropTasks
      site ctx
    let f := code + engine * 2 ^ 8 + detail % 2 ^ 16 * 2 ^ 16
    let u := (t.setReg (pgSEQ site 0) (0x080 + 4 * ctx) f).setReg (pgSEQ site 0) (0x0A0 + 4 * ctx) th.pc
    u.raise (pgSEQ site 0) 8 clsCtx .unc inj [f, th.pc]

/-- A context faults. -/
def State.ctxFault (s : State) (site ctx code engine detail : Nat) : State := s.ctxFaultAs site ctx code engine detail false

/-! ### The common part of a RESET (R41, R620) -/

/-- The header of a page after a reset: PG_ERR_MASK stays. -/
def hdrAfterReset (h : PageHdr) : PageHdr := ⟨0, h.mask, 0, 0, 0, false, false⟩

/-- What a RESET does to every page of a block: registers at their reset values but the fields of `keep` (page in the block,
offset, low bit, width), PG_ERR, counts, injections, WLOCK and POISON_SEEN cleared, staged values and COMMIT_PEND discarded; RETIRED and
PG_ERR_MASK stay. -/
def State.resetCommon (s : State) (blk : Nat) (keep : List (Nat × Nat × Nat × Nat)) : State :=
  let p0 := blkPage0 blk
  let saved := keep.map fun e => (e, s.fld (p0 + e.1) e.2.1 e.2.2.1 e.2.2.2)
  let c := s.blk blk
  let t := s.clearRegs blk
  let clean := fun (e : Nat × PageHdr) =>
    if blkOf e.1 = blk then (if hdrAfterReset e.2 = hdrReset 0 then none else some (e.1, hdrAfterReset e.2)) else some e
  let t : State := { t with
    hdrs := t.hdrs.filterMap clean
    staged := tblDelRange t.staged (regKey p0 0) (regKey (blkPage0 (blk + 1)) 0) }
  let t := t.setBlk blk ⟨enableReset (blkTy blk), false, enableReset (blkTy blk) && c.run, false, none, c.retired, false, 0⟩
  saved.foldl (fun (u : State) e => u.setFld (p0 + e.1.1) e.1.2.1 e.1.2.2.1 e.1.2.2.2 e.2) t

end Sys2Proof.Machine
end

