-- ==== Sys2Proof/Machine/Operands.lean ====
section
/-! DEFINITION. Operand forms: scratchpad accesses of a tile's own engines, bit strings of elements, task headers and
descriptors with every check of Table 08.11, sync signals and waits. -/

namespace Sys2Proof.Machine

open Sys2Proof

/-! ### Local accesses (R192 to R194, R210 to R212) -/

/-- Port orders of Table 07.2. -/
def pRX : Nat := 1
def pMW : Nat := 2
def pMA : Nat := 3
def pMC : Nat := 4
def pMO : Nat := 5
def pVR : Nat := 6
def pVW : Nat := 7
def pD0 : Nat := 8
def pD1 : Nat := 9
def pSEQ : Nat := 10

/-- Engine of a port, as SEQ_FAULT_n records it. -/
def engineOfPortOrder (port : Nat) : Nat :=
  if port ≤ 5 then 0 else if port ≤ 7 then 1 else if port = 8 then 2 else if port = 9 then 3 else 4

/-- Bank of a word (R190). -/
def bankOf (w : Nat) : Nat := w % 128

/-- A state and what its surroundings still do to the accesses of the command. -/
structure Io where
  s : State
  env : Env
  deriving DecidableEq, Repr

/-- What happens to the next access, and the rest. -/
def Io.pop (x : Io) : Acc × Io :=
  match x.env with
  | [] => (⟨.clean, none⟩, x)
  | a :: l => (a, { x with env := l })

/-- Who makes a local access: site, port, context, attribution tag of its task if it is a task's. -/
structure By where
  site : Nat
  port : Nat
  ctx : Nat
  tag : Option Nat
  deriving DecidableEq, Repr

/-- An access dropped in a conflict (R194): CONFLICT with its record, and the context's fault. A dropped read is a poison
origin (R514). -/
def State.conflict (s : State) (b : By) (w won : Nat) (read inj : Bool) : State :=
  let pg := pgSPD b.site 0
  let t := s.setReg pg 0x04C (bankOf w + won * 2 ^ 7 + b.port * 2 ^ 11 + b.ctx * 2 ^ 15)
  let u := if read then t.origin pg 8 .unc inj b.site w else t.raise pg 8 clsUnc .unc inj []
  u.ctxFault b.site b.ctx fCONFLICT (engineOfPortOrder b.port) (bankOf w)

/-- A corrected word waits at its bank to be written back (R210). -/
def State.addWriteBack (s : State) (site w : Nat) : State :=
  let k := s.bank site (bankOf w)
  s.setBank site (bankOf w) { k with writeBack := (k.writeBack.filter (· != w)) ++ [w] }

/-- What a read shows of a word's code: corrected, or delivered and stored poisoned (R210, R211). `src` is 1 for a scrub
read. -/
def State.eccRead (s : State) (site w : Nat) (e : Ecc) (src : Nat) (inj : Bool) : PWord × State :=
  let x := s.spadWord site w
  let pg := pgSPD site 0
  match e with
  | .clean => (x, s)
  | .single =>
    let t := (s.addWriteBack site w).setReg pg 0x050 (w + src * 2 ^ 22)
    (x, t.raise pg 9 clsCorr .corr inj [])
  | .double =>
    let t := (s.spadStore site w ⟨x.v, true⟩).setReg pg 0x050 (w + 2 ^ 21 + src * 2 ^ 22)
    (⟨x.v, true⟩, if x.p then (t.poisonSeen pg).raise pg 10 clsUnc .unc inj [] else t.origin pg 10 .unc inj site w)

/-- A word read of a scratchpad, with the injections a word read takes (R44, SPD page 0). -/
def State.bankRead (s : State) (site w : Nat) (e : Ecc) : PWord × State :=
  let r := match s.takeInjOf (pgSPD site 0) [9, 10] with
    | some (b, t) => t.eccRead site w (if b = 9 then .single else .double) 0 true
    | none => s.eccRead site w e 0 false
  (r.1, if r.1.p then r.2.poisonSeen (pgSPD site 0) else r.2)

/-- Counts a local access performed (Table 07.9) and its attribution (Table 05.5). -/
def State.countLocal (s : State) (b : By) : State :=
  let t := s.bump (pgSPD b.site 1) 0x040 1
  match b.tag with
  | some a => t.telAdd b.site a 2 1
  | none => t

/-- The port that takes the bank from an access (Table 07.2): one that stands higher, or the access's own port, which an
owned write cycle does not yield to (R191). Port RX never loses. -/
def winner (port : Nat) (owned : Bool) (lostTo : Option Nat) : Option Nat :=
  lostTo.filter fun won => decide (1 ≤ won) && decide (pRX < port) && (decide (won < port) || (!owned && won == port))

/-- A local word read: dropped reads deliver the word poisoned (R194). -/
def Io.read (x : Io) (b : By) (w : Nat) : PWord × Io :=
  let (a, y) := x.pop
  let (inj, s) := if b.port = pRX then (false, y.s) else y.s.injected (pgSPD b.site 0) 8
  match (if inj then some pRX else winner b.port false a.lostTo) with
  | some won => (⟨(s.spadWord b.site w).v, true⟩, { y with s := s.conflict b w won true inj })
  | none =>
    let (v, t) := s.bankRead b.site w a.ecc
    (v, { y with s := t.countLocal b })

/-- A local write reaches a word while an atomic holds it: the atomic will read the word again (R205). -/
def State.atomicReread (s : State) (site w : Nat) : State :=
  let k := s.bank site (bankOf w)
  match k.atomic with
  | some (q, _) => if q.word = w then s.setBank site (bankOf w) { k with atomic := none, queue := q :: k.queue } else s
  | none => s

/-- Consecutive words read, lowest first. -/
def Io.readN (x : Io) (b : By) (w : Nat) : Nat → List PWord × Io
  | 0 => ([], x)
  | n + 1 =>
    let (v, y) := x.read b w
    let (l, z) := y.readN b (w + 1) n
    (v :: l, z)

/-- Words of a task to copy: its header, and DLEN × 2 more once the header is read; none where they cannot be read (R217). -/
def Copy.size (k : Copy) : Nat :=
  let off := k.task.offset
  if off % 8 ≠ 0 || spadBytes < off + 32 then 0
  else if k.words.length < 8 then 8
  else
    let n := 2 * bitsOf (nthD ⟨0, false⟩ k.words 6).v 16 4
    if spadBytes < off + 32 + 4 * n then 8 else 8 + n

/-- Whether a task is copied. -/
def Copy.done (k : Copy) : Bool := decide (k.size ≤ k.words.length)

/-- Whether the SEQ of a tile is copying a task. -/
def State.copying (s : State) (site : Nat) : Bool := (s.tile site).copied.any fun k => !k.done

/-- The SEQ reads two words of a task it copies, 8 bytes in a cycle; tasks that wait behind it follow (R141, R217). -/
def State.copyStep (s : State) (site : Nat) (k : Copy) : State :=
  let (l, x) := Io.readN ⟨s, k.env⟩ ⟨site, pSEQ, k.task.ctx, none⟩ (k.task.offset / 4 + k.words.length) 2
  let t := if l.any (·.p) then x.s.poisonSeen (pgSEQ site 0) else x.s
  let upd := fun (c : Copy) =>
    if c.task.entry = k.task.entry then { c with words := c.words ++ l, env := x.env, due := k.due + 1 }
    else { c with due := max c.due (k.due + 1) }
  t.setTile site { t.tile site with copied := (t.tile site).copied.map upd }

/-- The steps of the copies that are due by the cycle `c` (R217). -/
def copyTo (site c : Nat) : Nat → State → State
  | 0, s => s
  | n + 1, s =>
    match (s.tile site).copied.find? fun k => !k.done with
    | none => s
    | some k => if k.due ≤ c then copyTo site c n (s.copyStep site k) else s

/-- The copies of a tile come up to the present cycle. -/
def State.copyNow (s : State) (site : Nat) : State := copyTo site (s.cyc site) (20 * (s.tile site).copied.length) s

/-- A word is stored at its bank: a whole-word write also settles a waiting write-back (R210, R212). A task being copied
was read up to this cycle, and is read as changed from the next on (R217). -/
def State.bankWrite (s : State) (site w : Nat) (v : PWord) : State :=
  let s := s.copyNow site
  let k := s.bank site (bankOf w)
  let t := (s.setBank site (bankOf w) { k with writeBack := k.writeBack.filter (· != w) }).spadStore site w v
  if v.p then t.poisonSeen (pgSPD site 0) else t

/-- A local word write: a dropped write is not performed but is acknowledged (R194). `owned` marks the merged write of an
SB or SH, which owns its cycle (R191). -/
def Io.store (x : Io) (b : By) (w : Nat) (v : PWord) (owned : Bool) : Io :=
  let (a, y) := x.pop
  let (inj, s) := if b.port = pRX then (false, y.s) else y.s.injected (pgSPD b.site 0) 8
  match (if inj then some pRX else winner b.port owned a.lostTo) with
  | some won => { y with s := s.conflict b w won false inj }
  | none => { y with s := ((s.bankWrite b.site w v).atomicReread b.site w).countLocal b }

/-- A local word write of a whole word. -/
def Io.write (x : Io) (b : By) (w : Nat) (v : PWord) : Io := x.store b w v false

/-- Consecutive words written, lowest first. -/
def Io.writeN (x : Io) (b : By) (w : Nat) : List PWord → Io
  | [] => x
  | v :: l => (x.write b w v).writeN b (w + 1) l

/-- Words as one little-endian bit string. -/
def joinWords : List PWord → Nat
  | [] => 0
  | v :: l => v.v + joinWords l * 2 ^ 32

/-- A bit string as `n` words with one poison bit. -/
def cutWords (v : Nat) (p : Bool) : Nat → List PWord
  | 0 => []
  | n + 1 => ⟨v % 2 ^ 32, p⟩ :: cutWords (v / 2 ^ 32) p n

/-- Elements of width `b` joined into a bit string, element 0 lowest (R63). -/
def joinElems (b : Nat) : List Nat → Nat
  | [] => 0
  | e :: l => e % 2 ^ b + joinElems b l * 2 ^ b

/-- Whether a word that holds any bit from `lo` to `lo + w − 1` of a run is poisoned. -/
def poisonAt (ws : List PWord) (lo w : Nat) : Bool :=
  ((ws.drop (lo / 32)).take ((lo + w - 1) / 32 - lo / 32 + 1)).any (·.p)

/-! ### Tasks (chapter 08) -/

/-- Descriptor word i, and header word i. -/
def Task.d (t : Task) (i : Nat) : Nat := nthD 0 t.desc i
def Task.h (t : Task) (i : Nat) : Nat := nthD 0 t.hdr i

/-- A field of a descriptor word. -/
def Task.f (t : Task) (i lo w : Nat) : Nat := bitsOf (t.d i) lo w

/-- A signed descriptor word. -/
def Task.sd (t : Task) (i : Nat) : Int := sext 32 (t.d i)

/-- HCTL fields (Table 08.3). -/
def Task.atag (t : Task) : Nat := bitsOf (t.h 6) 0 12
def Task.etype (t : Task) : Nat := bitsOf (t.h 6) 12 2
def Task.sigGrp (t : Task) : Bool := bitOf (t.h 6) 14
def Task.dlen (t : Task) : Nat := bitsOf (t.h 6) 16 4

/-- A wait term of Table 08.3. -/
structure WTerm where
  vid : Nat
  count : Nat
  kind : Nat
  deriving DecidableEq, Repr

def waitOfWord (w : Nat) : WTerm := ⟨bitsOf w 0 13, bitsOf w 13 16, bitsOf w 29 2⟩

/-- The present wait terms of a task. -/
def Task.waits (t : Task) : List WTerm :=
  (((t.hdr.take 4).filter fun w => bitOf w 31)).map waitOfWord

/-- The present signal terms: identifier, value, FAIL. -/
def Task.sigs (t : Task) : List (Nat × Nat × Bool) :=
  ((((t.hdr.drop 4).take 2).filter fun w => bitOf w 31)).map fun w => (bitsOf w 0 13, bitsOf w 13 8, bitOf w 30)

/-- A barrier count of R176 is well formed. -/
def barrierCountOk (c : Nat) : Bool := bitOf c 15 && bitsOf c 5 10 == 0

/-- Checks 0x0003 to 0x0006 of the task header. -/
def headerChecks (t : Task) : List (Nat × Bool) :=
  let ety := t.etype
  let etypeOk := if t.engine = 0 then ety == 0 else if t.engine = 1 then ety == 1 else 2 ≤ ety
  let dlenOk := t.dlen == (if ety = 0 then 12 else if ety = 1 then 10 else 8)
  let ws := t.hdr.take 4
  let ss := (t.hdr.drop 4).take 2
  [(0x0003, !(decide (t.engine < 4) && etypeOk && dlenOk)),
   (0x0004, ws.any (fun w => (!bitOf w 31 && w != 0) || (bitOf w 31 && bitsOf w 29 2 == 3)) ||
      ss.any (fun w => (!bitOf w 31 && w != 0) || bitsOf w 21 9 != 0) ||
      bitOf (t.h 6) 15 || bitsOf (t.h 6) 20 12 != 0 || t.h 7 != 0),
   (0x0005, t.waits.any (fun w => w.count == 0 || (w.kind == 2 && !barrierCountOk w.count)) ||
      !decide ((t.waits.map (·.vid)).Nodup)),
   (0x0006, (decide (ety ≤ 1) && ss.any fun w => bitOf w 31 && bitOf w 30) || (ety != 0 && t.sigGrp))]

/-- A closed byte range, as integers; empty when the first exceeds the second. -/
abbrev Rng := Int × Int

/-- The bounding interval of a base moved by two strides, each at its two ends, `size` bytes long (R222). -/
def rangeOf (base : Nat) (s1 s2 : Int) (n1 n2 size : Nat) : Rng :=
  let a := s1 * ((n1 : Int) - 1)
  let b := s2 * ((n2 : Int) - 1)
  ((base : Int) + min 0 a + min 0 b, (base : Int) + max 0 a + max 0 b + size - 1)

/-- Whether a range lies in a tile's own scratchpad. -/
def Rng.own (r : Rng) : Bool := decide (0 ≤ r.1) && decide (r.2 < spadBytes)

/-- Whether two ranges meet. -/
def Rng.meets (a b : Rng) : Bool := decide (a.1 ≤ b.2) && decide (b.1 ≤ a.2)

/-! #### MXA instruction (Table 08.4) -/

def Task.mode (t : Task) : Nat := t.f 0 0 3
def Task.wfmt (t : Task) : Nat := t.f 0 4 4
def Task.afmt (t : Task) : Nat := t.f 0 8 4
def Task.ofmt (t : Task) : Nat := t.f 0 12 2
def Task.ornd (t : Task) : Bool := bitOf (t.d 0) 14
def Task.chainMem (t : Task) : Bool := bitOf (t.d 0) 15
def Task.keepw (t : Task) : Bool := bitOf (t.d 0) 16
def Task.drainTx (t : Task) : Bool := bitOf (t.d 0) 19
def Task.chainLen (t : Task) : Nat := t.f 0 20 12 + 1
def Task.m (t : Task) : Nat := t.f 1 0 8 + 1
def Task.count (t : Task) : Nat := t.f 1 8 16 + 1
def Task.stream (t : Task) : Nat := t.f 2 0 16
def Task.warrVid (t : Task) : Nat := t.f 2 16 13
def Task.warrEn (t : Task) : Bool := bitOf (t.d 2) 29
def Task.kbase (t : Task) : Nat := t.f 3 0 24
def Task.txslot (t : Task) : Nat := t.f 4 0 10

/-- Logical columns of a pass (R100). -/
def Task.cols (t : Task) : Nat := if t.mode = 2 then 256 else 128

/-- H16 and J7 operands are 16 bits wide and carry no scale. -/
def Task.wide (t : Task) : Bool := 4 ≤ t.mode

/-- Bytes of one MX or plain block. -/
def blockBytes (fmt : Nat) : Nat := 4 * elemBits fmt

/-- The address of a pass's operand (R102). -/
def Task.addr (t : Task) (base : Nat) (j : Nat) : Nat :=
  ((t.f base 0 23 : Int) + t.sd (base + 1) * ((j / t.chainLen : Nat) : Int) +
    t.sd (base + 2) * ((j % t.chainLen : Nat) : Int)).toNat

/-- The address of a chain group's operand (R102). -/
def Task.gaddr (t : Task) (base : Nat) (j : Nat) : Nat :=
  ((t.f base 0 23 : Int) + t.sd (base + 1) * ((j / t.chainLen : Nat) : Int)).toNat

/-- Operands of an instruction: first word, whether it has a k stride, whether it is used, bytes per pass or group, and
alignment. OUT is last (R222, Table 04.3). -/
def mxaOperands (t : Task) : List (Nat × Bool × Bool × Nat × Nat) :=
  let l := t.cols
  [(6, true, true, if t.wide then 32768 else 4 * l * blockBytes t.wfmt, 4),
   (9, true, !t.wide && isMx t.wfmt, 4 * l, 4),
   (12, true, true, if t.wide then 256 * t.m else 128 * t.m, 4),
   (15, true, !t.wide && isMx t.afmt, 4 * t.m, 4),
   (18, false, t.chainMem, if t.mode = 5 then 512 * t.m else 2 * l * t.m, 4),
   (22, false, true, 8 * t.m, 8),
   (20, false, !t.drainTx, if t.ofmt = 2 then 512 * t.m else 2 * l * t.m, 4)]

/-- The range of an operand over all passes. -/
def mxaRange (t : Task) (o : Nat × Bool × Bool × Nat × Nat) : Rng :=
  rangeOf (t.f o.1 0 23) (t.sd (o.1 + 1)) (if o.2.1 then t.sd (o.1 + 2) else 0) (t.count / t.chainLen)
    t.chainLen o.2.2.2.1

/-- Formats permitted for a mode (Table 04.2). -/
def fmtsOk (mode wf af : Nat) : Bool :=
  let f8 := fun f => f == 0 || f == 1 || f == 5 || f == 8 || f == 9
  match mode with
  | 0 => f8 wf && f8 af
  | 1 => (wf == 2 || wf == 3) && f8 af
  | 2 => wf == 4 && f8 af
  | 3 => f8 wf && f8 af
  | 4 => (wf == 0xC || wf == 0xD) && (af == 0xC || af == 0xD)
  | 5 => wf == 0xC && af == 0xC
  | _ => false

/-- Checks 0x0101 to 0x0108. -/
def mxaChecks (s : State) (t : Task) : List (Nat × Bool) :=
  let used := (mxaOperands t).filter fun o => o.2.2.1
  let reads := used.filter fun o => o.1 != 20
  let outs := used.filter fun o => o.1 == 20
  [(0x0101, decide (6 ≤ t.mode) || bitOf (t.d 0) 3 || t.ofmt == 3 || t.f 0 17 2 != 0 || t.f 1 24 8 != 0 ||
      t.f 2 30 2 != 0 || t.f 3 24 8 != 0 || t.f 4 10 22 != 0 || t.d 5 != 0 || !isFormat t.wfmt || !isFormat t.afmt ||
      used.any fun o => t.f o.1 23 9 != 0),
   (0x0102, t.count % t.chainLen != 0),
   (0x0103, !fmtsOk t.mode t.wfmt t.afmt || (t.ofmt == 2 && t.mode != 5)),
   (0x0104, t.ornd && t.ofmt == 0),
   (0x0105, t.mode == 5 && !s.j7),
   (0x0106, used.any fun o => t.d o.1 % o.2.2.2.2 != 0 || t.d (o.1 + 1) % o.2.2.2.2 != 0 ||
      (o.2.1 && t.d (o.1 + 2) % o.2.2.2.2 != 0)),
   (0x0107, used.any fun o => !(mxaRange t o).own),
   (0x0108, outs.any fun o => reads.any fun r => (mxaRange t o).meets (mxaRange t r))]

/-! #### VXE task (Table 08.6) -/

def Task.op (t : Task) : Nat := t.f 0 0 8
def Task.fa (t : Task) : Nat := t.f 0 8 4
def Task.fb (t : Task) : Nat := t.f 0 12 4
def Task.fcd (t : Task) : Nat := t.f 0 16 4
def Task.fo (t : Task) : Nat := t.f 0 20 4
def Task.vrtz (t : Task) : Bool := bitOf (t.d 0) 24
def Task.vinit (t : Task) : Bool := bitOf (t.d 0) 25
def Task.we (t : Task) : Bool := bitOf (t.d 0) 26
def Task.rmeta (t : Task) : Bool := bitOf (t.d 0) 27
def Task.n (t : Task) : Nat := t.f 1 0 19
def Task.vcount (t : Task) : Nat := t.f 2 0 16 + 1
def Task.vkey (t : Task) : Nat := t.f 2 16 12
def Task.vstr (t : Task) : Nat := t.f 3 0 24
def Task.vstream (t : Task) : Nat := t.f 4 0 16
def Task.vpstep (t : Task) : Nat := t.f 4 16 16
def Task.vtoken (t : Task) : Nat := t.d 5 + t.f 6 0 8 * 2 ^ 32
def Task.vkblock (t : Task) : Nat := t.f 6 8 24
def Task.p0 (t : Task) : Nat := t.f 7 0 16
def Task.p1 (t : Task) : Nat := t.f 7 16 16
def Task.topk (t : Task) : Nat := t.f 8 0 9
/-- Operand offsets A, B, C, D, O, O2 (0 to 5), scale arrays ASC, BSC, OSC, and the row metadata. -/
def Task.off (t : Task) (i : Nat) : Nat := t.f (9 + i) 0 23
def Task.sc (t : Task) (i : Nat) : Nat := t.f (15 + i) 0 23
def Task.rmOff (t : Task) : Nat := t.f 18 0 23

/-- The operation codes of Table 05.4. -/
def vxeOps : List Nat :=
  [0x00, 0x01, 0x02, 0x03, 0x04, 0x05, 0x06, 0x07, 0x10, 0x11, 0x12, 0x13, 0x14, 0x15, 0x16, 0x17, 0x18, 0x19, 0x1A,
   0x1B, 0x20, 0x21, 0x22, 0x30, 0x31, 0x32, 0x38, 0x39, 0x3C]

/-- How an operand moves from vector to vector: with VSTR, not at all, or by `b` bytes each. -/
inductive Step
  | vec
  | fixed
  | each (b : Nat)
  deriving DecidableEq, Repr

/-- An operand in use: its offset, its scale array if it is in an MX format, its format, how it moves. -/
structure VOpnd where
  off : Nat
  sc : Option Nat
  fmt : Nat
  step : Step
  deriving DecidableEq, Repr

/-- Input operands of a VXE task (Table 08.7, R226). -/
def vxeIns (t : Task) : List VOpnd :=
  let a : VOpnd := ⟨t.off 0, if isMx t.fa then some (t.sc 0) else none, t.fa, .vec⟩
  let b : VOpnd := ⟨t.off 1, if isMx t.fb then some (t.sc 1) else none, t.fb, .vec⟩
  let c : VOpnd := ⟨t.off 2, none, t.fcd, .vec⟩
  let d : VOpnd := ⟨t.off 3, none, t.fcd, .vec⟩
  let st : VOpnd := ⟨t.off 2, none, 0xD, .each 4⟩
  match t.op with
  | 0x01 => [a, b]
  | 0x02 => [a, b]
  | 0x03 => [a, b]
  | 0x05 => [a, b]
  | 0x06 => [a, b]
  | 0x04 => [a, b, c]
  | 0x07 => [a, b, c, d]
  | 0x20 => if t.vinit then [a, { c with step := .fixed }] else [a]
  | 0x30 => [a, st]
  | 0x31 => [a, st]
  | 0x38 => [a, { b with step := .fixed }]
  | 0x39 => [a, { b with step := .fixed }, { c with step := .fixed }]
  | 0x32 => [a, b]
  | _ => [a]

/-- Output operands of a VXE task. -/
def vxeOuts (t : Task) : List VOpnd :=
  let o : VOpnd := ⟨t.off 4, if isMx t.fo then some (t.sc 2) else none, t.fo, .vec⟩
  match t.op with
  | 0x20 => [{ o with step := .fixed }]
  | 0x21 => [{ o with step := .each 2 }]
  | 0x22 => [{ o with step := .each 2 }]
  | 0x30 => [⟨t.off 4, none, 0xD, .each 4⟩, ⟨t.off 5, none, 0xD, .each 2⟩] ++
      (if t.we then [⟨t.off 3, none, 0xD, .vec⟩] else [])
  | 0x3C => [⟨t.off 4, none, 0xD, .each 4⟩]
  | _ => [o]

/-- Byte ranges of an operand: its elements, and its scales. -/
def vxeRanges (t : Task) (o : VOpnd) : List Rng :=
  let nv := match o.step with
    | .fixed => 1
    | _ => t.vcount
  match o.step with
  | .each b => [((o.off : Int), (o.off : Int) + ((b * nv + 3) / 4 * 4 : Nat) - 1)]
  | _ =>
    let bits := ((nv - 1) * t.vstr + t.n) * elemBits o.fmt
    let els : Rng := ((o.off : Int), (o.off : Int) + ((bits + 31) / 32 * 4 : Nat) - 1)
    match o.sc with
    | none => [els]
    | some q => [els, ((q : Int), (q : Int) + (((nv - 1) * t.vstr + t.n - 1) / 32 : Nat))]

/-- Checks 0x0201 to 0x0205. ACC reads no row metadata (R228), so its record range is no operand. -/
def vxeChecks (t : Task) : List (Nat × Bool) :=
  let ins := vxeIns t
  let outs := vxeOuts t
  let all := ins ++ outs
  let nan := fun c => bitsOf c 9 6 == 63
  let neg := fun c => bitOf c 15 && bitsOf c 0 15 != 0
  let rm : List Rng := if t.rmeta && t.op != 0x20 then [((t.rmOff : Int), (t.rmOff : Int) + 8 * t.vcount - 1)] else []
  let rIn := ins.flatMap (vxeRanges t) ++ rm
  let rOut := outs.flatMap (vxeRanges t)
  [(0x0201, !vxeOps.contains t.op || t.f 0 28 4 != 0 || t.f 1 19 13 != 0 || t.f 2 28 4 != 0 || t.f 3 24 8 != 0 ||
      t.f 8 9 23 != 0 || (List.range 10).any (fun i => t.f (9 + i) 23 9 != 0) || t.d 19 != 0 ||
      !isFormat t.fa || !isFormat t.fb || !isFormat t.fcd || !isFormat t.fo),
   (0x0202, isMx t.fcd || t.n == 0 || decide (262144 < t.n) || (t.op == 0x30 && decide (128 < t.n)) ||
      outs.any (fun o => o.sc.isSome && t.n % 32 != 0) ||
      ((t.op == 0x21 || t.op == 0x22) && t.fo != 0xC && t.fo != 0xD) ||
      (t.op == 0x32 && (t.n != 130 || t.fa != 0xD || t.fb != 0xD || t.fo != 0xD)) ||
      all.any (fun o => (o.step == .vec && t.vstr * elemBits o.fmt % 32 != 0) || (o.sc.isSome && t.vstr % 32 != 0)) ||
      (t.op == 0x3C && (decide (256 < t.topk) || nan t.p0 || neg t.p0 || nan t.p1 || neg t.p1))),
   (0x0203, t.vrtz && t.op != 0),
   (0x0204, all.any (fun o => o.off % 4 != 0 || (o.sc.getD 0) % 4 != 0) || (t.rmeta && t.rmOff % 8 != 0) ||
      (rIn ++ rOut).any fun r => !Rng.own r),
   (0x0205, rOut.any fun o => rIn.any fun i => Rng.meets o i)]

/-! #### DMX transfer and attention-page (Tables 08.8, 08.10) -/

def Task.src (t : Task) : Nat := t.d 0 + t.d 1 * 2 ^ 32
def Task.dst (t : Task) : Nat := t.d 2 + t.d 3 * 2 ^ 32
def Task.len0 (t : Task) : Nat := t.d 4
def Task.sspace (t : Task) : Nat := t.f 5 0 2
def Task.dspace (t : Task) : Nat := t.f 5 2 2
def Task.dloop (t : Task) : Bool := bitOf (t.d 5) 4
def Task.genEn (t : Task) : Bool := bitOf (t.d 5) 5
/-- STAT_EN and STAT of either descriptor. -/
def Task.statEn (t : Task) : Bool := if t.etype = 3 then bitOf (t.d 0) 12 else bitOf (t.d 5) 6
def Task.stat (t : Task) : Nat := if t.etype = 3 then t.f 10 0 23 else t.f 12 0 23
def Task.c1 (t : Task) : Nat := t.f 6 0 16 + 1
def Task.c2 (t : Task) : Nat := t.f 6 16 16 + 1
def Task.expgen (t : Task) : Nat := t.f 7 0 16

/-- The two bulk-memory views (Table 02.1). -/
def interBase : Nat := 0x1000_0000_0000
def interEnd : Nat := 0x12F0_0000_0000
def directBase : Nat := 0x2000_0000_0000
def directEnd : Nat := 0x22F0_0000_0000

/-- Whether a range of a space is all mapped: `ltns` licensed (R229, R30, R31). -/
def spaceOk (ltns space addr : Nat) (r : Rng) : Bool :=
  match space with
  | 0 => r.own
  | 1 => decide (addr / 2 ^ 32 < ltns) &&
      decide ((addr / 2 ^ 32 * 2 ^ 32 : Nat) ≤ r.1) && decide (r.2 < (addr / 2 ^ 32 * 2 ^ 32 + spadBytes : Nat))
  | 2 => decide ((interBase : Int) ≤ r.1) && decide (r.2 < interEnd)
  | _ => decide ((directBase : Int) ≤ r.1) && decide (r.2 < directEnd)

/-- Source and destination ranges of a transfer. -/
def dmxSrcRange (t : Task) : Rng := rangeOf t.src (t.sd 8) (t.sd 9) t.c1 t.c2 t.len0
def dmxDstRange (t : Task) : Rng := rangeOf t.dst (t.sd 10) (t.sd 11) t.c1 t.c2 t.len0

/-- A range brought into the tile's own scratchpad when it names its own LTN (R230). -/
def ownRange (self : Option Nat) (space addr : Nat) (r : Rng) : Nat × Rng :=
  if space = 1 && self == some (addr / 2 ^ 32) then
    (0, (r.1 - (addr / 2 ^ 32 * 2 ^ 32 : Nat), r.2 - (addr / 2 ^ 32 * 2 ^ 32 : Nat)))
  else (space, r)

/-- Checks 0x0301 to 0x0305. -/
def dmxChecks (s : State) (site : Nat) (t : Task) : List (Nat × Bool) :=
  let sr := dmxSrcRange t
  let dr := dmxDstRange t
  let self := s.ltnOfSite site
  let (ss, so) := ownRange self t.sspace t.src sr
  let (ds, dd) := ownRange self t.dspace t.dst dr
  let badAddr := fun sp a => (sp == 0 && decide (2 ^ 23 ≤ a)) ||
    (sp == 1 && (bitsOf a 23 9 != 0 || bitsOf a 43 21 != 0)) || (2 ≤ sp && decide (2 ^ 48 ≤ a))
  [(0x0301, t.f 5 7 25 != 0 || t.f 7 16 16 != 0 || t.d 13 != 0 || t.d 14 != 0 || t.d 15 != 0 || t.f 12 23 9 != 0 ||
      badAddr t.sspace t.src || badAddr t.dspace t.dst),
   (0x0302, t.len0 == 0 || t.len0 % 4 != 0 || decide (2 ^ 32 - 4 < t.len0 * t.c1 * t.c2)),
   (0x0303, t.src % 4 != 0 || t.dst % 4 != 0 || t.d 8 % 4 != 0 || t.d 9 % 4 != 0 || t.d 10 % 4 != 0 ||
      t.d 11 % 4 != 0 || t.stat % 8 != 0 || decide (spadBytes < t.stat + 8)),
   (0x0304, ss == ds && (ss != 1 || t.src / 2 ^ 32 == t.dst / 2 ^ 32) && so.meets dd),
   (0x0305, t.genEn && (decide (t.sspace < 2) || sr.1 / 65536 != sr.2 / 65536))]

/-- The lowest address of a space a transfer may not go beyond, for an address (R229, R30, R31). -/
def spaceEnd (space addr : Nat) : Int :=
  match space with
  | 0 => spadBytes
  | 1 => ((addr / 2 ^ 32 * 2 ^ 32 + spadBytes : Nat) : Int)
  | 2 => interEnd
  | _ => directEnd

/-- The lowest refused address of a transfer's ranges, source first, if any (R160, R230). -/
def dmxAddr (s : State) (t : Task) : Option Int :=
  let pick := fun (sp a : Nat) (r : Rng) =>
    if spaceOk s.ltns sp a r then none
    else if spaceOk s.ltns sp a (r.1, r.1) then some (spaceEnd sp a) else some r.1
  (pick t.sspace t.src (dmxSrcRange t)).or (pick t.dspace t.dst (dmxDstRange t))

/-- Sections of an attention-page task in use: offset, length, destination, stride. -/
def Task.sections (t : Task) : List (Nat × Nat × Nat × Int) :=
  (t.f 2 0 16, t.f 3 0 17, t.f 4 0 23, t.sd 5) ::
    (if t.f 7 0 17 = 0 then [] else [(t.f 6 0 16, t.f 7 0 17, t.f 8 0 23, t.sd 9)])

def Task.pcount (t : Task) : Nat := t.f 0 0 12 + 1
def Task.plist (t : Task) : Nat := t.f 1 0 23

/-- Destination ranges of an attention-page task, one per page and section. -/
def attDst (t : Task) : List Rng :=
  t.sections.flatMap fun x => (List.range t.pcount).map fun i =>
    ((x.2.2.1 : Int) + x.2.2.2 * i, (x.2.2.1 : Int) + x.2.2.2 * i + x.2.1 - 1)

/-- The page list and the status record of an attention-page task. -/
def attOther (t : Task) : List Rng :=
  ((t.plist : Int), (t.plist : Int) + 8 * t.pcount - 1) ::
    (if t.statEn then [((t.stat : Int), (t.stat : Int) + 7)] else [])

/-- Whether any two ranges of a list meet. -/
def anyMeet : List Rng → Bool
  | [] => false
  | r :: l => l.any (Rng.meets r) || anyMeet l

/-- Checks 0x0401 and 0x0402. -/
def attChecks (t : Task) : List (Nat × Bool) :=
  [(0x0401, t.f 0 13 19 != 0 || t.f 1 23 9 != 0 || t.f 2 16 16 != 0 || t.f 3 17 15 != 0 || t.f 4 23 9 != 0 ||
      t.f 6 16 16 != 0 || t.f 7 17 15 != 0 || t.f 8 23 9 != 0 || t.f 10 23 9 != 0 ||
      (List.range 5).any (fun i => t.d (11 + i) != 0) || t.plist % 8 != 0 || t.stat % 8 != 0 ||
      t.f 3 0 17 == 0 ||
      t.sections.any fun x => x.1 % 4 != 0 || x.2.1 % 4 != 0 || x.2.2.1 % 4 != 0 || decide (x.2.2.2 % 4 ≠ 0) ||
        decide (65536 < x.1 + x.2.1)),
   (0x0402, anyMeet (attDst t) || (attDst t).any fun d => (attOther t).any (Rng.meets d))]

/-- The first address an attention-page task names outside the own scratchpad, if any. -/
def attAddr (t : Task) : Option Int :=
  ((attDst t ++ attOther t).find? fun r => !Rng.own r).map fun r =>
    if r.1 < 0 || decide ((spadBytes : Int) ≤ r.1) then r.1 else spadBytes

/-- A detail field's low 16 bits of an address. -/
def low16 (a : Nat) : Nat := a % 2 ^ 16

/-- A synchronisation fault's cause at entry: identifier, detail, SYN error bit (R168, R169). -/
def syncCheck (s : State) (site ctx vid : Nat) (kind : Option Nat) : Option (Nat × Nat) :=
  match s.resolve site ctx vid with
  | none => some (vid, 9)
  | some n =>
    match kind with
    | none => none
    | some k => if (s.obj site n).barrier == (k == 2) then none else some (vid + 2 ^ 13, 12)

/-- What a task's entry answers: the fault code and detail of its refusal with the SYN error bit, if it fails a check
(R142, R168, R236). Descriptor checks come first, the lowest number first; then addresses; then sync identifiers (log entry
45). -/
def entryCheck (s : State) (site : Nat) (t : Task) : Option (Nat × Nat × Option Nat) :=
  if t.offset % 8 != 0 || spadBytes < t.offset + 32 + 8 * t.dlen then some (fDESC, 0x0001, none)
  else if t.poisoned then some (fDESC, 0x0002, none)
  else
    let specific := if t.ramp then [] else match t.etype with
      | 0 => mxaChecks s t
      | 1 => vxeChecks t
      | 2 => dmxChecks s site t
      | _ => attChecks t
    match (headerChecks t ++ specific).find? (·.2) with
    | some c => some (fDESC, c.1, none)
    | none =>
      let a := if t.etype = 2 then dmxAddr s t else if t.etype = 3 then attAddr t else none
      match a with
      | some x => some (fADDR, (x % 65536).toNat, none)
      | none =>
        let warr := if t.etype = 0 && !t.ramp && t.warrEn then [(t.warrVid, some 0)] else []
        let refs := (t.waits.map fun w => (w.vid, some w.kind)) ++ (t.sigs.map fun g => (g.1, (none : Option Nat))) ++ warr
        (refs.findSome? fun r => syncCheck s site t.ctx r.1 r.2).map fun e => (fSYNC, e.1, some e.2)

/-! ### Fired tasks -/

/-- The fired tasks of a tile that have not completed (R131). -/
def State.firedTasks (s : State) (site : Nat) : List Task :=
  let t := s.tile site
  t.mxa.instrs.map (·.task) ++ t.mxa.rampTask.toList ++ t.vxe.map (·.task) ++ t.dmx0.xfers.map (·.task) ++
    t.dmx1.xfers.map (·.task)

/-- BUSY of a context (R131). -/
def State.busy (s : State) (site ctx : Nat) : Bool := (s.firedTasks site).any fun t => t.ctx == ctx

/-- Counter OCC of the attribution record (Table 05.5): tags whose fired tasks begin or end. -/
def State.occUpdate (s : State) (site : Nat) : State :=
  let now := s.cyc site
  let tags := ((s.firedTasks site).map Task.atag).eraseDups
  let old := (s.tile site).occ
  let ended := old.filter fun e => !tags.contains e.1
  let t := ended.foldl (fun (u : State) e => u.telAdd site e.1 6 (now - e.2)) s
  let kept := old.filter fun e => tags.contains e.1
  let begun := (tags.filter fun a => !old.any fun e => e.1 == a).map fun a => (a, now)
  t.setTile site { t.tile site with occ := kept ++ begun }

/-! ### Signals and waits (chapter 06) -/

/-- A change to a sync object: context, identifier, value, engine of the task that makes it, whether it is a
receive-agent arrival. -/
structure Sig where
  ctx : Nat
  vid : Nat
  value : Nat
  engine : Nat
  rx : Bool
  deriving DecidableEq, Repr

/-- A synchronisation fault: SYN error bit and information, and the context's fault. -/
def State.syncFault (s : State) (site ctx code engine detail obj bit : Nat) (inj : Bool) : State :=
  let pg := pgSYN site 0
  let t := (s.setReg pg 0x054 (code + ctx * 2 ^ 8 + obj * 2 ^ 12)).setReg pg 0x058 detail
  (t.raise pg bit clsUnc .unc inj []).ctxFault site ctx code engine detail

/-- What an injection makes of a signal that would change object `n` (R44): an unbound reference, a saturation, or, for an
arrival of the receive agent, a kind mismatch. -/
def State.injSig (s : State) (site n : Nat) (g : Sig) : Option State :=
  let o := s.obj site n
  match s.takeInjOf (pgSYN site 0) (9 :: (if o.barrier then [] else [10]) ++ (if g.rx then [12] else [])) with
  | none => none
  | some (9, t) => some (t.syncFault site g.ctx fSYNC g.engine g.vid 0 9 true)
  | some (10, t) =>
    some ((t.setObj site n { o with count := 65535 }).syncFault site g.ctx fSYNC g.engine (g.vid + 2 ^ 15) n 10 true)
  | some (_, t) => some (t.syncFault site g.ctx fSYNC g.engine (g.vid + 2 ^ 13) n 12 true)

/-- One barrier arrival (R177), with the injection of SYN bit 11. -/
def State.arrive (s : State) (site n : Nat) (g : Sig) : State :=
  let o := s.obj site n
  let i := g.value % 16
  let sense := bitOf g.value 4
  let t := s.bump (pgSYN site 0) 0x060 1
  if !bitOf o.part i || !bitOf g.value 7 || bitsOf g.value 5 2 != 0 then
    s.syncFault site g.ctx fBARRIER g.engine (g.vid + 2 ^ 14) n 11 false
  else
    match s.takeInj (pgSYN site 0) 11 with
    | some u => u.syncFault site g.ctx fBARRIER g.engine g.vid n 11 true
    | none =>
      if bitOf o.last i == sense then s.syncFault site g.ctx fBARRIER g.engine g.vid n 11 false
      else if bitOf (if sense then o.arr1 else o.arr0) i then
        s.syncFault site g.ctx fBARRIER g.engine (g.vid + 2 ^ 13) n 11 false
      else
        let u := t.setObj site n { o with
          arr0 := if sense then o.arr0 else putBits o.arr0 i 1 1
          arr1 := if sense then putBits o.arr1 i 1 1 else o.arr1
          last := putBits o.last i 1 (b2n sense) }
        u.loupe site 2 g.ctx 0 [g.vid, g.value]

/-- Whether the open round of a barrier is complete. -/
def SyncObj.complete (o : SyncObj) : Bool :=
  o.bound && o.barrier && o.part != 0 && (if o.phase = 0 then o.arr0 else o.arr1) == o.part

/-- A release check of a barrier (R177): at most one round. -/
def State.release (s : State) (site n : Nat) : State :=
  let o := s.obj site n
  if o.complete then
    (s.setObj site n { o with
      arr0 := if o.phase = 0 then 0 else o.arr0
      arr1 := if o.phase = 0 then o.arr1 else 0
      phase := 1 - o.phase
      rc := (o.rc + 1) % 2 ^ 16 }).bump (pgSYN site 0) 0x068 1
  else s

/-- A round that was complete when it opened releases at the end of the next cycle (R178), before a wait is tested again (log
entry 190). -/
def State.nextRound (s : State) (site : Nat) : State :=
  ((List.range 128).filter fun n => (s.obj site n).complete).foldl (fun (u : State) n => u.release site n) s

/-- Ascending participant index, each participant's arrivals in the order issued (R178). -/
def byParticipant (gs : List Sig) : List Sig :=
  (List.range 16).flatMap fun i => gs.filter fun g => g.value % 16 == i

/-- The first element of a list for each value of a function. -/
def firstOf {α : Type} (f : α → Nat) : List α → List α
  | [] => []
  | a :: l => a :: (firstOf f l).filter fun b => f b != f a

/-- The changes of one cycle to one object (R148, R149, R177, R178): one fault for each context that saturates it. -/
def State.applyTo (s : State) (site n : Nat) (gs : List Sig) : State :=
  let o := s.obj site n
  if o.barrier then
    let (rx, sg) := gs.partition (·.rx)
    let t := rx.foldl (fun (u : State) g => u.syncFault site g.ctx fSYNC g.engine (g.vid + 2 ^ 13) n 12 false) s
    let u := (byParticipant sg).foldl (fun (u : State) g => u.arrive site n g) t
    u.release site n
  else
    let sum := o.count + (gs.map (·.value)).sum
    let t := (s.setObj site n { o with count := min 65535 sum }).bump (pgSYN site 0) 0x060 gs.length
    let u := gs.foldl (fun (u : State) g => u.loupe site 2 g.ctx 0 [g.vid, min 65535 sum]) t
    if 65535 < sum then
      (firstOf (·.ctx) (gs.filter fun g => g.value != 0)).foldl
        (fun (u : State) g => u.syncFault site g.ctx fSYNC g.engine (g.vid + 2 ^ 15) n 10 false) u
    else u

/-- The signals of one cycle of a tile: unbound references fault, the others change their objects together. -/
def State.signals (s : State) (site : Nat) (gs : List Sig) : State :=
  let (s, gs) := gs.foldl (fun (x : State × List Sig) g =>
    match (x.1.resolve site g.ctx g.vid).bind fun n => x.1.injSig site n g with
    | some t => (t, x.2)
    | none => (x.1, x.2 ++ [g])) (s, [])
  let found := gs.filterMap fun g => (s.resolve site g.ctx g.vid).map fun n => (n, g)
  let lost := gs.filter fun g => (s.resolve site g.ctx g.vid).isNone
  let t := ((found.map (·.1)).eraseDups).foldl
    (fun (u : State) n => u.applyTo site n ((found.filter fun x => x.1 == n).map (·.2))) s
  lost.foldl (fun (u : State) g => u.syncFault site g.ctx fSYNC g.engine g.vid 0 9 false) t

/-- The signal terms a task applies at completion, or at a stale-page failure (R219). -/
def Task.signalsOf (t : Task) (fail : Bool) : List Sig :=
  (t.sigs.filter fun g => g.2.2 == fail).map fun g => ⟨t.ctx, g.1, g.2.1, t.engine, false⟩

/-- Whether a wait is satisfied by the sync state, `used` counts already consumed in this cycle (R143, R146, R177). -/
def State.waitOk (s : State) (site ctx : Nat) (used : List (Nat × Nat)) (w : WTerm) : Bool :=
  if s.halting (pgSYN site 0) then false
  else match s.resolve site ctx w.vid with
    | none => false
    | some n =>
      let o := s.obj site n
      if w.kind = 2 then
        let i := w.count % 16
        let sense := bitOf w.count 4
        o.barrier && bitOf o.last i == sense && !bitOf (if sense then o.arr1 else o.arr0) i
      else
        let taken := ((used.filter fun u => u.1 == n).map (·.2)).sum
        !o.barrier && decide (w.count + taken ≤ o.count)

/-- The counts the CONSUME terms of a list take: object and count. -/
def State.consumption (s : State) (site ctx : Nat) (ws : List WTerm) : List (Nat × Nat) :=
  ws.filterMap fun w => if w.kind = 0 then (s.resolve site ctx w.vid).map fun n => (n, w.count) else none

/-- Consumed counts leave their semaphores. -/
def State.consume (s : State) (site : Nat) (used : List (Nat × Nat)) : State :=
  used.foldl (fun (u : State) x => let o := u.obj site x.1; u.setObj site x.1 { o with count := o.count - x.2 }) s

end Sys2Proof.Machine
end

