-- ==== Sys2Proof/Machine/Network.lean ====
section
/-! DEFINITION. The on-die network's own operations and its commands: tables, scheduled transfers and accord additions,
routed packets, LTN maps, multicast (chapter 09). -/

namespace Sys2Proof.Machine

open Sys2Proof

/-! ### Table entries (Table 09.12) -/

/-- Which table an entry is in: 0 transmit, 1 receive, 2 route, 3 to 7 the order list of output 0 to 4. -/
def tblKey (site sel idx : Nat) : Nat := (site * 8 + sel) * 1024 + idx

/-- The four words of an entry. -/
def State.entry (s : State) (site sel idx : Nat) : List Nat := tblGet (fun _ => [0, 0, 0, 0]) s.rtrTbl (tblKey site sel idx)

/-- A field of an entry word. -/
def ent (e : List Nat) (i lo w : Nat) : Nat := bitsOf (nthD 0 e i) lo w

/-- A transmit entry in use, with no reserved bit set. -/
def txValid (e : List Nat) : Bool :=
  ent e 0 0 1 == 1 && ent e 1 23 9 == 0 && ent e 2 23 9 == 0 && ent e 3 29 3 == 0

/-- A receive entry in use. -/
def rxValid (e : List Nat) : Bool :=
  ent e 0 0 1 == 1 && ent e 0 25 7 == 0 && ent e 1 23 9 == 0 && ent e 2 20 12 == 0 && ent e 3 24 8 == 0

/-- Operand sources of a route entry. -/
def routeOps (e : List Nat) : List Nat := (List.range (ent e 1 12 2 + 1)).map fun k => ent e 1 (3 * k) 3

/-- A route entry in use, with no reserved bit or encoding. -/
def routeValid (e : List Nat) : Bool :=
  ent e 0 0 1 == 1 && ent e 0 24 8 == 0 && decide (ent e 0 2 3 ≤ 4) && ent e 1 14 18 == 0 && ent e 2 31 1 == 0 &&
    (routeOps e).all (fun o => decide (o ≤ 4)) &&
    (if ent e 0 1 1 == 0 then ent e 1 12 2 == 0 else ent e 1 12 2 != 0 && decide (routeOps e).Nodup)

/-- An order entry in use. -/
def orderValid (e : List Nat) : Bool :=
  ent e 0 0 1 == 1 && ent e 0 27 5 == 0 && ent e 1 0 32 == 0 && ent e 2 0 32 == 0 && ent e 3 0 32 == 0

/-- Length in flits that a route entry, a transmit slot and a receive slot state. -/
def routeFlits (e : List Nat) : Nat := ent e 3 24 8 + 1
def txFlits (e : List Nat) : Nat := ent e 3 12 8 + 1
def rxFlits (e : List Nat) : Nat := ent e 2 12 8 + 1

/-! ### Buffers -/

/-- Buffers of a router: 0 to 3 its input ports, 4 its tile's transmit slots, 5 transfers passed to RX, 6 transfers passed
out of the grid, 7 sums of accord routes. -/
def bufKey (site src : Nat) : Nat := site * 8 + src

def State.buf (s : State) (site src : Nat) : List Xfer := tblGet (fun _ => []) s.inbuf (bufKey site src)

def State.setBuf (s : State) (site src : Nat) (l : List Xfer) : State :=
  { s with inbuf := tblSet (fun _ => []) s.inbuf (bufKey site src) l }

/-- The 80-bit header of a transfer (Table 09.2). -/
def Xfer.hdr80 (x : Xfer) : Nat := joinFields [(x.token % 2 ^ 40, 0), (x.keyIdx, 40), (x.pstep, 52), (x.rid, 68)]

/-- Flits of a transfer. -/
def Xfer.flits (x : Xfer) : Nat := x.words.length / 16

/-- Flits of a memory data packet: a header flit, and its data (R282). -/
def Packet.dataFlits (p : Packet) : Nat := 1 + (p.words.length + 15) / 16

/-- Scheduled flits that an input port of a router buffers: its transfers and its memory data packets. -/
def State.portFlits (s : State) (site dir : Nat) : Nat :=
  ((s.buf site dir).map Xfer.flits).sum +
    ((s.packets.filter fun p => p.ty == 0x20 && p.at_ == site && p.buf == dir).map Packet.dataFlits).sum

/-- Whether an input port of 16 flits takes more: they fit, or the port is empty and READY paces them (R249). -/
def State.portRoom (s : State) (site dir n : Nat) : Bool :=
  s.portFlits site dir == 0 || decide (s.portFlits site dir + n ≤ 16)

/-- Whether the buffer of an optical port takes a transfer. -/
def bufRoom (l : List Xfer) (x : Xfer) : Bool := l.isEmpty || decide ((l.map Xfer.flits).sum + x.flits ≤ 16)

/-- Records an event of RTR_EVT_INFO0 and RTR_EVT_INFO1. -/
def State.evtInfo (s : State) (site out entry route kind slot ctx : Nat) : State :=
  (s.setReg (pgRTR site 0) 0x04C (out + entry * 2 ^ 3 + route * 2 ^ 13 + kind * 2 ^ 22)).setReg (pgRTR site 0) 0x050
    (slot + ctx * 2 ^ 10)

/-- Kinds of RTR_EVT_INFO0. -/
def evStall : Nat := 1
def evFrame : Nat := 2
def evAccord : Nat := 3
def evRid : Nat := 4
def evKey : Nat := 5

/-- A transfer is cut or padded to a stated length; padding is zero and poisoned (R242). Whether the length differed. -/
def Xfer.fit (x : Xfer) (flits : Nat) : Xfer × Bool :=
  ({ x with words := (x.words ++ List.replicate (16 * flits - x.words.length) (PWord.mk 0 true)).take (16 * flits) },
    x.words.length != 16 * flits)

/-- A transfer enters where a length is stated: FRAME when it differs; padding is a poison origin (R242, R514). -/
def State.frame (s : State) (site : Nat) (x : Xfer) (flits out entry route slot ctx : Nat) : Xfer × State :=
  let (y, bad) := x.fit flits
  if bad || s.injPend (pgRTR site 0) 11 then
    let t := s.evtInfo site out entry route evFrame slot ctx
    (y, if x.words.length < 16 * flits then t.origin (pgRTR site 0) 11 .unc false (2 ^ 18 + site) slot
      else t.raise (pgRTR site 0) 11 clsUnc .unc false [])
  else (y, s)

/-- POISON_SEEN of a router for what it forwards or delivers (R619). -/
def State.rtrPoison (s : State) (site : Nat) (ws : List PWord) : State :=
  if ws.any (·.p) then s.poisonSeen (pgRTR site 0) else s

/-- A transfer enters the network at its own router's LOCAL source, its flits counted to its tag (R243, R244, R164). -/
def State.txEnter (s : State) (site : Nat) (x : Xfer) : State :=
  (s.setBuf site 4 (s.buf site 4 ++ [x])).telAdd site x.atag 3 x.flits

/-- An MXA output row goes to its transmit slot (R243): one transfer, or FRAME and nothing sent. -/
def State.txMxa (s : State) (site : Nat) (t : Task) (g : Nat) (row : MRow) (words : List PWord) : State :=
  let e := s.entry site 0 t.txslot
  if txValid e && ent e 0 1 1 == 0 then
    let x : Xfer := ⟨row.token, row.keyIdx, g % 2 ^ 16, ent e 3 20 9, words, row.badHdr, t.atag⟩
    let (y, u) := s.frame site x (txFlits e) 0 0 (ent e 3 20 9) t.txslot t.ctx
    u.txEnter site y
  else
    (s.evtInfo site 0 0 0 evFrame t.txslot t.ctx).raise (pgRTR site 0) 11 clsUnc .unc false []

/-! ### Link errors (R240, R267, R268) -/

/-- A corrected group on a link: its counts, and its wire's history. `first` if its flit counts with it. -/
def State.linkCorrected (s : State) (site dir wire : Nat) (first inj : Bool) : State :=
  let pg := pgRTR site 0
  let t := (s.bumpSat (pgRTR site 2) (0x048 + 16 * dir) (b2n first)).raise pg 8 clsCorr .corr inj [dir, wire]
  let l := t.link site dir
  let corr := (l.corr.filter fun e => t.time < e.2 + second) ++ [(wire, t.time)]
  let n := (corr.filter fun e => e.1 == wire).length
  let u := t.setLink site dir { l with corr := corr }
  if (decide (t.fld pg 0x040 0 8 < n) || t.injPend pg 14) && t.flag pg 0x040 8 && !l.retired.contains wire && !l.steer.contains wire then
    if isSeam site dir && t.fld (pgRTR site 2) (0x040 + 16 * dir) 8 4 < 8 then
      u.setLink site dir { u.link site dir with steer := l.steer ++ [wire] }
    else u.setFld (pgRTR site 2) (0x040 + 16 * dir) 3 1 1
  else u

/-- An uncorrectable group on a link: its counts, and the direction FAILED beyond 16 flits within one second (R268).
`first` if its flit counts with it. -/
def State.linkUncorrected (s : State) (site dir address : Nat) (first inj : Bool) : State :=
  let pg := pgRTR site 0
  let t := (s.bumpSat (pgRTR site 2) (0x04C + 16 * dir) (b2n first)).origin pg 9 .unc inj (2 ^ 16 + site * 8 + dir) address
  let l := t.link site dir
  let unc := inLastSecond t.time l.unc ++ if first then [t.time] else []
  let u := t.setLink site dir { l with unc := unc }
  if (decide (16 < unc.length) || u.injPend pg 16) && !u.linkFailed site dir then
    (u.setFld (pgRTR site 2) (0x040 + 16 * dir) 4 1 1).raise pg 16 clsUnc .unc false [dir]
  else u

/-- Poisons the two words of the 64-bit group that holds word `w`. -/
def poisonGroup (ws : List PWord) (w : Nat) : List PWord :=
  (List.range ws.length).zip ws |>.map fun e => if e.1 / 2 == w / 2 then { e.2 with p := true } else e.2

/-- Poisons every word. -/
def poisonAll (ws : List PWord) : List PWord := ws.map fun w => { w with p := true }

/-- One error on the way over a link: the transfer and the state after it; `seen` are the errors before it. -/
def State.linkErr (s : State) (site dir : Nat) (x : Xfer) (seen : List LinkUpset) (u : LinkUpset) (inj : Bool) : Xfer × State :=
  let corr := fun (v : LinkUpset) => match v with
    | .corrected _ _ => true
    | _ => false
  let first := !seen.any fun v => v.flit == u.flit && corr v == corr u
  match u with
  | .corrected _ wire => (x, s.linkCorrected site dir wire first inj)
  | .data w => ({ x with words := poisonGroup x.words w }, s.linkUncorrected site dir w first inj)
  | .control _ => ({ x with words := poisonAll x.words, badHdr := true }, s.linkUncorrected site dir 0 first inj)

/-- The errors of a transfer on a link, in order. -/
def State.linkErrs (site dir : Nat) : List LinkUpset → List LinkUpset → Xfer × State → Xfer × State
  | _, [], e => e
  | seen, u :: l, e => State.linkErrs site dir (u :: seen) l (e.2.linkErr site dir e.1 seen u false)

/-- A scheduled transfer crosses a link into a router (R240): its words and header after the link, and the state. An
injection gives its first flit one more error. -/
def State.crossLink (s : State) (site dir : Nat) (x : Xfer) (us : List LinkUpset) : Xfer × State :=
  let a := match s.takeInjOf (pgRTR site 0) [8, 9] with
    | some (8, t) => State.linkErrs site dir [.corrected 0 0] us (t.linkErr site dir x [] (.corrected 0 0) true)
    | some (_, t) => State.linkErrs site dir [.data 0] us (t.linkErr site dir x [] (.data 0) true)
    | none => State.linkErrs site dir [] us (x, s)
  let z := if a.2.linkFailed site dir then { a.1 with words := poisonAll a.1.words } else a.1
  (z, a.2.rtrPoison site z.words)

/-! ### Order lists (R248, R252) -/

def orderKey2 (site out : Nat) : Nat := site * 8 + out

/-- Progress of an output's order list. -/
def State.orderPos (s : State) (site out : Nat) : OrderPos := tblGet (fun _ => OrderPos.init) s.order (orderKey2 site out)

def State.setOrderPos (s : State) (site out : Nat) (p : OrderPos) : State :=
  { s with order := tblSet (fun _ => OrderPos.init) s.order (orderKey2 site out) p }

/-- The entry after entry `e` of an output's list: the next, or 0 past the last valid one (R248). -/
def State.nextEntry (s : State) (site out e : Nat) : Nat :=
  if e + 1 < 1024 && orderValid (s.entry site (3 + out) (e + 1)) then e + 1 else 0

/-- Memory data packets waiting at an output (R252). -/
def State.memWaiting (s : State) (site out : Nat) : Bool :=
  s.packets.any fun p => p.ty == 0x20 && p.at_ == site && p.inPort == 8 + out

/-- The cycle since which the longest-waiting memory data packet waits at an output. -/
def State.memSince (s : State) (site out : Nat) : Option Nat :=
  ((s.packets.filter fun p => p.ty == 0x20 && p.at_ == site && p.inPort == 8 + out).map (·.since)).min?

/-- An output leaves OPEN entries at which no memory data packet waits: its position at a ROUTE entry, or at an OPEN entry
with a packet waiting; none for an empty list. -/
def skipOpen : Nat → State → Nat → Nat → OrderPos → Option OrderPos
  | 0, _, _, _, _ => none
  | n + 1, s, site, out, p =>
    let e := s.entry site (3 + out) p.entry
    if !orderValid e then
      if p.entry = 0 then none else skipOpen n s site out { p with entry := 0, reps := 0 }
    else if ent e 0 1 1 = 0 then some p
    else if s.memWaiting site out then some p
    else skipOpen n s site out { p with entry := s.nextEntry site out p.entry, reps := 0 }

/-- `n` units of an output's current entry pass at a cycle; the list moves on after REPS of them. -/
def State.passed (s : State) (site out : Nat) (p : OrderPos) (n : Nat) : State :=
  let reps := ent (s.entry site (3 + out) p.entry) 0 11 16 + 1
  let q : OrderPos := if reps ≤ p.reps + n then ⟨s.nextEntry site out p.entry, 0, s.cyc site⟩
    else ⟨p.entry, p.reps + n, s.cyc site⟩
  s.setOrderPos site out q

/-- Every output's wait of R250 begins anew: the router starts to run. -/
def State.orderRestart (s : State) (site : Nat) : State :=
  (List.range 5).foldl (fun (t : State) o => t.setOrderPos site o { t.orderPos site o with last := t.cyc site }) s

/-- The transfer a route's source holds at its head: a port's head must name the route; LOCAL is the route's own slot. -/
def State.headOf (s : State) (site src route : Nat) : Option Xfer :=
  if src = 4 then (s.buf site 4).find? fun x => x.rid == route
  else match (s.buf site src).head? with
    | some x => if x.rid = route then some x else none
    | none => none

/-- Removes the head transfer of a route at a source. -/
def State.takeHead (s : State) (site src route : Nat) : State :=
  s.setBuf site src (dropFirst (fun x => x.rid == route) (s.buf site src))

/-- The router's scheduled plane passes transfers: it runs, is not halted, and its site forwards (R269, R438). -/
def State.rtrRuns (s : State) (site : Nat) : Bool :=
  s.runs (pgRTR site 0) && !s.halting (pgRTR site 0) && s.forwards site

/-- The sources whose transfer an output passes: an accord route's sum is ready in buffer 7. -/
def routeSrc (e : List Nat) : Nat := if ent e 0 1 1 = 0 then ent e 1 0 3 else 7

/-- The head of what a route entry passes. -/
def State.routeHead (s : State) (site route : Nat) (e : List Nat) : Option Xfer :=
  if ent e 0 1 1 = 0 then s.headOf site (ent e 1 0 3) route
  else (s.buf site 7).find? fun x => x.rid == route

/-- A transfer enters a seam link into a port: a run of back-to-back flits goes on, or a new one starts with σ at 0 and 2 entries
held (R418). -/
def State.seamRun (s : State) (site dir : Nat) (back : Bool) : State :=
  if isSeam site dir then
    let l := s.link site dir
    let sg : Int := if l.running && back then l.sigma else 0
    let pg := pgCLK (facetOf site)
    let off := 0x104 + 8 * seamIdx site dir
    (s.setLink site dir { l with running := true, sigma := sg }).setFld pg off 2 4 (max (s.fld pg off 2 4) (2 + (max (0 : Int) sg).toNat))
  else s

/-- TRANSFER_HOP (R242, R248): the output's current entry passes the next transfer of its route. -/
def execTransferHop (site : Site) (out : Fin 5) (upsets : List LinkUpset) (s : State) : Out :=
  let st := site.val
  let o := out.val
  match skipOpen 2050 s st o (s.orderPos st o) with
  | none => .next s
  | some p =>
    let oe := s.entry st (3 + o) p.entry
    let r := ent oe 0 2 9
    let e := s.entry st 2 r
    match (if ent oe 0 1 1 = 0 && routeValid e && ent e 0 2 3 == o && s.rtrRuns st &&
        !(o != 4 && attachment st o == .optical && ent e 0 10 5 != 0) then s.routeHead st r e else none) with
    | none => .next s
    | some x =>
      let go := fun (t : State) => (((t.takeHead st (routeSrc e) r).setOrderPos st o p).passed st o p 1)
      let (y, t) := s.frame st x (routeFlits e) o p.entry r 0 (ent e 2 28 3)
      let z := { y with rid := ent e 0 15 9 }
      let t := t.loupe st 4 (ent e 2 28 3) 0 [x.hdr80 % 2 ^ 32, x.hdr80 / 2 ^ 32 % 2 ^ 32, x.hdr80 / 2 ^ 64, r, o]
      if o = 4 then .next ((go t).setBuf st 5 ((go t).buf st 5 ++ [{ z with rid := ent e 0 5 10 }]))
      else
        let t := (go t).bump (pgRTR st 4) 0x040 z.flits
        match neighbour st o with
        | some n =>
          let d := oppositeDir o
          if s.forwards n && !(s.link n d).readyLow && s.portRoom n d z.flits then
            let t := t.seamRun n d (decide (s.cyc st ≤ p.last + z.flits))
            let (w, u) := t.crossLink n d z upsets
            .next (u.setBuf n d (u.buf n d ++ [w]))
          else .next s
        | none =>
          if attachment st o == .optical && bufRoom (s.buf st 6) z then
            .next (t.setBuf st 6 (t.buf st 6 ++ [{ z with rid := ent e 0 5 10 }]))
          else .next s

/-- Counter of a slot: transfers sent or delivered since it was loaded (`sel` 0 or 1). -/
def State.slotK (s : State) (site sel n : Nat) : Nat := tblGet (fun _ => 0) s.slotCtr (tblKey site sel n)

def State.setSlotK (s : State) (site sel n k : Nat) : State :=
  { s with slotCtr := tblSet (fun _ => 0) s.slotCtr (tblKey site sel n) k }

/-- Whether a transmit slot stopped on an unbound identifier (R245): kept in the counter table under selector 2. -/
def State.slotStopped (s : State) (site n : Nat) : Bool := s.slotK site 2 n == 1

/-- Reads of a transmit slot: words with no conflict; the first shows `ecc`. -/
def txRead (site : Nat) : List Nat → Ecc → State → List PWord × State
  | [], _, s => ([], s)
  | w :: l, e, s =>
    let (v, t) := s.bankRead site w e
    let (vs, u) := txRead site l .clean t
    (v :: vs, u)

/-- The engine recorded for a fault of the receive agent: the manual gives it no code (log entry 4). -/
def State.rxEngine (s : State) : Nat × State :=
  let (v, t) := s.fresh
  (v % 8, t)

/-- A transmit slot's VID that is unbound: its ARM_VID, or a DONE_VID in use (R245). -/
def State.slotLost (s : State) (site n : Nat) : Option Nat :=
  let e := s.entry site 0 n
  let ctx := ent e 0 2 3
  if (s.resolve site ctx (ent e 0 5 13)).isNone then some (ent e 0 5 13)
  else if ent e 0 31 1 == 1 && (s.resolve site ctx (ent e 0 18 13)).isNone then some (ent e 0 18 13)
  else none

/-- A SPAD slot may send: in use, not stopped, none of its transfers waiting. -/
def State.slotOpen (s : State) (site n : Nat) : Bool :=
  let e := s.entry site 0 n
  txValid e && ent e 0 1 1 == 1 && !s.slotStopped site n && !(s.buf site 4).any fun x => x.rid == ent e 3 20 9

/-- The semaphore whose count a slot that may send consumes, if it has one. -/
def State.slotArm (s : State) (site n : Nat) : Option Nat :=
  if s.slotOpen site n && (s.slotLost site n).isNone then
    let e := s.entry site 0 n
    match s.resolve site (ent e 0 2 3) (ent e 0 5 13) with
    | some a => if (s.obj site a).barrier || (s.obj site a).count == 0 then none else some a
    | none => none
  else none

/-- A SPAD slot sends its transfer k: the words and the header record are read, and the transfer enters the network; then its
DONE is signalled (R244). -/
def State.slotSend (s : State) (site n : Nat) (ecc : Ecc) : State :=
  let e := s.entry site 0 n
  let ctx := ent e 0 2 3
  let k := s.slotK site 0 n
  let depth := ent e 3 0 12 + 1
  let fl := txFlits e
  let base := (ent e 1 0 23 + k % depth * 64 * fl) / 4
  let hdr := (ent e 2 0 23 + 16 * (k % depth)) / 4
  let (ws, t) := txRead site ((List.range (16 * fl)).map fun i => (base + i) % spadWords) ecc s
  let (hs, t) := txRead site ((List.range 4).map fun i => (hdr + i) % spadWords) .clean t
  let h := fun i => (nthD ⟨0, false⟩ hs i).v
  let x : Xfer := ⟨h 0 + bitsOf (h 1) 0 8 * 2 ^ 32, bitsOf (h 1) 8 12, bitsOf (h 2) 0 16, ent e 3 20 9, ws,
    hs.any (·.p), bitsOf (h 2) 16 12⟩
  let u := (t.txEnter site x).setSlotK site 0 n (k + 1)
  if ent e 0 31 1 == 1 then
    let (eng, v) := u.rxEngine
    v.signals site [⟨ctx, ent e 0 18 13, 1, eng, true⟩]
  else u

/-- The 16-byte header record of R244, bytes 10 and 11 zero. -/
def Xfer.hdrRecord (x : Xfer) : List PWord :=
  [⟨x.token % 2 ^ 32, x.badHdr⟩, ⟨x.token / 2 ^ 32 % 2 ^ 8 + x.keyIdx * 2 ^ 8, x.badHdr⟩, ⟨x.pstep, x.badHdr⟩,
   ⟨0, x.badHdr⟩]

/-- RX_DELIVERY (R246, R184): the oldest transfer passed to RX is written to its receive slot, and its arrival applied. -/
def execRxDelivery (site : Site) (s : State) : Out :=
  let st := site.val
  match s.buf st 5 with
  | [] => .next s
  | x :: l =>
    let t := s.setBuf st 5 l
    let n := x.rid
    let e := t.entry st 1 n
    if rxValid e then
      let ctx := ent e 0 1 3
      let (y, t) := t.frame st x (rxFlits e) 4 0 0 n ctx
      let j := t.slotK st 1 n
      let depth := ent e 2 0 12 + 1
      let base := (ent e 1 0 23 + j % depth * 64 * rxFlits e) / 4
      let b : By := ⟨st, pRX, ctx, none⟩
      let io : Io := ⟨t.rtrPoison st y.words, []⟩
      let io := io.writeN b (base % spadWords) y.words
      let io := if ent e 3 23 1 == 1 then io.writeN b ((ent e 3 0 23 + 16 * (j % depth)) / 4 % spadWords) y.hdrRecord else io
      let (eng, u) := (io.s.setSlotK st 1 n (j + 1)).rxEngine
      .next (u.signals st [⟨ctx, ent e 0 4 13, ent e 0 17 8, eng, true⟩])
    else .next ((t.evtInfo st 4 0 0 evFrame n 0).raise (pgRTR st 0) 11 clsUnc .unc false [])

/-- A stall event of an output (R250). -/
def State.stall (s : State) (site out entry route kind ctx : Nat) : State :=
  (s.evtInfo site out entry route kind 0 ctx).raise (pgRTR site 0) 10 clsUnc .none false []

/-- The ROUTE entry an output stands at, if it stands at one. -/
def State.routeAt (s : State) (site out : Nat) : Option OrderPos :=
  (skipOpen 2050 s site out (s.orderPos site out)).filter fun p => ent (s.entry site (3 + out) p.entry) 0 1 1 == 0

/-- The output's current entry has passed no flit for 2^24 cycles; KIND is 4 when a source's head names no route that takes
it. -/
def State.entryStall (s : State) (site out : Nat) (p : OrderPos) : State :=
  let t := if s.injPend (pgRTR site 0) 10 then s else s.waitCyc site (p.last + 2 ^ 24)
  let r := ent (t.entry site (3 + out) p.entry) 0 2 9
  let e := t.entry site 2 r
  let lost := (routeOps e).any fun src => src < 4 && (t.buf site src).head?.any fun x =>
    !(routeValid (t.entry site 2 x.rid) && (routeOps (t.entry site 2 x.rid)).contains src)
  (t.setOrderPos site out { p with last := t.cyc site }).stall site out p.entry r (if lost then evRid else evStall) (ent e 2 28 3)

/-- A memory data packet has waited at an output for 2^24 cycles since cycle `c` (R284). -/
def State.packetStall (s : State) (site out c : Nat) : State :=
  let t := if s.injPend (pgRTR site 0) 10 then s else s.waitCyc site (c + 2 ^ 24)
  let again := fun (p : Packet) =>
    if p.ty == 0x20 && p.at_ == site && p.inPort == 8 + out && p.since == c then { p with since := t.cyc site } else p
  ({ t with packets := t.packets.map again } : State).stall site out (t.orderPos site out).entry 0x1FF evStall 0

/-- ROUTER_STALL (R250, R284): the wait of the output that is longest, of its current entry or of a memory data packet,
reaches 2^24 cycles. -/
def execRouterStall (site : Site) (out : Fin 5) (s : State) : Out :=
  let st := site.val
  let o := out.val
  if s.rtrRuns st then
    match s.routeAt st o, s.memSince st o with
    | some p, some c => .next (if p.last ≤ c then s.entryStall st o p else s.packetStall st o c)
    | some p, none => .next (s.entryStall st o p)
    | none, some c => .next (s.packetStall st o c)
    | none, none => .next s
  else .next s

/-- The word pairs of AF16 halfwords of a transfer. -/
def halves (ws : List PWord) : List (Nat × Bool) := ws.flatMap fun w => [(w.v % 2 ^ 16, w.p), (w.v / 2 ^ 16, w.p)]

/-- Joins halfwords into words; a word is poisoned when either half is. -/
def joinHalves : List (Nat × Bool) → List PWord
  | a :: b :: l => ⟨a.1 + b.1 * 2 ^ 16, a.2 || b.2⟩ :: joinHalves l
  | _ => []

/-- One accord element (R253): operands in order, under seed S; whether any step saturated. -/
def accordElem (seed : List Nat) (node c : Nat) : Nat → Nat → List Nat → Nat × Bool
  | _, acc, [] => (acc, false)
  | k, acc, x :: l =>
    let (v, o) := srStep (dither seed (node + k - 1) c) (decodeAF16 acc) (decodeAF16 x)
    let (w, p) := accordElem seed node c (k + 1) v l
    (w, o || p)

/-- The elements of an accord sum with their poison (R253, R255). -/
def accordSum (seed : List Nat) (node : Nat) (ops : List (List (Nat × Bool))) : List (Nat × Bool) × Bool :=
  match ops with
  | [] => ([], false)
  | a :: l =>
    let r := (List.range a.length).map fun c =>
      let x := nthD (0, false) a c
      let v := accordElem seed node c 1 x.1 (l.map fun o => (nthD (0, false) o c).1)
      ((v.1, x.2 || l.any fun o => (nthD (0, false) o c).2), v.2)
    (r.map (·.1), r.any (·.2))

/-- ACCORD_ADD (R253 to R255): an accord node whose operands have all arrived forms their sum. -/
def execAccordAdd (site : Site) (route : Fin 512) (s : State) : Out :=
  let st := site.val
  let r := route.val
  let e := s.entry st 2 r
  let o := ent e 0 2 3
  let srcs := routeOps e
  let heads := srcs.filterMap fun src => s.headOf st src r
  let pos := skipOpen 2050 s st o (s.orderPos st o)
  let cur := pos.any fun p => ent (s.entry st (3 + o) p.entry) 0 1 1 == 0 && ent (s.entry st (3 + o) p.entry) 0 2 9 == r
  if routeValid e && ent e 0 1 1 == 1 && s.rtrRuns st && cur && heads.length == srcs.length &&
      !((s.buf st 7).any fun x => x.rid == r) then
    match heads with
    | [] => .next s
    | h :: rest =>
      let ctx := ent e 2 28 3
      let ent0 := (pos.map (·.entry)).getD 0
      let fl := routeFlits e
      match s.resolveKey st ctx h.keyIdx with
      | none =>
        let (eng, t) := (s.evtInfo st o ent0 r evKey 0 ctx).rxEngine
        .next (t.ctxFault st ctx fKEY eng h.keyIdx)
      | some key =>
        let agree := rest.all fun x => x.token == h.token && x.keyIdx == h.keyIdx && x.pstep == h.pstep
        let bad := !agree || heads.any (·.badHdr) || s.injPend (pgRTR st 0) 12
        let framed := heads.foldl (fun (a : List Xfer × State) x =>
          let (y, u) := a.2.frame st x fl o ent0 r 0 ctx
          (a.1 ++ [y], u)) (([] : List Xfer), s)
        let seed := seedOf key ⟨ent e 2 0 16, h.token, ent e 3 0 24, h.pstep, 0x04⟩
        let (els, ovf) := accordSum seed (ent e 2 16 12) (framed.1.map fun x => halves x.words)
        let ws := joinHalves els
        let y : Xfer := { h with words := if bad then poisonAll ws else ws }
        let t := srcs.foldl (fun (u : State) src => u.takeHead st src r) framed.2
        let t := (t.setBuf st 7 (t.buf st 7 ++ [{ y with rid := r }])).bump (pgRTR st 4) 0x048 fl
        let t := if ovf then t.setFld (pgRTR st 0) 0x048 0 1 1 else t
        let t := t.rtrPoison st y.words
        .next (if bad then (t.evtInfo st o ent0 r evAccord 0 ctx).origin (pgRTR st 0) 12 .unc false (2 ^ 18 + st) r else t)
  else .next s

/-! ### Routed packets (R258 to R261) -/

/-- CRC-8 with polynomial 0x07, most significant bit first (log entry 211). -/
def crc8Byte : Nat → Nat → Nat
  | 0, c => c
  | k + 1, c => crc8Byte k (if 128 ≤ c then (2 * c % 256) ^^^ 0x07 else 2 * c)

def crc8 : Nat → List Nat → Nat
  | c, [] => c
  | c, b :: l => crc8 (crc8Byte 8 (c ^^^ b)) l

/-- CRC-32C (reflected polynomial 0x82F63B78) of bytes. -/
def crcByte : Nat → Nat → Nat
  | 0, c => c
  | k + 1, c => crcByte k (if c % 2 = 1 then (c / 2) ^^^ 0x82F63B78 else c / 2)

def crc32cGo : Nat → List Nat → Nat
  | c, [] => c
  | c, b :: l => crc32cGo (crcByte 8 (c ^^^ b)) l

def crc32c (bs : List Nat) : Nat := crc32cGo 0xFFFF_FFFF bs ^^^ 0xFFFF_FFFF

/-- A value as `n` bytes, lowest first. -/
def leBytes (v : Nat) : Nat → List Nat
  | 0 => []
  | n + 1 => v % 256 :: leBytes (v / 256) n

/-- Payload words of a routed packet: LEN of them, at most 32 (R258). -/
def Packet.payload (p : Packet) : List PWord := p.words.take 32

/-- Bits [55:0] of a routed packet's header (Table 09.4). -/
def Packet.head56 (p : Packet) : Nat :=
  joinFields [(p.ty % 32, 0), (p.dsite % 2048, 5), (p.dltn % 2048, 16), (p.req % 2048, 27), (p.tag % 256, 38),
    (p.payload.length, 46), (p.cause % 8, 52), (b2n p.rsite, 55)]

/-- A routed packet's header flit, with HCHK. -/
def Packet.header (p : Packet) : Nat := p.head56 + crc8 0 (leBytes p.head56 7) * 2 ^ 56

/-- The poison word: bit j marks payload word j. -/
def Packet.poisonWord (p : Packet) : Nat :=
  (((List.range 32).zip p.payload).filter fun e => e.2.p).foldl (fun a e => a + 2 ^ e.1) 0

/-- The routed flits of a packet: header, address word, payload, poison word, trailer (R258). -/
def Packet.flits (p : Packet) : List Nat :=
  let body := [p.header, p.addr % 2 ^ 64] ++ p.payload.map (·.v % 2 ^ 64) ++ [p.poisonWord]
  body ++ [crc32c (body.flatMap fun f => leBytes f 8)]

/-- Whether received flits hold the header check, and whether the CRC. -/
def hchkHolds (fs : List Nat) : Bool :=
  let h := nthD 0 fs 0
  h / 2 ^ 56 % 256 == crc8 0 (leBytes h 7)
def crcHolds (fs : List Nat) : Bool :=
  fs.getLast? == some (crc32c ((fs.take (fs.length - 1)).flatMap fun f => leBytes f 8))

/-- Packet type codes of Table 09.5; memory data packets of chapter 10 are 0x20. -/
def tRD : Nat := 0x00
def tWR : Nat := 0x01
def tAMO : Nat := 0x02
def tCAS : Nat := 0x03
def tMEM : Nat := 0x04
def tRDRSP : Nat := 0x08
def tWRACK : Nat := 0x09
def tAMORSP : Nat := 0x0A
def tLOSS : Nat := 0x0B
def tRCREL : Nat := 0x0C
def tREGRD : Nat := 0x10
def tREGWR : Nat := 0x11
def tREGRSP : Nat := 0x12
def tSTAGE : Nat := 0x19
def tVERDICT : Nat := 0x1A
def tCOMMIT : Nat := 0x1B
def tDATA : Nat := 0x20

/-- Channel of a packet type: 0 REQ, 1 RSP, 2 CTL; none is unknown. -/
def channelOf (ty : Nat) : Option Nat :=
  if ty ≤ 0x04 then some 0
  else if 0x08 ≤ ty ∧ ty ≤ 0x0C then some 1
  else if (0x10 ≤ ty ∧ ty ≤ 0x12) ∨ ty = 0x14 ∨ (0x18 ≤ ty ∧ ty ≤ 0x1B) then some 2
  else if ty = 0x20 then some 3
  else none

/-- Service corners in service: SVC_STATUS [13:10] (R21). -/
def State.liveCorners (s : State) : List Nat :=
  ((List.range 4).filter fun i => s.flag pgSVC 0x048 (10 + i) && s.forwards (nthD 0 corners i)).map fun i => nthD 0 corners i

/-- The site a requester's answers go to: its own index, the site bound to its LTN, or a service corner (R200, R21). -/
def State.requesterSite (s : State) (at_ req : Nat) (rsite : Bool) : Option Nat :=
  if rsite then some req
  else if 2040 ≤ req then nearestCorner s.liveCorners at_
  else s.siteOfLtn at_ req

/-- A LOSS notice for a request goes to its requester; without a way to it, nothing is sent. -/
def State.sendLoss (s : State) (at_ req tag : Nat) (rsite : Bool) (cause : Nat) : State :=
  match s.requesterSite at_ req rsite with
  | none => s
  | some d => (s.inject ⟨tLOSS, at_, 4, d, 0x7FF, req, tag, cause, rsite, 0, [], 4, s.cyc at_⟩).bump (pgRTR at_ 4) 0x068 1

/-- A response packet to a requester. -/
def State.respond (s : State) (at_ ty req tag : Nat) (rsite : Bool) (addr : Nat) (ws : List PWord) : State :=
  match s.requesterSite at_ req rsite with
  | none => s
  | some d => s.inject ⟨ty, at_, 4, d, 0x7FF, req, tag, 0, rsite, addr, ws, 4, s.cyc at_⟩

/-- A packet discarded at a router: RPKT_DROP and RPKT (R259, R261). -/
def State.dropPacket (s : State) (site : Nat) (inj : Bool) : State :=
  (s.bump (pgRTR site 4) 0x058 1).raise (pgRTR site 0) 13 clsUnc .unc inj []

/-- The port a packet takes next: along the row to its column, then along the column (R259). -/
def nextPort (at_ d : Nat) : Option Nat :=
  if colOf at_ < colOf d then some 1
  else if colOf d < colOf at_ then some 3
  else if rowOf at_ < rowOf d then some 2
  else if rowOf d < rowOf at_ then some 0
  else none

/-- A packet whose CRC fails: discarded, with a LOSS notice to its requester, or to DSITE for a response (R261). -/
def State.crcFail (s : State) (site : Nat) (p : Packet) (inj : Bool) : State :=
  let t := s.dropPacket site inj
  match channelOf p.ty with
  | some 0 => t.sendLoss site p.req p.tag p.rsite 1
  | some 1 =>
    if p.ty = tRCREL then t
    else (t.inject ⟨tLOSS, site, 4, p.dsite, 0x7FF, p.req, p.tag, 1, p.rsite, 0, [], 4, t.cyc site⟩).bump (pgRTR site 4) 0x068 1
  | _ => t

/-- Routed packets buffered at a router. -/
def State.packetsAt (s : State) (site : Nat) : List Packet :=
  s.packets.filter fun p => p.at_ == site && p.ty != tDATA && p.inPort ≤ 4

/-- The output a packet takes at a router: a port, or 4 at its destination. -/
def Packet.outAt (p : Packet) (site : Nat) : Nat := (nextPort site p.dsite).getD 4

/-- Whether an output has the credit for a packet of a channel: the buffer behind a port is free (R259). -/
def State.credit (s : State) (site out ch : Nat) : Bool :=
  match neighbour site out with
  | none => out == 4
  | some n => s.forwards site && s.forwards n &&
      !s.packets.any fun q => q.at_ == n && q.inPort == oppositeDir out && channelOf q.ty == some ch

/-- The input served last at an output for a channel. -/
def rrKey (site out ch : Nat) : Nat := (site * 8 + out) * 4 + ch
def State.rrLast (s : State) (site out ch : Nat) : Nat := tblGet (fun _ => 4) s.rr (rrKey site out ch)
def State.setRr (s : State) (site out ch i : Nat) : State := { s with rr := tblSet (fun _ => 4) s.rr (rrKey site out ch) i }

/-- The packet that an output serves next of a channel: inputs round-robin, the oldest of its input (R259). -/
def State.rrNext (s : State) (site out ch : Nat) : Option Packet :=
  let l := (s.packetsAt site).filter fun q => q.outAt site == out && channelOf q.ty == some ch
  (List.range 5).findSome? fun k => l.find? fun q => q.inPort == (s.rrLast site out ch + 1 + k) % 5

/-- A subchannel of the site has its queue full while a MEM_REQ waits at the router: no REQ packet moves there (R291). -/
def State.reqHeld (s : State) (site : Nat) : Bool :=
  (mcsOfSite site).any (fun n => decide (1024 ≤ (s.mcc n).queue.length)) &&
    s.packets.any fun p => p.at_ == site && p.ty == tMEM && p.dsite == site && p.inPort ≤ 4

/-- Whether an output serves a packet now: its channel's turn, before lower channels, with credit (R259, R291). -/
def State.served4 (s : State) (site : Nat) (p : Packet) (ch : Nat) : Bool :=
  let o := p.outAt site
  let ahead := [0, 1, 2].any fun c => decide (ch < c) && s.credit site o c &&
    (s.packetsAt site).any fun q => q.outAt site == o && channelOf q.ty == some c
  s.rrNext site o ch == some p && s.credit site o ch && !ahead && !(ch == 0 && s.reqHeld site)

/-- A packet arrives at a router's port from a neighbour or from outside (R261, R44): with an error or the injection of bit 13
it is discarded there. -/
def State.arrivePort (s : State) (n d : Nat) (p : Packet) (u : PktUpset) : State :=
  let (inj, t) := s.injected (pgRTR n 0) 13
  if u == .hchk && !inj then t.dropPacket n false
  else if inj || u == .crc then t.crcFail n p inj
  else { t with packets := t.packets ++ [{ p with at_ := n, inPort := d, since := t.cyc n }] }

/-- ROUTED_HOP (R259 to R261): packet `index` of those at a router moves to the next router against its credit, or is
ejected at its destination, which answers MOVED when its site is not bound to DLTN. A packet of unknown TYPE is discarded. -/
def execRoutedHop (site : Site) (index : Nat) (upset : PktUpset) (s : State) : Out :=
  let st := site.val
  match (s.packetsAt st)[index]? with
  | none => .next s
  | some p =>
    let without := { s with packets := s.packets.erase p }
    match channelOf p.ty with
    | none => .next (without.dropPacket st false)
    | some ch =>
      if !s.served4 st p ch then .next s
      else
        let o := p.outAt st
        let without := without.setRr st o ch p.inPort
        match neighbour st o with
        | none =>
          if ch = 0 && p.dltn != 0x7FF && s.ltnOfSite st != some p.dltn then
            .next (without.sendLoss st p.req p.tag p.rsite 2)
          else .next { without with packets := without.packets ++ [{ p with inPort := 5 }] }
        | some n =>
          let t := (without.bump (pgRTR st 4) 0x050 1).rtrPoison st p.words
          let t := t.loupe st 5 0 0 [p.header % 2 ^ 32, p.header / 2 ^ 32, p.addr % 2 ^ 32, p.addr / 2 ^ 32]
          .next (t.arrivePort n (oppositeDir o) p upset)

/-! ### Multicast (R262) -/

/-- How a multicast copy fares on the way into a router over a port: it passes, the branch is closed, its CRC fails. -/
inductive Branch
  | open_
  | closed
  | crc
  deriving DecidableEq, Repr

/-- A line of routers from a start, step by step, until a copy is discarded: routers sent to, routers that pass it on, and,
if it was discarded, the router that did so: the one before a closed branch, or the one that finds the CRC failing (R262). -/
def reachLine (br : Nat → Nat → Branch) (dir : Nat) : Nat → Nat → List Nat × List Nat × Option Nat
  | 0, _ => ([], [], none)
  | k + 1, at_ =>
    match neighbour at_ dir with
    | none => ([], [], none)
    | some n =>
      match br n (oppositeDir dir) with
      | .open_ =>
        let (a, l, c) := reachLine br dir k n
        (n :: a, n :: l, c)
      | .closed => ([], [], some at_)
      | .crc => ([n], [], some n)

/-- A rectangle of sites from the address word of R262: row bounds, column bounds. -/
def rectOf (w : Nat) : Nat × Nat × Nat × Nat := (bitsOf w 0 6, bitsOf w 8 6, bitsOf w 16 6, bitsOf w 24 6)

/-- The branches of a multicast: sites reached along its lines, the routers that discarded a copy, and the routers that sent
one, once for each. `from_` is the corner it enters at. -/
def mcastReach (br : Nat → Nat → Branch) (from_ : Nat) (rect : Nat) : List Nat × List Nat × List Nat :=
  let (rl, rh, cl, ch) := rectOf rect
  let c0 := colOf from_
  let r0 := rowOf from_
  let east := reachLine br 1 (ch - c0) from_
  let west := reachLine br 3 (c0 - cl) from_
  let spine := (from_ :: east.2.1 ++ west.2.1).filter fun x => cl ≤ colOf x ∧ colOf x ≤ ch
  let cols := spine.map fun x => (x, reachLine br 2 (rh - r0) x, reachLine br 0 (r0 - rl) x)
  let sites := cols.flatMap fun e => (e.1 :: e.2.1.2.1 ++ e.2.2.2.1).filter fun x => rl ≤ rowOf x ∧ rowOf x ≤ rh
  let cuts := east.2.2.toList ++ west.2.2.toList ++ cols.flatMap fun e => e.2.1.2.2.toList ++ e.2.2.2.2.toList
  let sent := (east.1.map (· - 1)) ++ (west.1.map (· + 1)) ++
    cols.flatMap fun e => (e.2.1.1.map (· - 36)) ++ (e.2.2.1.map (· + 36))
  (sites, cuts, sent)

/-- How a multicast copy goes into a site over a port: not into a site that does not forward or over a FAILED link; `bad`
lists the ports at which a copy's CRC fails (R262). -/
def State.branch (s : State) (bad : List (Nat × Nat)) (n dir : Nat) : Branch :=
  if !s.forwards n || s.linkFailed n dir then .closed else if bad.contains (n, dir) then .crc else .open_

/-- The site of a rectangle that lies nearest to a corner. -/
def nearestIn (rect corner : Nat) : Nat :=
  let (rl, rh, cl, ch) := rectOf rect
  siteAt (max rl (min rh (rowOf corner))) (max cl (min ch (colOf corner)))

/-- The corner a multicast enters at: the nearest to its rectangle; an earlier one wins a tie (R21, log entry 212). -/
def State.mcastCorner (s : State) (rect : Nat) : Option Nat :=
  s.liveCorners.foldl (fun best c =>
    match best with
    | none => some c
    | some b => if hops c (nearestIn rect c) < hops b (nearestIn rect b) then some c else some b) none

/-- The service complex sends a multicast: the sites it reaches, and the counters. -/
def State.mcast (s : State) (rect : Nat) (bad : List (Nat × Nat)) : List Nat × State :=
  match s.mcastCorner rect with
  | none => ([], s)
  | some c =>
    let (sites, cuts, sent) := mcastReach (s.branch bad) c rect
    let t := cuts.foldl (fun (u : State) x => u.bump (pgRTR x 4) 0x060 1) s
    (sites, sent.foldl (fun (u : State) x => u.bump (pgRTR x 4) 0x050 1) t)

/-! ### LTN maps (R263 to R265, R209) -/

/-- Frees, in the banks of a router's own tile, replay-cache entries of the LTNs that its switch rebinds; every router does so
as it switches, so that a change frees them in every bank of the die (R209, R264). -/
def State.freeRebound (s : State) (at_ : Nat) (new : List Nat) : State :=
  let old := (s.map at_).sites
  let moved := (List.range (max old.length new.length)).filter fun n => old[n]? != new[n]?
  let d := s.spd at_
  s.setSpd at_ { d with banks := d.banks.map fun b =>
    (b.1, { b.2 with cache := b.2.cache.filter fun e => e.rsite || !moved.contains e.req }) }

/-- A map as the bytes its CRC covers: one 16-bit entry per LTN (R264). -/
def mapBytes (m : List Nat) : List Nat := m.flatMap fun x => [x % 256, x / 256 % 256]

/-- The staged copy: the current map with pairs applied, `n` entries long. -/
def stageMap (cur : List Nat) (n : Nat) (pairs : List (Nat × Nat)) : List Nat :=
  pairs.foldl (fun m e => listSet m e.1 e.2) ((cur ++ List.replicate (n - cur.length) 0).take n)

/-- The verdict of a router on a staged map (R264). -/
def mapVerdictOf (cur : RtrMap) (epoch : Nat) (m : List Nat) (crc : Nat) : Nat :=
  if epoch ≠ (cur.epoch + 1) % 2 ^ 32 then 1
  else if crc32c (mapBytes m) ≠ crc then 2
  else if m.any (fun x => 1296 ≤ x) then 3
  else if !decide m.Nodup then 4
  else 0

/-- MAP_STAGE (R264, R265): a router applies the pairs to a copy of its map, checks it and sends its verdict. -/
def execMapStage (site : Site) (epoch : Word) (pairs : List (Nat × Nat)) (crc : Word) (s : State) : Out :=
  let st := site.val
  if s.forwards st then
    let m := s.map st
    let new := stageMap m.sites s.ltns (pairs.take 16)
    let v := mapVerdictOf m epoch.toNat new crc.toNat
    let t := s.setMap st { m with staged := some (epoch.toNat, new, v), commit := none }
    let t := (t.setReg (pgRTR st 1) 0x044 (1 + v * 2)).setReg (pgRTR st 1) 0x048 epoch.toNat
    match nearestCorner t.liveCorners st with
    | none => .next t
    | some c => .next (t.inject ⟨tVERDICT, st, 4, c, 0x7FF, st, 0, 0, true, epoch.toNat, [⟨v, false⟩], 4, t.cyc st⟩)
  else .next s

/-- MAP_VERDICT (R264): a router's verdict, which arrived at a corner, reaches firmware: its epoch and code. -/
def execMapVerdict (site : Site) (s : State) : Out :=
  let st := site.val
  let mine := fun (p : Packet) => p.ty == tVERDICT && p.req == st && p.inPort == 5
  match s.packets.find? mine with
  | none => .next s
  | some p =>
    .next { s with
      packets := dropFirst mine s.packets
      verdicts := (s.verdicts.filter fun x => x.1 != st) ++ [(st, p.addr, (p.words.headD ⟨0, false⟩).v)] }

/-- The switch of a router to its staged map (R264). -/
def State.mapSwitch (s : State) (site : Nat) : State :=
  match (s.map site).staged with
  | none => s
  | some (e, new, _) =>
    let t := s.freeRebound site new
    let t := t.setMap site ⟨true, e, new, none, none⟩
    ((t.setReg (pgRTR site 1) 0x040 e).setFld (pgRTR site 1) 0x044 0 1 0).setReg64 (pgRTR site 1) 0x058 0

/-- MAP_COMMIT (R264, R265): T is recorded; a commit of an epoch not staged with verdict 0 is ignored, a late one applied
on arrival, both with MAPERR. -/
def execMapCommit (site : Site) (epoch : Word) (t : Nat) (s : State) : Out :=
  let st := site.val
  if s.forwards st then
    let m := s.map st
    let ok := match m.staged with
      | some (e, _, v) => e == epoch.toNat && v == 0
      | none => false
    if !ok || s.injPend (pgRTR st 0) 15 then .next (s.raise (pgRTR st 0) 15 clsUnc .none false [])
    else
      let u := (s.setMap st { m with commit := some t }).setReg64 (pgRTR st 1) 0x058 t
      if t < s.facetTime (facetOf st) then .next ((u.mapSwitch st).raise (pgRTR st 0) 15 clsUnc .none false [])
      else .next u
  else .next s

/-- MAP_SWITCH (R264): at T, a router that staged the epoch with verdict 0 switches. -/
def execMapSwitch (site : Site) (s : State) : Out :=
  let st := site.val
  match (s.map st).commit with
  | none => .next s
  | some t => .next ((s.waitTime t).mapSwitch st)

/-- A router at an end of a link steers a wire: WIRE, one corrected error, the wire in LINK_WIRE of its port. -/
def State.wireEnd (s : State) (site dir wire : Nat) : State :=
  (s.setReg (pgRTR site 2) (0x044 + 16 * dir) wire).raise (pgRTR site 0) 14 clsRetire .corr false [dir, wire]

/-- WIRE_STEER (R267): both ends steer a wire to the next free spare at a transfer boundary. -/
def execWireSteer (site : Site) (dir : Dir) (s : State) : Out :=
  let st := site.val
  let d := dir.val
  let l := s.link st d
  match l.steer with
  | [] => .next s
  | w :: rest =>
    let pg := pgRTR st 2
    let used := s.fld pg (0x040 + 16 * d) 8 4
    if used < 8 then
      let t := s.setLink st d { l with steer := rest, retired := l.retired ++ [w], corr := l.corr.filter fun e => e.1 != w }
      let t := (t.setFld pg (0x040 + 16 * d) 8 4 (used + 1)).wireEnd st d w
      .next (match neighbour st d with
        | some n => t.wireEnd n (oppositeDir d) w
        | none => t)
    else .next ((s.setLink st d { l with steer := rest }).setFld pg (0x040 + 16 * d) 3 1 1)

/-- The table selection of TBL_SEL: the selector of its entry, if the selection exists. -/
def State.tblSel (s : State) (site : Nat) : Option Nat :=
  let v := s.reg (pgRTR site 3) 0x040
  let t := bitsOf v 0 2
  if t < 3 then some t else if bitsOf v 2 3 < 5 then some (3 + bitsOf v 2 3) else none

/-- TBL_WRITE (R271): TBL_DATA goes into the selected entry while the router is stopped. A selection of no output changes
nothing. -/
def execTblWrite (site : Site) (s : State) : Out :=
  let st := site.val
  let idx := s.fld (pgRTR st 3) 0x044 0 10
  match s.tblSel st with
  | none => .next s
  | some sel =>
    if s.runs (pgRTR st 0) || (sel == 2 && 512 ≤ idx) then .next (s.wlock (pgRTR st 3))
    else
      let ws := (List.range 4).map fun i => s.reg (pgRTR st 3) (0x048 + 4 * i)
      let t := { s with rtrTbl := tblSet (fun _ => [0, 0, 0, 0]) s.rtrTbl (tblKey st sel idx) ws }
      .next (if sel = 0 then (t.setSlotK st 0 idx 0).setSlotK st 2 idx 0 else if sel = 1 then t.setSlotK st 1 idx 0 else t)

/-- TBL_READ (R271): the selected entry goes into TBL_DATA. -/
def execTblRead (site : Site) (s : State) : Out :=
  let st := site.val
  let idx := s.fld (pgRTR st 3) 0x044 0 10
  match s.tblSel st with
  | none => .next s
  | some sel =>
    let e := s.entry st sel (if sel = 2 then idx % 512 else idx)
    .next ((List.range 4).foldl (fun (t : State) i => t.setReg (pgRTR st 3) (0x048 + 4 * i) (nthD 0 e i)) s)

/-- MAP_LOOKUP: the LTN to look up is held; MAP_LOOKUP_RES shows its site (Table 09.8). -/
def execMapLookup (site : Site) (value : Word) (s : State) : Out :=
  .next (s.setReg (pgRTR site.val 1) 0x04C (value.toNat % 2 ^ 11))

end Sys2Proof.Machine
end

