-- ==== Sys2Proof/Machine/Scratchpad.lean ====
section
/-! DEFINITION. A scratchpad serving remote accesses: bank queues, atomics, the replay cache, scrubbing, initialisation
(chapter 07). -/

namespace Sys2Proof.Machine

open Sys2Proof

/-- Requester of a remote access: number, RSITE, tag (R200). -/
structure Who where
  req : Nat
  rsite : Bool
  tag : Nat
  deriving DecidableEq, Repr

def BankAcc.who (a : BankAcc) : Who := ⟨a.req, a.rsite, a.tag⟩
def RcEntry.who (e : RcEntry) : Who := ⟨e.req, e.rsite, e.tag⟩
def Gather.who (g : Gather) : Who := ⟨g.req, g.rsite, g.tag⟩

/-- A routed packet of a type from a requester leaves the network at a router. -/
def State.eject (s : State) (site ty : Nat) (w : Who) : State :=
  { s with packets := dropFirst (fun p => p.at_ == site && p.ty == ty && p.req == w.req && p.rsite == w.rsite &&
      p.tag == w.tag) s.packets }

/-- Whether a tile's scratchpad serves remote accesses: its logic is powered and the SPD enabled (R203). -/
def State.spdServes (s : State) (site : Nat) : Bool := s.siteOn site && s.enabled (pgSPD site 0)

/-- The checks at a request's destination: MOVED when the site is not bound to DLTN (R260), REFUSED when the SPD does not
serve or the words lie outside it (R203). -/
def State.requestLoss (s : State) (site dltn word n : Nat) : Option Nat :=
  if dltn ≠ 0x7FF ∧ s.ltnOfSite site ≠ some dltn then some 2
  else if !s.spdServes site || decide (spadWords < word + n) then some 3
  else none

/-- Whether a request of a requester still waits at a bank (R207). -/
def State.inQueue (s : State) (site bank : Nat) (w : Who) : Bool :=
  let k := s.bank site bank
  k.queue.any (fun a => a.who == w) || k.atomic.any (fun a => a.1.who == w)

/-- An access joins its bank's queue (R197). -/
def State.enqueueAcc (s : State) (site : Nat) (a : BankAcc) : State :=
  let b := bankOf a.word
  let k := s.bank site b
  s.setBank site b { k with queue := k.queue ++ [a] }

/-- A multi-word request is being served. -/
def State.addGather (s : State) (site : Nat) (g : Gather) : State :=
  s.setSpd site { s.spd site with gathers := (s.spd site).gathers ++ [g] }

/-- Accesses of a request for words from `word` up. -/
def State.enqueueWords (s : State) (site : Nat) (w : Who) (kind : RKind) (word : Nat) (data : List PWord) : State :=
  let n := data.length
  if (List.range n).any fun i => s.inQueue site (bankOf (word + i)) w then s
  else
    let t := s.addGather site ⟨w.req, w.rsite, w.tag, kind, n, []⟩
    ((List.range n).zip data).foldl (fun (u : State) e =>
      u.enqueueAcc site ⟨w.req, w.rsite, w.tag, kind, word + e.1, e.2, 0, u.cyc site, false⟩) t

/-- RD_REQ (R197): a remote read request arrives at its banks. -/
def execRdReq (site : Site) (req : Nat) (rsite : Bool) (tag dltn word count : Nat) (s : State) : Out :=
  let st := site.val
  let w : Who := ⟨req, rsite, tag⟩
  let t := s.eject st tRD w
  match t.requestLoss st dltn word count with
  | some c => .next (t.sendLoss st req tag rsite c)
  | none => .next (t.enqueueWords st w .read word (List.replicate (min count 32) ⟨0, false⟩))

/-- WR_REQ (R197): a remote write request arrives at its banks. -/
def execWrReq (site : Site) (req : Nat) (rsite : Bool) (tag dltn word : Nat) (data : List PWord) (s : State) : Out :=
  let st := site.val
  let w : Who := ⟨req, rsite, tag⟩
  let t := s.eject st tWR w
  match t.requestLoss st dltn word data.length with
  | some c => .next (t.sendLoss st req tag rsite c)
  | none => .next (t.enqueueWords st w .write word (data.take 32))

/-- An atomic request arrives: answered from the replay cache, discarded while its first issue waits, or queued (R207). -/
def State.atomicArrives (s : State) (site : Nat) (w : Who) (dltn word : Nat) (kind : RKind) (data : Nat) (b : Nat) : State :=
  match s.requestLoss site dltn word 1 with
  | some c => s.sendLoss site w.req w.tag w.rsite c
  | none =>
    let bk := bankOf word
    match (s.bank site bk).cache.find? fun e => e.who == w with
    | some e => (s.bump (pgSPD site 1) 0x058 1).respond site tAMORSP w.req w.tag w.rsite word [e.old]
    | none =>
      if s.inQueue site bk w then s
      else s.enqueueAcc site ⟨w.req, w.rsite, w.tag, kind, word, ⟨data, false⟩, b, s.cyc site, false⟩

/-- AMO_REQ (R204, R207). -/
def execAmoReq (site : Site) (req : Nat) (rsite : Bool) (tag dltn word : Nat) (funct : Fin 6) (operand : Word)
    (s : State) : Out :=
  .next ((s.eject site.val tAMO ⟨req, rsite, tag⟩).atomicArrives site.val ⟨req, rsite, tag⟩ dltn word (.amo funct.val)
    operand.toNat 0)

/-- CAS_REQ (R204, R207). -/
def execCasReq (site : Site) (req : Nat) (rsite : Bool) (tag dltn word : Nat) (expected newValue : Word)
    (s : State) : Out :=
  .next ((s.eject site.val tCAS ⟨req, rsite, tag⟩).atomicArrives site.val ⟨req, rsite, tag⟩ dltn word .cas
    expected.toNat newValue.toNat)

/-- The new value of an atomic (Table 07.4). -/
def atomicNew (kind : RKind) (old data b : Nat) : Nat :=
  match kind with
  | .amo 0 => (old + data) % 2 ^ 32
  | .amo 1 => data
  | .amo 2 => if sext 32 old ≤ sext 32 data then old else data
  | .amo 3 => if sext 32 old ≤ sext 32 data then data else old
  | .amo 4 => min old data
  | .amo _ => max old data
  | .cas => if old = data then b else old
  | _ => old

/-- An access of a kind that is an atomic. -/
def RKind.atomic : RKind → Bool
  | .amo _ => true
  | .cas => true
  | _ => false

/-- A word of a request is done; the last one answers its requester (R198). -/
def State.gathered (s : State) (site : Nat) (w : Who) (word : Nat) (v : PWord) : State :=
  match (s.spd site).gathers.find? fun g => g.who == w with
  | none => s
  | some g =>
    let got := g.got ++ [(word, v)]
    if 1 < g.left then
      let upd := fun (x : Gather) => (⟨x.req, x.rsite, x.tag, x.kind, x.left - 1, got⟩ : Gather)
      s.setSpd site { s.spd site with gathers := mapFirst (fun (x : Gather) => x.who == w) upd (s.spd site).gathers }
    else
      let rest := dropFirst (fun (x : Gather) => x.who == w) (s.spd site).gathers
      let t := (s.setSpd site { s.spd site with gathers := rest }).bump (pgSPD site 1) 0x048 1
      let ws := (got.mergeSort fun a b => a.1 ≤ b.1).map (·.2)
      if g.kind = .read then t.respond site tRDRSP w.req w.tag w.rsite 0 ws
      else t.respond site tWRACK w.req w.tag w.rsite 0 []

/-- The access a bank performs next: the head of its queue, passing over atomics while its replay cache is full (R197,
R208). -/
def Bank.next (k : Bank) : Option BankAcc :=
  if 16 ≤ k.cache.length then k.queue.find? fun a => !a.kind.atomic else k.queue.head?

/-- A starvation event of an access: counted, recorded, reported (R199). -/
def State.starve (s : State) (site bank : Nat) (a : BankAcc) (inj : Bool) : State :=
  let t := s.setReg (pgSPD site 0) 0x054 (bank + a.req * 2 ^ 7 + a.tag * 2 ^ 18 + b2n a.rsite * 2 ^ 26)
  (t.bump (pgSPD site 1) 0x060 1).raise (pgSPD site 0) 11 clsInfo .none inj []

/-- An injected starvation acts at the next remote access that a bank performs (R44). -/
def State.injStarve (s : State) (site bank : Nat) (a : BankAcc) : State :=
  match s.injected (pgSPD site 0) 11 with
  | (true, t) => t.starve site bank a true
  | (false, _) => s

/-- REMOTE_ACCESS_PERFORM (R197, R205, R206): a bank performs its next remote access in an idle cycle. An atomic reads its
word; a poisoned one answers without writing. -/
def execRemoteAccessPerform (site : Site) (bank : Fin 128) (ecc : Ecc) (s : State) : Out :=
  let st := site.val
  let b := bank.val
  let k := s.bank st b
  match (if s.siteOn st && k.atomic.isNone then k.next else none) with
  | none => .next s
  | some a =>
    let t := (s.setBank st b { k with queue := k.queue.erase a }).injStarve st b a
    match a.kind with
    | .write => .next ((t.bankWrite st a.word a.data).gathered st a.who a.word a.data)
    | .read =>
      let (v, u) := t.bankRead st a.word ecc
      .next (u.gathered st a.who a.word v)
    | _ =>
      let (v, u) := t.bankRead st a.word ecc
      if v.p then .next (u.respond st tAMORSP a.req a.tag a.rsite a.word [v])
      else .next (u.setBank st b { u.bank st b with atomic := some (a, v) })

/-- ATOMIC_WRITE (R205, R207): the atomic takes effect, and the replay cache keeps its old value. -/
def execAtomicWrite (site : Site) (bank : Fin 128) (s : State) : Out :=
  let st := site.val
  let b := bank.val
  let k := s.bank st b
  match k.atomic with
  | none => .next s
  | some (a, old) =>
    let e : RcEntry := ⟨a.req, a.rsite, a.tag, old, s.cyc st⟩
    let t := s.setBank st b { k with atomic := none, cache := k.cache ++ [e] }
    let t := t.bankWrite st a.word ⟨atomicNew a.kind old.v a.data.v a.b, false⟩
    let occ := k.cache.length + 1
    let t := if t.fld (pgSPD st 0) 0x048 8 5 < occ then t.setFld (pgSPD st 0) 0x048 8 5 occ else t
    .next ((t.bump (pgSPD st 1) 0x050 1).respond st tAMORSP a.req a.tag a.rsite a.word [old])

/-- RC_REL (R208): the matching replay-cache entry is freed. An injected RCREL acts at the packet that would have released
an entry: the entry is freed as one that was not released (R44; log entry 192). -/
def execRcRel (site : Site) (req : Nat) (rsite : Bool) (tag : Nat) (s : State) : Out :=
  let st := site.val
  let w : Who := ⟨req, rsite, tag⟩
  let t := s.eject st tRCREL w
  let d := t.spd st
  let held := d.banks.any fun b => b.2.cache.any fun e => e.who == w
  let t := t.setSpd st { d with banks := d.banks.map fun b =>
    (b.1, { b.2 with cache := b.2.cache.filter fun e => e.who != w }) }
  match t.injected (pgSPD st 0) 12 with
  | (true, u) => .next (if held then u.raise (pgSPD st 0) 12 clsInfo .none true [] else t)
  | (false, _) => .next t

/-- RC_ENTRY_TIMEOUT (R208): an entry not released within 2^24 cycles is freed. -/
def execRcEntryTimeout (site : Site) (bank : Fin 128) (s : State) : Out :=
  let st := site.val
  match (s.bank st bank.val).cache with
  | [] => .next s
  | e :: l =>
    let t := s.waitCyc st (e.stored + 2 ^ 24)
    .next ((t.setBank st bank.val { t.bank st bank.val with cache := l }).raise (pgSPD st 0) 12 clsInfo .none false [])

/-- BANK_STARVATION (R199): an access that waited more than 65,536 cycles raises one event and keeps its place. -/
def execBankStarvation (site : Site) (bank : Fin 128) (s : State) : Out :=
  let st := site.val
  let k := s.bank st bank.val
  match k.queue.find? fun a => !a.starved with
  | none => .next s
  | some a =>
    let t := s.waitCyc st (a.arrived + 65537)
    let mark := fun (x : BankAcc) => { x with starved := true }
    let t := t.setBank st bank.val { k with queue := mapFirst (fun (x : BankAcc) => !x.starved) mark k.queue }
    .next (t.starve st bank.val a false)

/-- SPD_ECC_WRITEBACK (R210): the bank writes a corrected word back. -/
def execSpdEccWriteback (site : Site) (bank : Fin 128) (s : State) : Out :=
  let k := s.bank site.val bank.val
  .next (s.setBank site.val bank.val { k with writeBack := k.writeBack.drop 1 })

/-- SCRUB_READ (R213): a bank with an idle cycle and an empty remote queue reads its next word. -/
def execScrubRead (site : Site) (bank : Fin 128) (ecc : Ecc) (s : State) : Out :=
  let st := site.val
  let b := bank.val
  let k := s.bank st b
  if s.siteOn st && s.enabled (pgSPD st 0) && s.flag (pgSPD st 0) 0x040 0 && !s.halting (pgSPD st 0) && k.queue.isEmpty &&
      k.atomic.isNone then
    let w := k.scrubRow * 128 + b
    let (v, t) := s.eccRead st w ecc 1 false
    let t := if v.p then t.poisonSeen (pgSPD st 0) else t
    let wrap := k.scrubRow == 12287
    let t := t.setBank st b { t.bank st b with scrubRow := if wrap then 0 else k.scrubRow + 1 }
    .next (if wrap && b == 0 then t.bump (pgSPD st 1) 0x068 1 else t)
  else .next s

/-- INIT (R214): while ENABLE is 0, initialisation starts. -/
def execInit (site : Site) (s : State) : Out :=
  let st := site.val
  if s.enabled (pgSPD st 0) || !s.siteOn st then .next s
  else .next ((s.setFld (pgSPD st 0) 0x048 0 1 1).setSpd st { s.spd st with initAt := some (s.cyc st) })

/-- SPD_INIT_COMPLETE (R214): after 12,288 cycles every word is zero and clean, and INIT_DONE is set. -/
def execSpdInitComplete (site : Site) (s : State) : Out :=
  let st := site.val
  match (s.spd st).initAt with
  | none => .next s
  | some c =>
    let t := (s.waitCyc st (c + 12288)).spadFill st false
    .next ((t.setFld (pgSPD st 0) 0x048 0 2 2).setSpd st { t.spd st with initAt := none })

end Sys2Proof.Machine
end

