-- ==== Sys2Proof/Machine/Matrix.lean ====
section
/-! DEFINITION. The matrix array: weight groups, fronts, activation rows, outputs, verdicts, replay, shaping (chapter 04). -/

namespace Sys2Proof.Machine

open Sys2Proof

/-! ### Passes of an instruction -/

/-- Pass j reuses the active stationary operands (R105). -/
def Task.reuses (t : Task) (j : Nat) : Bool :=
  if j = 0 then t.keepw else t.addr 6 j == t.addr 6 (j - 1) && t.addr 9 j == t.addr 9 (j - 1)

/-- The loads of an instruction before pass j: p of R108. -/
def Task.loadsBefore (t : Task) (j : Nat) : Nat := ((List.range j).filter fun i => !t.reuses i).length

/-- Chain group and position of a pass (R102). -/
def Task.group (t : Task) (j : Nat) : Nat := j / t.chainLen
def Task.pos (t : Task) (j : Nat) : Nat := j % t.chainLen

/-- The last pass of its chain group. -/
def Task.lastOf (t : Task) (j : Nat) : Bool := t.pos j + 1 == t.chainLen

/-- Issue cycles of a row (Table 04.1). -/
def modeQ (mode : Nat) : Nat := if mode = 4 then 4 else if mode = 5 then 24 else 1

/-- Extra cycles before an output leaves (R92). -/
def modeLate (mode : Nat) : Nat := if mode = 4 then 3 else 0

/-- The instruction whose row is the next to take. -/
def Mxa.cur (m : Mxa) : Option MInstr := m.instrs.find? fun i => i.stopped.isNone && decide (i.nextPass < i.task.count)

def Mxa.instr (m : Mxa) (entry : Nat) : Option MInstr := m.instrs.find? fun i => i.task.entry == entry

def Mxa.opset (m : Mxa) (id : Nat × Nat) : Option MOps := m.ops.find? fun o => o.entry == id.1 && o.pass == id.2

def Mxa.mapInstr (m : Mxa) (entry : Nat) (f : MInstr → MInstr) : Mxa :=
  { m with instrs := mapFirst (fun i => i.task.entry == entry) f m.instrs }

def Mxa.mapPass (m : Mxa) (entry pass : Nat) (f : MPass → MPass) : Mxa :=
  { m with passes := mapFirst (fun p => p.entry == entry && p.pass == pass) f m.passes }

/-- Operand sets that something still refers to. -/
def Mxa.gc (m : Mxa) : Mxa :=
  { m with ops := m.ops.filter fun o =>
      m.active == some (o.entry, o.pass) || m.fronts.any (fun f => f.entry == o.entry && f.pass == o.pass) ||
        m.rows.any fun r => r.opsEntry == o.entry && r.opsPass == o.pass }

/-- The active and shadow operands and the chain buffer are discarded (R112). -/
def Mxa.discard (m : Mxa) : Mxa := { m with active := none, fronts := [], chain := [], wvalid := false }.gc

/-- Shadow operands whose front has not entered go with the passes that loaded them. -/
def Mxa.dropFronts (m : Mxa) (gone : MFront → Bool) : Mxa := { m with fronts := m.fronts.filter fun f => !gone f }.gc

/-- Pages of an MXA. -/
abbrev pgM (site : Nat) : Nat := pgMXA site 0

/-- An MXA works: RUN is 1 and its facet's clock runs (R428). -/
def State.mxaRuns (s : State) (site : Nat) : Bool := s.runs (pgM site) && s.clocked site
abbrev pgM1 (site : Nat) : Nat := pgMXA site 1

/-- MXA_CFG.FLOW is BUBBLE; SHAPE_EN. -/
def State.bubble (s : State) (site : Nat) : Bool := s.flag (pgM site) 0x040 0
def State.shapeEn (s : State) (site : Nat) : Bool := s.flag (pgM site) 0x040 1

/-- Sets MXA_FLAGS.OVF (R66, R88, R97). -/
def State.mxaOvf (s : State) (site : Nat) (o : Bool) : State := if o then s.setFld (pgM site) 0x04C 0 1 1 else s

/-- An instruction is stopped at a pass (R82, R101, R106, R113): that pass and later ones raise no completion signal, and
operands waiting for passes that are not to enter hold back no later load (R95). -/
def Mxa.stop (m : Mxa) (entry pass : Nat) : Mxa :=
  let n := m.mapInstr entry fun i => { i with stopped := some ((i.stopped.map fun p => min p pass).getD pass) }
  let n : Mxa := { n with passes := n.passes.map fun p => if p.entry == entry && pass ≤ p.pass then { p with lost := true } else p }
  n.dropFronts fun f => f.entry == entry && decide (pass ≤ f.pass) && f.row == 0

/-- Stopped instructions leave once their earlier passes have completed and no row of theirs is in the array, and with them
operands only partly loaded (R95). -/
def Mxa.reap (m : Mxa) : Mxa :=
  let gone := (m.instrs.filter fun i => i.stopped.any (fun p => p ≤ i.done) && !m.rows.any fun r => r.entry == i.task.entry).map
    (·.task.entry)
  let part := fun (id : Nat × Nat) => gone.contains id.1 && (m.opset id).any fun o => decide (o.ends.length < 4)
  if gone.isEmpty then m
  else
    let n : Mxa := { m with
      instrs := m.instrs.filter fun i => !gone.contains i.task.entry
      passes := m.passes.filter fun p => !gone.contains p.entry
      active := m.active.filter fun id => !part id
      wvalid := m.wvalid && !m.active.any part }
    n.dropFronts fun f => gone.contains f.entry && (f.row == 0 || part (f.entry, f.pass))

/-- Filler density of a level in eighths (Table 04.5). -/
def fillEighths (level : Nat) : Nat :=
  match level with
  | 0 => 0
  | 1 => 1
  | 2 => 2
  | 3 => 4
  | 4 => 6
  | _ => 8

/-- Filler rows of the gap up to a cycle are counted; skipped cycles hold none (R115, R463, Table 05.5). -/
def State.mxaFill (s : State) (site now : Nat) : State :=
  let m := s.mxa site
  if s.shapeEn site && m.fillAt < now && s.mxaRuns site then
    let n := liveCycles (s.skipNow site) m.fillAt now * fillEighths m.level / 8
    ((s.setMxa site { m with fillAt := now }).bump (pgM1 site) 0x050 n).telAdd site m.lastTag 1 n
  else s

/-- A waiting row becomes ready (R117): outside full level a ramp-up begins, and at level zero it is one the MXA performs
itself (R118). -/
def State.mxaReady (s : State) (site : Nat) : State :=
  let m := s.mxa site
  let shaped := s.shapeEn site && m.level < 5
  if (m.ready && (!shaped || m.ramp.isSome)) || m.cur.isNone || m.suspect || !s.mxaRuns site then s
  else
    let now := s.cyc site
    let s := if shaped then s.mxaFill site now else s
    let m := s.mxa site
    let n := { m with ready := true, due := max m.due now }
    if shaped && m.ramp.isNone then
      let up := m.level + 1
      let t := s.setMxa site { n with level := up, ramp := if up = 5 then none else some now, gapSince := none, fillAt := max m.fillAt now }
      if m.level = 0 then t.bump (pgM1 site) 0x070 1 else t
    else s.setMxa site n

/-- ROW_READY (R117): no ramp starts in a skipped cycle. -/
def execRowReady (site : Site) (s : State) : Out := .next ((s.unskip site.val).mxaReady site.val)

/-! ### Loading stationary operands (R107, R108) -/

/-- An infinite operand of a mode other than J7 becomes the largest finite AF16 value (R97): value, flag. -/
def deInf (mode : Nat) (x : NVal) : NVal × Bool :=
  match x with
  | .inf neg => if mode = 5 then (x, false) else (decodeAF16 (signBit fmtAF16 neg + maxCode fmtAF16), true)
  | y => (y, false)

/-- An operand element: its value as multiplied, without infinities and scaled, its residue, whether an infinity was
replaced. -/
structure Elem where
  val : NVal
  residue : Nat
  inf : Bool
  deriving DecidableEq, Repr

/-- Elements of a bit string: decoded and scaled. The residue is that of the scaled element as it was stored; a NaN, an
infinity and an element of a poisoned word have residue 0 (R120). -/
def operandElems (mode fmt scale : Nat) (ws : List PWord) (n : Nat) : List Elem :=
  let bits := joinWords ws
  let w := elemBits fmt
  let scaled := fun x => if !decide (4 ≤ mode) && isMx fmt then scaleBy scale x else x
  (List.range n).map fun i =>
    let raw := decodeElem fmt (bitsOf bits (i * w) w)
    let x := deInf mode raw
    ⟨scaled x.1, if poisonAt ws (i * w) w then 0 else res (scaled raw), x.2⟩

/-- One column's 32 stationary elements of a group: address, words. -/
def colBlock (t : Task) (j g c : Nat) : Nat × Nat :=
  if t.wide then (t.addr 6 j + 2 * (128 * c + 32 * g), 16)
  else (t.addr 6 j + (4 * c + g) * blockBytes t.wfmt, blockBytes t.wfmt / 4)

/-- A group's elements of one logical column, and whether one of them is poisoned. -/
structure ColGroup where
  els : List Elem
  poison : Bool
  deriving DecidableEq, Repr

/-- The columns of a group. A poisoned block scale leaves its elements without residues (R120). -/
def loadCols (t : Task) (j g : Nat) (scales : List PWord) (b : By) : List Nat → Io → List ColGroup × Io
  | [], x => ([], x)
  | c :: l, x =>
    let (a, n) := colBlock t j g c
    let (ws, y) := x.readN b (a / 4) n
    let sw := nthD ⟨0, false⟩ scales (c / 4)
    let els := operandElems t.mode t.wfmt (bitsOf sw.v (8 * (c % 4)) 8) ws 32
    let els := if sw.p then els.map fun e => { e with residue := 0 } else els
    let (rest, z) := loadCols t j g scales b l y
    (⟨els, ws.any (·.p) || sw.p⟩ :: rest, z)

/-- The check column of the array rows just loaded: C_r = Σ_c res(w_{r,c}) (R120, R121). -/
def checkColumn (cols : List ColGroup) (rows : Nat) : List Nat :=
  (List.range rows).map fun r => (cols.map fun c => ((c.els[r]?).map (·.residue)).getD 0).sum % resP

/-- Lists joined column by column behind those of earlier groups. -/
def joinCols {α : Type} (old new : List (List α)) : List (List α) := if old.isEmpty then new else List.zipWith (· ++ ·) old new

/-- A group of operands joins a set: values behind those of earlier groups. -/
def MOps.addGroup (o : MOps) (cols : List ColGroup) (fin : Nat) : MOps :=
  { o with
    ends := o.ends ++ [fin]
    cols := joinCols o.cols (cols.map fun c => c.els.map (·.val))
    residues := joinCols o.residues (cols.map fun c => c.els.map (·.residue))
    poison := if o.poison.isEmpty then cols.map (·.poison) else List.zipWith (· || ·) o.poison (cols.map (·.poison))
    check := o.check ++ checkColumn cols 32 }

/-- The first pass from `j` on that loads operands: one that does not reuse them, or the next to take once the active
operands were discarded (R105). -/
def findLoad (i : MInstr) (bare : Bool) : Nat → Nat → Option Nat
  | 0, _ => none
  | k + 1, j =>
    if !i.task.reuses j || (bare && i.nextPass == j && i.nextRow == 0) then some j else findLoad i bare k (j + 1)

/-- The pass whose group loads next: the one being loaded, or the next in issue order (R107). -/
def Mxa.loadTarget (m : Mxa) : Option (MInstr × Nat) :=
  match m.fronts.getLast? with
  | some f =>
    match m.opset (f.entry, f.pass), m.instr f.entry with
    | some o, some i => if o.ends.length < 4 then some (i, f.pass) else next false
    | none, some i => some (i, f.pass)
    | _, _ => none
  | none => next (!m.wvalid)
where
  next (bare : Bool) : Option (MInstr × Nat) :=
    (m.instrs.filter fun i => i.stopped.isNone).findSome? fun i =>
      (findLoad i bare (i.task.count - i.nextLoad) i.nextLoad).map fun j => (i, j)

/-- WEIGHT_GROUP_LOAD (R107, R108): the next group of the next pass loads, from a cycle after the preceding front entered the
last of its rows; it is usable the cycle after its 32. -/
def execWeightGroupLoad (site : Site) (env : Env) (s : State) : Out :=
  let st := site.val
  let m := s.mxa st
  match (if s.siteOn st && s.mxaRuns st && !m.suspect then m.loadTarget else none) with
  | none => .next s
  | some (i, j) =>
    let t := i.task
    let old := m.opset (t.entry, j)
    let g := (old.map fun o => o.ends.length).getD 0
    let known := m.fronts.any fun f => f.entry == t.entry && f.pass == j
    let before := m.fronts.takeWhile fun f => !(f.entry == t.entry && f.pass == j)
    let swapped := match before.getLast? with
      | none => true
      | some f => decide (32 * (g + 1) ≤ f.row)
    let freed := match before.getLast? with
      | none => if g = 3 then m.passed else 0
      | some f => if f.row = 32 * (g + 1) then f.due else 0
    let warr := if t.warrEn then
        match s.resolve st t.ctx t.warrVid with
        | none => false
        | some n => !(s.obj st n).barrier && decide (4 * t.loadsBefore j + g + 1 ≤ (s.obj st n).count)
      else true
    if !swapped || !warr then .next s
    else
      let start := max (max (s.cyc st) freed) ((m.ops.flatMap (·.ends)).foldl max 0 + 1)
      let b : By := ⟨st, pMW, t.ctx, some t.atag⟩
      let io : Io := ⟨s, env⟩
      let (scales, io) := if !t.wide && isMx t.wfmt then io.readN b ((t.addr 9 j + g * t.cols) / 4) (t.cols / 4) else ([], io)
      let (cols, io) := loadCols t j g scales b (List.range t.cols) io
      let u := (io.s.mxaOvf st (cols.any fun c => c.els.any (·.inf)))
      let u := if cols.any (·.poison) then u.poisonSeen (pgM st) else u
      let n := u.mxa st
      let base : MOps := old.getD ⟨t.entry, j, t.mode, t.wfmt, [], [], [], [], []⟩
      let o := base.addGroup cols (s.after st start 31)
      let others := n.ops.filter fun (x : MOps) => !(x.entry == t.entry && x.pass == j)
      let new : MFront := ⟨t.entry, j, 0, 0⟩
      let n : Mxa := { n with ops := others ++ [o], fronts := if known then n.fronts else n.fronts ++ [new] }
      .next (u.setMxa st (n.mapInstr t.entry fun x => { x with nextLoad := max x.nextLoad (j + 1) }))

/-! ### Weight fronts (R109, R110) -/

/-- Admission is open: the block runs, is not suspect, a row is ready and its ramp has ended (R117, R126). A halt admits no
further pass but those of a replay (R128). -/
def State.mxaAdmits (s : State) (site row : Nat) : Bool :=
  let m := s.mxa site
  s.siteOn site && s.mxaRuns site && !m.suspect && (row != 0 || m.replay.isSome || !s.halting (pgM site)) && m.ready &&
    (!s.shapeEn site || (m.level == 5 && m.ramp.isNone))

/-- Pass j takes its initial partial sums from the chain buffer (R103). -/
def Mxa.chained (m : Mxa) (entry j : Nat) : Bool := (m.instr entry).any fun i => i.task.pos j != 0

/-- The cycle from which row `row` of pass j may enter for its predecessors: the row before it, and the chained values it
needs, if its pass takes any (R94, R104). -/
def Mxa.enterAt (m : Mxa) (entry j row : Nat) : Nat :=
  let a := (m.lastRow.map fun c => c + m.lastQ).getD 0
  let b := if m.chained entry j then
      match m.rows.find? fun r => r.entry == entry && r.pass + 1 == j && r.row == row with
      | some r => r.issue + r.delay + 129
      | none => 0
    else 0
  max a b

/-- Fronts that can enter their next array row: its group is loaded, the front before it is further on, and at row 0 its
pass is the next to take. -/
def State.enterable (s : State) (site : Nat) : List MFront → Option MFront → List (MFront × Nat)
  | [], _ => []
  | f :: l, prev =>
    let m := s.mxa site
    let rest := s.enterable site l (some f)
    match m.opset (f.entry, f.pass) with
    | none => rest
    | some o =>
      match o.ends[f.row / 32]? with
      | none => rest
      | some e =>
        let room := prev.all fun p => f.row < p.row
        let turn := f.row != 0 || (s.mxaAdmits site 0 &&
          m.cur.any fun i => i.task.entry == f.entry && i.nextPass == f.pass && i.nextRow == 0)
        let from_ := if f.row = 0 then max m.due (m.enterAt f.entry f.pass 0) else f.due
        if room && turn then (f, max from_ (e + 1)) :: rest else rest

/-- Activation rows of a front's pass wait as long as it does, and their later events come later by as much (R93, R110). -/
def Mxa.delayRows (m : Mxa) (f : MFront) (n : Nat) : Mxa :=
  { m with rows := m.rows.map fun r =>
      if r.opsEntry == f.entry && r.opsPass == f.pass then { r with delay := r.delay + n } else r }

/-- FRONT_ENTER (R109, R110): the front that is due first enters its next array row, whose cells swap. -/
def execFrontEnter (site : Site) (s : State) : Out :=
  let st := site.val
  let m := s.mxa st
  let c := s.enterable st m.fronts none
  match c.foldl (fun (b : Option (MFront × Nat)) x =>
      match b with
      | none => some x
      | some y => if x.2 < y.2 then some x else some y) none with
  | none => .next s
  | some (f, at_) =>
    let t := (s.waitCyc st at_).unskip st
    let now := t.cyc st
    let n := t.mxa st
    let from_ := if f.row = 0 then max n.due (n.enterAt f.entry f.pass 0) else f.due
    let moved : MFront := { f with row := f.row + 1, due := now + 1 }
    let fs := (n.fronts.map fun x => if x = f then moved else x).filter fun x => decide (x.row < 128)
    let mode := (n.opset (f.entry, f.pass)).map (·.mode)
    let waited := liveCycles (t.skipNow st) from_ now
    let n := if f.row = 0 then n else n.delayRows f waited
    let n := { n with fronts := fs, passed := if f.row = 127 then now + 1 else n.passed }
    let n := if f.row = 0 then { n with active := some (f.entry, f.pass), wvalid := true, since := 0, lastMode := mode.getD 7 } else n
    .next ((t.setMxa st n.gc).bump (pgM1 st) 0x058 waited)

/-! ### Activation rows (R92, R101) -/

/-- The elements of an activation row, and whether one is poisoned. -/
def readActs (t : Task) (j row : Nat) (b : By) (x : Io) : ColGroup × Io :=
  if t.wide then
    let (ws, y) := x.readN b ((t.addr 12 j + 256 * row) / 4) 64
    (⟨operandElems t.mode t.afmt 127 ws 128, ws.any (·.p)⟩, y)
  else
    let (ws, y) := x.readN b ((t.addr 12 j + 128 * row) / 4) 32
    let (sc, z) := if isMx t.afmt then y.readN b ((t.addr 15 j + 4 * row) / 4) 1 else ([], y)
    let sw := nthD ⟨0, false⟩ sc 0
    let els := (List.range 4).flatMap fun g =>
      operandElems t.mode t.afmt (bitsOf sw.v (8 * g) 8) ((ws.drop (8 * g)).take 8) 32
    (⟨if sw.p then els.map fun e => { e with residue := 0 } else els, ws.any (·.p) || sw.p⟩, z)

/-- The chained input of a row: 16-bit values, or, in J7 mode, binary32 values laid out as the binary32 outputs of Table 04.3
are, at CIN + 4 × (128m + c) (R98, R87; log entry 195). -/
def readCin (t : Task) (j row : Nat) (b : By) (x : Io) : List PWord × Io :=
  if t.mode = 5 then x.readN b ((t.gaddr 18 j + 512 * row) / 4) 128
  else
    let (ws, y) := x.readN b ((t.gaddr 18 j + 2 * t.cols * row) / 4) (t.cols / 2)
    (ws.flatMap fun w => [⟨w.v % 2 ^ 16, w.p⟩, ⟨w.v / 2 ^ 16, w.p⟩], y)

/-- A refused row stops its instruction and faults its context. -/
def State.mxaStop (s : State) (site : Nat) (t : Task) (pass code detail : Nat) : State :=
  let n := ((s.mxa site).stop t.entry pass)
  let u := s.setMxa site { n with ready := false }
  let u := (u.setMxa site (u.mxa site).reap).occUpdate site
  u.ctxFault site t.ctx code 0 detail

/-- ROW_ISSUE (R92, R101, R82): the next activation row enters row 0. In J7 mode no dither is used (R86), and no key is
resolved: a row whose key index is unbound runs (log entry 195). `mis` is an event of R122. -/
def execRowIssue (site : Site) (env : Env) (mis : Option Mis) (s : State) : Out :=
  let st := site.val
  let s := s.unskip st
  let m := s.mxa st
  match m.cur with
  | none => .next s
  | some i =>
    let t := i.task
    let j := i.nextPass
    let row := i.nextRow
    let own := m.active == some (t.entry, j)
    let reuse := row != 0 || (t.reuses j && m.wvalid)
    let clear := m.fronts.all fun f => f.row == 0 || decide (min 128 (m.since * modeQ t.mode + 1) ≤ f.row)
    if !(s.mxaAdmits st row && m.active.isSome && (own || reuse) && clear) then .next s
    else
      let s := (s.waitCyc st (m.enterAt t.entry j row)).unskip st
      let now := s.cyc st
      let s := s.mxaFill st now
      let b : By := ⟨st, pMA, t.ctx, some t.atag⟩
      let io : Io := ⟨s, env⟩
      let (rm, io) := io.readN b ((t.gaddr 22 j + 8 * row) / 4) 2
      let w0 := nthD ⟨0, false⟩ rm 0
      let w1 := nthD ⟨0, false⟩ rm 1
      let bad := rm.any (·.p)
      let token := w0.v + w1.v % 2 ^ 8 * 2 ^ 32
      let keyIdx := bitsOf w1.v 8 12
      let key := if bad || t.mode == 5 then some [] else io.s.resolveKey st t.ctx keyIdx
      if !bad && (bitsOf w1.v 20 12 != 0 || io.s.injPend (pgM st) 10) then
        .next ((io.s.raise (pgM st) 10 clsUnc .none false []).mxaStop st t j fDESC 0x010B)
      else match key with
        | none => .next (io.s.mxaStop st t j fKEY keyIdx)
        | some k =>
          let (a, io) := readActs t j row b io
          let ap := a.poison
          let (init, io) := if t.pos j = 0 && t.chainMem then readCin t j row { b with port := pMC } io else ([], io)
          let seed := if k.isEmpty then [] else
            seedOf k ⟨t.stream, token, (t.kbase + t.pos j) % 2 ^ 24, j % 2 ^ 16, 0x01⟩
          let ops := m.active.getD (0, 0)
          let r : MRow := ⟨t.entry, j, row, now, ops.1, ops.2, a.els.map (·.val),
            a.els.map fun e => if bad then 0 else e.residue, ap || bad, bad, token, keyIdx, seed, init, [], [],
            List.replicate 128 0, 0⟩
          let u := io.s.mxaOvf st (a.els.any (·.inf))
          let u := if ap || bad || init.any (·.p) then u.poisonSeen (pgM st) else u
          let n := u.mxa st
          let last := row + 1 == t.m
          let n := if row = 0 then { n with passes := n.passes ++ [⟨t.entry, j, none, none, 0, none, false⟩] } else n
          let n := n.mapPass t.entry j fun p =>
            { p with lastIssue := if last then some now else p.lastIssue, mis := p.mis.or mis }
          let n := n.mapInstr t.entry fun x =>
            { x with nextPass := if last then j + 1 else j, nextRow := if last then 0 else row + 1 }
          let q := modeQ t.mode
          let n := { n with rows := n.rows ++ [r], lastRow := some now, lastQ := q, lastTag := t.atag,
                            gapSince := some (now + q), fillAt := now + q, since := n.since + 1 }
          let n := { n with ready := n.cur.isSome, due := now + q }
          .next (((u.setMxa st n).bump (pgM1 st) 0x048 1).telAdd st t.atag 0 q)

/-! ### Outputs (R92, R103, R113) -/

/-- The column sum of one output by SR steps down the array (R73, R74): row index, partial sum. -/
def columnSum (seed : List Nat) (c : Nat) : Nat → Nat → List NVal → List NVal → Nat × Bool
  | r, acc, a :: as, w :: ws =>
    let (v, o) := srStep (dither seed r c) (decodeAF16 acc) (numMul a w)
    let (x, p) := columnSum seed c (r + 1) v as ws
    (x, o || p)
  | _, acc, _, _ => (acc, false)

/-- Output (m, c) of a row: AF16 code, or binary32 code in J7 mode (R87); overflow. -/
def outputOf (mode : Nat) (r : MRow) (o : MOps) (c : Nat) (init : Nat) : Nat × Bool :=
  let ws := nthD [] o.cols c
  if mode = 5 then
    let ps := List.zipWith j7Mul r.acts ws
    let v := j7Groups 4 ps (decodeInf fmtB32 init, false)
    ((toB32 v.1).1, v.2)
  else columnSum r.seed c 0 init r.acts ws

/-- A finished output in the output format (R68, R88). J7 outputs are rounded to nearest even whatever ORND says: to BF16, with an
overflow giving infinity and OVF, and to AF16, which R88 does not name, with saturation (log entry 195). -/
def formatOut (t : Task) (v : Nat) : Nat × Bool :=
  if t.mode = 5 then
    if t.ofmt = 2 then (v, false)
    else if t.ofmt = 1 then j7ToBF16 (decodeInf fmtB32 v)
    else toAF16 .rne (decodeInf fmtB32 v)
  else if t.ofmt = 1 then toBF16 (if t.ornd then .rtz else .rne) (decodeAF16 v)
  else (v, false)

/-! #### The residue lane (R120, R121) -/

/-- The residue of a product: that of the exact product, 0 where an operand has residue 0. -/
def productRes (a w : NVal) (ra rw : Nat) : Nat := if ra = 0 || rw = 0 then 0 else res (numMul a w)

/-- The residue lanes of a row after the cells of a column: each adds the residues of its products with the stationary elements
of the logical columns `cs`. -/
def addLanes (r : MRow) (o : MOps) (cs : List Nat) : List Nat :=
  (List.range 128).map fun i =>
    (nthD 0 r.lanes i + (cs.map fun c => productRes (nthD .nan r.acts i) (nthD .nan (nthD [] o.cols c) i)
      (nthD 0 r.residues i) (nthD 0 (nthD [] o.residues c) i)).sum) % resP

/-- The comparison at the right-hand edge: the first array row whose lane is not res(a) × C_r. -/
def laneMismatch (r : MRow) (o : MOps) (lanes : List Nat) : Option Nat :=
  (List.range 128).find? fun i => nthD 0 lanes i != nthD 0 r.residues i * nthD 0 o.check i % resP

/-! #### Draining -/

/-- The row whose next output leaves first, with the cycle: an output follows those of the rows before it in its column, and a
column whose drain holds an output has none (R93, R113). -/
def Mxa.nextOut (m : Mxa) : Option (MRow × Nat) :=
  m.rows.foldl (fun (b : Option (MRow × Nat)) r =>
    match m.opset (r.opsEntry, r.opsPass) with
    | none => b
    | some o =>
      let n := r.outs.length
      let passed := !m.fronts.any fun f => f.entry == o.entry && f.pass == o.pass
      let open_ := decide (n < 128) && !(m.rows.any fun q => q.held.contains n) &&
        (m.rows.takeWhile fun q => q != r).all fun q => decide (n < q.outs.length)
      if o.ends.length = 4 && passed && open_ then
        let at_ := r.issue + r.delay + 128 + n + modeLate o.mode
        match b with
        | none => some (r, at_)
        | some y => if at_ < y.2 then some (r, at_) else b
      else b) none

/-- Whether every place between row 0 and a row that is held is taken: rows have entered without a gap since it did. -/
def Mxa.packed (m : Mxa) (issue now : Nat) : Bool :=
  decide (now ≤ issue + (m.rows.filter fun r => issue ≤ r.issue).length * m.lastQ)

/-- A drain that cannot accept holds its column (R113): while the next row is ready and the hold reaches row 0, the cycle
passes and is counted in MXA_STALL_CYC (Table 04.14). -/
def State.mxaHeld (s : State) (site issue at_ : Nat) : State :=
  let u := s.waitCyc site at_
  let m := u.mxa site
  let now := u.cyc site
  match m.cur with
  | none => s
  | some i =>
    if (u.facet (facetOf site)).running && u.mxaAdmits site i.nextRow && decide (m.enterAt i.task.entry i.nextPass i.nextRow ≤ now) && m.packed issue now then
      (u.waitCyc site (now + 1)).bump (pgM1 site) 0x060 1
    else s

/-- Values of a row in column order, from the outputs of its physical columns. -/
def columnOrder (l : Nat) (outs : List (List PWord)) : List PWord :=
  if l = 256 then (outs.map fun x => nthD ⟨0, false⟩ x 0) ++ outs.map fun x => nthD ⟨0, false⟩ x 1
  else outs.map fun x => nthD ⟨0, false⟩ x 0

/-- 16-bit values joined two to a word. -/
def pairWords : List PWord → List PWord
  | a :: b :: l => ⟨a.v + b.v * 2 ^ 16, a.p || b.p⟩ :: pairWords l
  | _ => []

/-- The scratchpad words that the output of physical column `n` completes: word index and value (Table 04.3). A word waits for
both its values; one of them held or lost, it is not written. -/
def outWords (t : Task) (r : MRow) (n : Nat) : List (Nat × PWord) :=
  let base := t.gaddr 20 r.pass
  let val := fun c h => nthD ⟨0, false⟩ (nthD [] r.outs c) h
  let there := fun c => !(nthD [] r.outs c).isEmpty && !r.held.contains c
  let p := n / 2 * 2
  if t.ofmt = 2 then [((base + 4 * (128 * r.row + n)) / 4, val n 0)]
  else if there p && there (p + 1) then
    (List.range (t.cols / 128)).map fun h =>
      ((base + 2 * (t.cols * r.row + 128 * h + p)) / 4,
        ⟨(val p h).v + (val (p + 1) h).v * 2 ^ 16, (val p h).p || (val (p + 1) h).p⟩)
  else []

/-- A row of the array with what became of it: once all its outputs have left and none is held, its transmit slot sends it if
it drains there, and it leaves; its later events stay late by its delay (R92, R93). -/
def State.putRow (s : State) (site : Nat) (t : Task) (r : MRow) : State :=
  let isR := fun (x : MRow) => x.entry == r.entry && x.pass == r.pass && x.row == r.row
  if r.outs.length = 128 ∧ r.held = [] then
    let ws := columnOrder t.cols r.outs
    let s := if t.drainTx && t.lastOf r.pass then s.txMxa site t (t.group r.pass) r (if t.ofmt = 2 then ws else pairWords ws) else s
    let m := s.mxa site
    let m := { m with rows := dropFirst isR m.rows }.mapPass r.entry r.pass fun p => { p with
      drained := p.drained + 1
      lastIssue := if r.row + 1 = t.m then p.lastIssue.map (· + r.delay) else p.lastIssue }
    (s.setMxa site m.gc.reap).occUpdate site
  else
    let m := s.mxa site
    s.setMxa site { m with rows := mapFirst isR (fun _ => r) m.rows }

/-- An accepted output of physical column `n` reaches the scratchpad. -/
def State.drainWords (s : State) (site : Nat) (t : Task) (r : MRow) (n : Nat) (env : Env) : State :=
  if t.drainTx then s
  else ((outWords t r n).foldl (fun (x : Io) e => x.write ⟨site, pMO, t.ctx, some t.atag⟩ e.1 e.2) ⟨s, env⟩).s

/-- Whether the drain of a task takes an output: a transmit slot takes none while the router halts (R269). -/
def State.drainTakes (s : State) (site : Nat) (t : Task) (accept : Bool) : Bool := accept && (!t.drainTx || s.rtrRuns site)

/-- The values of the next output of a row, one for each logical column of its physical column, and whether one overflowed. -/
def State.nextVals (s : State) (site : Nat) (t : Task) (r : MRow) (o : MOps) : List PWord × Bool :=
  let n := r.outs.length
  let vals := (if t.cols = 256 then [n, n + 128] else [n]).map fun c =>
    let init : PWord := if t.pos r.pass = 0 then nthD ⟨0, false⟩ r.init c
      else tblGet (fun _ => (⟨0, false⟩ : PWord)) (s.mxa site).chain (r.row * 256 + c)
    let v := outputOf t.mode r o c init.v
    ((⟨v.1, r.poison || nthD false o.poison c || init.p⟩ : PWord), v.2)
  (vals.map (·.1), vals.any (·.2))

/-- The next output of a row leaves its cell: it goes to the chain buffer, or formatted to the drain, which takes it, holds it,
or in BUBBLE mode loses it (R103, R113). -/
def State.outputLeaves (s : State) (site : Nat) (t : Task) (r : MRow) (o : MOps) (accept : Bool) (env : Env) : State :=
  let n := r.outs.length
  let cs := if t.cols = 256 then [n, n + 128] else [n]
  let (vals, ovf) := s.nextVals site t r o
  let s := s.mxaOvf site ovf
  let s := if vals.any (·.p) then s.poisonSeen (pgM site) else s
  let lanes := addLanes r o cs
  let s := match (if n = 127 then laneMismatch r o lanes else none) with
    | none => s
    | some i => s.setMxa site ((s.mxa site).mapPass r.entry r.pass fun p => { p with mis := p.mis.or (some ⟨r.row, i, 0⟩) })
  let r := { r with lanes := lanes }
  if !t.lastOf r.pass then
    let ch := (cs.zip vals).foldl (fun (a : List (Nat × PWord)) e =>
      tblSet (fun _ => (⟨0, false⟩ : PWord)) a (r.row * 256 + e.1) e.2) (s.mxa site).chain
    (s.setMxa site { s.mxa site with chain := ch }).putRow site t { r with outs := r.outs ++ [vals] }
  else
    let fo := vals.map fun v => (formatOut t v.v, v.p)
    let s := s.mxaOvf site (fo.any (·.1.2))
    let done := { r with outs := r.outs ++ [fo.map fun v => (⟨v.1.1, v.2⟩ : PWord)] }
    let lossInj := s.bubble site && bitOf (s.hdr (pgM site)).inj 11
    if lossInj || (s.bubble site && !accept) then
      let lost := ((s.mxa site).instr r.entry).any fun i => i.stopped.any fun p => p ≤ r.pass
      let s := if lossInj then (s.injected (pgM site) 11).2 else s
      let u := s.putRow site t { r with outs := r.outs ++ [[]] }
      if lost then u else (u.raise (pgM site) 11 clsUnc .none lossInj []).mxaStop site t r.pass fDRAIN r.pass
    else if accept then (s.drainWords site t done n env).putRow site t done
    else s.putRow site t { done with held := done.held ++ [n] }

/-- OUTPUT_DRAIN (R92, R103, R113): the output that leaves next is computed and drained, held, or in BUBBLE mode lost; or the
output that the drain of a column holds is offered again. -/
def execOutputDrain (site : Site) (accept : Bool) (held : Option (Fin 128)) (env : Env) (s : State) : Out :=
  let st := site.val
  match held with
  | some c =>
    match (s.mxa st).rows.find? fun r => r.held.contains c.val with
    | none => .next s
    | some r =>
      match (s.mxa st).instr r.entry with
      | none => .next s
      | some i =>
        if s.drainTakes st i.task accept then
          let r := { r with held := r.held.filter (· != c.val) }
          .next ((s.drainWords st i.task r c.val env).putRow st i.task r)
        else .next (s.mxaHeld st r.issue (s.cyc st))
  | none =>
    match (s.mxa st).nextOut with
    | none => .next s
    | some (r, at_) =>
      match (s.mxa st).instr r.entry, (s.mxa st).opset (r.opsEntry, r.opsPass) with
      | some i, some o =>
        let due := s.after st r.issue (at_ - r.issue)
        let t := s.waitCyc st due
        let r := { r with delay := r.delay + (t.cyc st - due) }
        let takes := t.drainTakes st i.task accept
        let u := t.outputLeaves st i.task r o takes env
        .next (if takes || t.bubble st || !i.task.lastOf r.pass then u else u.mxaHeld st r.issue due)
      | _, _ => .next s

/-! ### Verdicts, replay, completion (R95, R123 to R126) -/

/-- Whether pass a of instruction e comes before pass b of instruction f in issue order. -/
def Mxa.before (m : Mxa) (e a f b : Nat) : Bool :=
  if e = f then decide (a < b)
  else match m.instrs.findIdx? (fun i => i.task.entry == e), m.instrs.findIdx? (fun i => i.task.entry == f) with
    | some x, some y => decide (x < y)
    | _, _ => false

/-- Whether a chain-buffer value is still to be taken by a row: the row's pass chains, and its output of that column has not
left. -/
def Mxa.awaits (m : Mxa) (key : Nat) : Bool :=
  m.rows.any fun r => r.row == key / 256 && m.chained r.entry r.pass && decide (r.outs.length ≤ key % 128)

/-- A replay begins: the work of later passes in the array, the chain buffer and the shadow registers is discarded, not what rows
of earlier passes still take, and admission returns to the group's first pass (R124). -/
def Mxa.beginReplay (m : Mxa) (t : Task) (first : Nat) (inj : Bool) (now : Nat) : Mxa :=
  let keep := fun e p => m.before e p t.entry first
  let idx := (m.instrs.findIdx? fun i => i.task.entry == t.entry).getD 0
  let ins := ((List.range m.instrs.length).zip m.instrs).map fun e =>
    if e.1 = idx then { e.2 with nextLoad := first, nextPass := first, nextRow := 0 }
    else if idx < e.1 then { e.2 with nextLoad := 0, nextPass := 0, nextRow := 0 } else e.2
  let n : Mxa := { m with
    instrs := ins
    rows := m.rows.filter fun r => keep r.entry r.pass
    passes := m.passes.filter fun p => keep p.entry p.pass
    replay := some ⟨t.entry, first, first + t.chainLen - 1, inj⟩
    replays := m.replays ++ [now]
    ready := false }
  { n.discard with chain := m.chain.filter fun e => n.awaits e.1 }

/-- The MXA becomes suspect at a pass: it admits nothing more, and the failed group and every later pass raise no completion
signal; earlier passes go on (R126, R112). -/
def Mxa.suspectAt (m : Mxa) (t : Task) (first pass : Nat) : Mxa :=
  let late := fun (p : MPass) => if m.before p.entry p.pass t.entry first then p else { p with lost := true }
  let n := m.mapPass t.entry pass fun p => { p with verdict := some false }
  let n : Mxa := { n with passes := n.passes.map late, suspect := true, ready := false, replay := none }
  n.discard

/-- The cycle in which the verdict of a pass is known: 256 after the entry of its last row, later by what delays that row (R93,
R123). -/
def State.verdictAt (s : State) (site : Nat) (p : MPass) (t : Task) : Nat :=
  let late := ((s.mxa site).rows.find? fun r => r.entry == p.entry && r.pass == p.pass && r.row + 1 == t.m).map (·.delay)
  s.after site (p.lastIssue.getD 0) (256 + modeLate t.mode + late.getD 0)

/-- PASS_VERDICT (R123 to R126): the verdict of the oldest pass whose rows have all entered. It meets the injections of bits 8,
9 and 12 (R44). -/
def execPassVerdict (site : Site) (s : State) : Out :=
  let st := site.val
  let m := s.mxa st
  match m.passes.find? fun p => p.lastIssue.isSome && p.verdict.isNone with
  | none => .next s
  | some p =>
    match m.instr p.entry with
    | none => .next s
    | some i =>
      let t := i.task
      let s := s.waitCyc st (s.verdictAt st p t)
      let (bit, s) := match s.takeInjOf (pgM st) [8, 9, 12] with
        | some (b, u) => (b, u)
        | none => (0, s)
      let inj := bit != 0
      let m := s.mxa st
      let mis : Option Mis := if inj then some ⟨0, 0, 0⟩ else p.mis
      let s := s.loupe st 3 t.ctx 0 [p.pass, b2n mis.isNone]
      match mis with
      | none =>
        let m := m.mapPass p.entry p.pass fun x => { x with verdict := some true }
        match m.replay with
        | some rp =>
          if rp.entry = p.entry ∧ rp.last = p.pass then
            .next ((s.setMxa st { m with replay := none }).raise (pgM st) 8 clsCorr .corr rp.inj [])
          else .next (s.setMxa st m)
        | none => .next (s.setMxa st m)
      | some x =>
        let s := s.setReg (pgM st) 0x050 (p.pass % 2 ^ 16 + x.row % 128 * 2 ^ 16 + t.ctx * 2 ^ 23 + x.kind % 4 * 2 ^ 26)
        let s := s.setReg (pgM st) 0x054 (x.arow % 256)
        let first := t.group p.pass * t.chainLen
        let again := (m.replay.any fun rp => rp.entry == p.entry && rp.first == first) || bit == 9
        let recent := inLastSecond s.time m.replays
        let lim := s.fld (pgM st) 0x044 0 8
        let tooMany := (lim != 0 && decide (lim < recent.length + 1)) || bit == 12
        if again || tooMany then
          .next ((s.setMxa st (m.suspectAt t first p.pass)).raise (pgM st) (if again then 9 else 12) clsUnc .unc inj [])
        else
          .next ((s.setMxa st ({ m with replays := recent }.beginReplay t first inj s.time)).bump (pgM1 st) 0x068 1)

/-- PASS_COMPLETE (R95, R149): the oldest pass that can still complete raises its completion signal. -/
def execPassComplete (site : Site) (s : State) : Out :=
  let st := site.val
  let m := s.mxa st
  match m.passes.find? fun p => !p.lost with
  | none => .next s
  | some p =>
    match m.instr p.entry with
    | none => .next s
    | some i =>
      let t := i.task
      if p.verdict == some true && p.drained == t.m then
        let fin := p.pass + 1 == t.count
        let grp := t.lastOf p.pass
        let m := { m with passes := m.passes.filter fun x => !(x.entry == p.entry && x.pass == p.pass) }
        let m := m.mapInstr p.entry fun x => { x with done := p.pass + 1 }
        let m := if fin then { m with instrs := m.instrs.filter fun x => x.task.entry != p.entry } else m
        let s := (s.setMxa st m.reap).occUpdate st
        let s := if grp then s.bump (pgM1 st) 0x040 t.chainLen else s
        let s := if fin then s.loupe st 1 t.ctx 0 (t.hdr ++ [t.entry]) else s
        .next (if (t.sigGrp && grp) || (!t.sigGrp && fin) then s.signals st (t.signalsOf false) else s)
      else .next s

/-! ### Current shaping (R115 to R119) -/

/-- SHAPING_LEVEL_STEP (R116, R117, R463): a ramp-up reaches its next level, or a gap lowers the level, after cycles that are
not skipped. While a valid row is ready the level does not fall: the ramp-down would turn at once (log entry 194). -/
def execShapingLevelStep (site : Site) (s : State) : Out :=
  let st := site.val
  let m := s.mxa st
  if !s.shapeEn st || !s.mxaRuns st || !s.siteOn st then .next s
  else match m.ramp with
    | some c =>
      if m.level < 4 then
        let s := s.waitCyc st (s.after st c 128)
        let s := s.mxaFill st (s.cyc st)
        .next (s.setMxa st { s.mxa st with level := m.level + 1, ramp := some (s.cyc st) })
      else .next s
    | none =>
      match m.gapSince with
      | none => .next s
      | some g =>
        if m.level = 0 || m.ready then .next s
        else
          let s := s.waitCyc st (s.after st g (96 + 128 * (5 - m.level)))
          let s := s.mxaFill st (s.cyc st)
          .next (s.setMxa st { s.mxa st with level := m.level - 1 })

/-- RAMP_COMPLETE (R118, R119): the level is full; a RAMP task completes with its signal terms. -/
def execRampComplete (site : Site) (s : State) : Out :=
  let st := site.val
  let m := s.mxa st
  let full := !s.shapeEn st || m.level == 5
  let s := match m.ramp with
    | some c => if m.level = 4 then s.waitCyc st (s.after st c 128) else s
    | none => s
  if (m.ramp.isSome || m.rampTask.isSome) && (full || m.level == 4) then
    let s := s.mxaFill st (s.cyc st)
    let m := s.mxa st
    let now := s.cyc st
    let lvl := if s.shapeEn st then 5 else m.level
    let s := s.setMxa st { m with level := lvl, ramp := none, rampTask := none, due := max m.due now,
                                  gapSince := if m.ramp.isSome then some now else m.gapSince }
    let s := s.occUpdate st
    match m.rampTask with
    | none => .next s
    | some t => .next ((s.loupe st 1 t.ctx 0 (t.hdr ++ [t.entry])).signals st (t.signalsOf false))
  else .next s

/-! ### Firing and reset -/

/-- The operands that will be active when a new instruction's first pass enters: mode and format (R224). -/
def Mxa.willBeActive (m : Mxa) : Option (Nat × Nat) :=
  match m.cur with
  | none => if m.wvalid then (m.active.bind m.opset).map fun o => (o.mode, o.wfmt) else none
  | some _ => ((m.instrs.filter fun i => i.stopped.isNone).getLast?).map fun i => (i.task.mode, i.task.wfmt)

/-- The check an MXA instruction fails at firing, if any (R224). -/
def State.mxaFireCheck (s : State) (site : Nat) (t : Task) : Option Nat :=
  if t.keepw && (s.mxa site).willBeActive != some (t.mode, t.wfmt) then some 0x0109
  else if t.drainTx && s.bubble site then some 0x010A
  else none

/-- An MXA task fires (R118, R144, R224): a RAMP task starts or completes a ramp; an instruction is admitted or refused. -/
def State.mxaFire (s : State) (site : Nat) (t : Task) : State :=
  let s := if t.ramp then s.mxaFill site (s.cyc site) else s
  let m := s.mxa site
  if t.ramp then
    if !s.shapeEn site || m.level = 5 || (m.level = 4 && m.ramp.isNone) then
      let s := if s.shapeEn site then s.setMxa site { m with level := 5 } else s
      (s.loupe site 1 t.ctx 0 (t.hdr ++ [t.entry])).signals site (t.signalsOf false)
    else
      let now := s.cyc site
      let up := m.level + 1
      let begin_ := m.ramp.isNone
      s.setMxa site { m with
        rampTask := some t
        ramp := if begin_ then some now else m.ramp
        level := if begin_ && up < 5 then up else m.level
        gapSince := none }
  else
    match s.mxaFireCheck site t with
    | some c => (s.raise (pgM site) 10 clsUnc .none false []).ctxFault site t.ctx fDESC 0 c
    | none => (s.setMxa site { m with instrs := m.instrs ++ [⟨t, 0, 0, 0, 0, none⟩] }).mxaReady site

/-- MXA_RESET_EFFECT (R621): once the array holds no valid row, the RESET takes effect. -/
def execMxaResetEffect (site : Site) (s : State) : Out :=
  let st := site.val
  let b := blkId tyMXA st
  if (s.blk b).resetPend && (s.mxa st).rows.isEmpty then
    .next ((s.setMxa st Mxa.init).resetCommon b [])
  else .next s

end Sys2Proof.Machine
end

