-- ==== Sys2Proof/Machine/Vector.lean ====
section
/-! DEFINITION. The vector engine: operands, outputs, every operation of Table 05.4, the sampler (chapter 05). -/

namespace Sys2Proof.Machine

open Sys2Proof

/-- A VXE task in progress: the accesses, words that several results share, overflow, poison consumed. -/
structure VSt where
  io : Io
  shared : Tbl PWord
  ovf : Bool
  pois : Bool
  deriving DecidableEq, Repr

/-- A value with its poison. -/
abbrev PVal := Nat × Bool

def VSt.flag (x : VSt) (o : Bool) : VSt := { x with ovf := x.ovf || o }

/-- Who reads and writes for a VXE task. -/
def vBy (site : Nat) (t : Task) (port : Nat) : By := ⟨site, port, t.ctx, some t.atag⟩

/-- An input element converted to AF16 before use (R68): code and saturation. -/
def toInput (fmt : Nat) (r : Rnd) (scale code : Nat) : Nat × Bool :=
  if fmt = 0xD then (if isNaN16 code then 0x7E00 else code, false)
  else toAF16 r (if isMx fmt then scaleBy scale (decodeElem fmt code) else decodeElem fmt code)

/-- Vector `v` of an operand as `n` AF16 values with poison (R226). -/
def VSt.load (x : VSt) (site : Nat) (t : Task) (o : VOpnd) (v n : Nat) : List PVal × VSt :=
  let b := vBy site t pVR
  let w := elemBits o.fmt
  let first := match o.step with
    | .vec => v * t.vstr
    | _ => 0
  let (ws, io) := x.io.readN b (o.off / 4 + first * w / 32) ((n * w + 31) / 32)
  let q0 := (o.sc.getD 0) + first / 32
  let (ss, io) := match o.sc with
    | none => (([] : List PWord), io)
    | some _ => io.readN b (q0 / 4) ((q0 % 4 + (n + 31) / 32 + 3) / 4)
  let bits := joinWords ws
  let sbits := joinWords ss / 2 ^ (8 * (q0 % 4))
  let r : Rnd := if t.op = 0 && t.vrtz then .rtz else .rne
  let vals := (List.range n).map fun i =>
    let c := toInput o.fmt r (bitsOf sbits (8 * (i / 32)) 8) (bitsOf bits (i * w) w)
    ((c.1, poisonAt ws (i * w) w || (o.sc.isSome && poisonAt ss (8 * (q0 % 4 + i / 32)) 8)), c.2)
  (vals.map (·.1), { x with io := io, ovf := x.ovf || vals.any (·.2), pois := x.pois || ws.any (·.p) || ss.any (·.p) })

/-- A word of 32 bits that an operand holds at a word index. -/
def VSt.loadWord (x : VSt) (site : Nat) (t : Task) (w : Nat) : PWord × VSt :=
  let (v, io) := x.io.read (vBy site t pVR) w
  (v, { x with io := io, pois := x.pois || v.p })

/-- Bits that share a word with other results of the task; bytes that no result covers are zero (R191). -/
def VSt.share (x : VSt) (byte w v : Nat) (p : Bool) : VSt :=
  let old := tblGet (fun _ => (⟨0, false⟩ : PWord)) x.shared (byte / 4)
  { x with shared := tblPut x.shared (byte / 4) ⟨putBits old.v (8 * (byte % 4)) w v, old.p || p⟩ }

/-- Elements of one block or vector in an output format: codes, scale byte for an MX format, overflow (R68, R70). -/
def outElems (fmt : Nat) (r : Rnd) (vals : List Nat) : List Nat × Nat × Bool :=
  if isMx fmt then
    let (sc, cs, o) := toMx fmt r vals
    (cs, sc, o)
  else
    let cs := vals.map fun c =>
      if fmt = 0xD then (c, false)
      else if fmt = 0xC then toBF16 r (decodeAF16 c)
      else toPlain8 (if fmt = 0x8 then fmtE4M3 else fmtE5M2) r (decodeAF16 c)
    (cs.map (·.1), 0, cs.any (·.2))

/-- Blocks of 32 values. -/
def blocks32 : Nat → List PVal → List (List PVal)
  | 0, _ => []
  | n + 1, l => l.take 32 :: blocks32 n (l.drop 32)

/-- Writes vector `v` of an output operand (R150, R191, R516). -/
def VSt.store (x : VSt) (site : Nat) (t : Task) (o : VOpnd) (v : Nat) (vals : List PVal) : VSt :=
  let b := vBy site t pVW
  let w := elemBits o.fmt
  let first := match o.step with
    | .vec => v * t.vstr
    | _ => 0
  let r : Rnd := if t.op = 0 && t.vrtz then .rtz else .rne
  let bl := if o.sc.isSome then blocks32 ((vals.length + 31) / 32) vals else [vals]
  let out := bl.map fun l => (outElems o.fmt r (l.map (·.1)), l.any (·.2))
  let els : List PVal := if o.sc.isSome then out.flatMap fun e => e.1.1.map fun c => (c, e.2)
    else ((out.flatMap fun e => e.1.1).zip vals).map fun e => (e.1, e.2.2)
  let n := (els.length * w + 31) / 32
  let bits := joinElems w (els.map (·.1))
  let ws := (List.range n).map fun i =>
    let p := ((List.range els.length).zip els).any fun e => e.2.2 && e.1 * w < 32 * (i + 1) && 32 * i < (e.1 + 1) * w
    (⟨bitsOf bits (32 * i) 32, p⟩ : PWord)
  let y := { x with io := x.io.writeN b (o.off / 4 + first * w / 32) ws, ovf := x.ovf || out.any (·.1.2.2) }
  match o.sc with
  | none => y
  | some q => ((List.range out.length).zip out).foldl (fun (z : VSt) e => z.share (q + first / 32 + e.1) 8 e.2.1.2.1 e.2.2) y

/-- Writes one AF16 or BF16 result per vector, words shared across vectors (R191). -/
def VSt.storeOne (x : VSt) (fmt byte : Nat) (v : PVal) : VSt :=
  let (c, _, o) := outElems fmt .rne [v.1]
  (x.share byte 16 (nthD 0 c 0) v.2).flag o

/-- Writes the words that results shared. -/
def VSt.flush (x : VSt) (site : Nat) (t : Task) : VSt :=
  { x with
    io := x.shared.foldl (fun (i : Io) e => i.write (vBy site t pVW) e.1 e.2) x.io
    shared := [] }

/-- Why a task stopped: code, detail, VXE error bit, whether it was injected (R44). -/
abbrev Stop := Nat × Nat × Nat × Bool

/-- Steps over vectors 0 to n − 1, ending at the first that stops. -/
def vloop (f : Nat → VSt → VSt × Option Stop) : Nat → Nat → VSt → VSt × Option Stop
  | 0, _, x => (x, none)
  | k + 1, v, x =>
    match f v x with
    | (y, none) => vloop f k (v + 1) y
    | (y, some e) => (y, some e)

/-- The token, key index and poison of vector v's instance (R228, R101). -/
def VSt.inst (x : VSt) (site : Nat) (t : Task) (v : Nat) : (Nat × Nat × Bool) × VSt × Option Stop :=
  if t.rmeta then
    let (a, x) := x.loadWord site t ((t.rmOff + 8 * v) / 4)
    let (b, x) := x.loadWord site t ((t.rmOff + 8 * v) / 4 + 1)
    let bad := a.p || b.p
    ((a.v + b.v % 2 ^ 8 * 2 ^ 32, bitsOf b.v 8 12, bad), x,
      if !bad && bitsOf b.v 20 12 != 0 then some (fDESC, 0x0206, 8, false) else none)
  else (((t.vtoken + v) % 2 ^ 40, t.vkey, false), x, none)

/-- A key that an operation resolves, or the stop of R82, which an injected KEY also brings about (R44). -/
def VSt.keyed (x : VSt) (site idx : Nat) (k : Option (List Nat)) : List Nat × VSt × Option Stop :=
  match x.io.s.takeInj (pgVXE site 0) 9, k with
  | some u, _ => ([], { x with io := { x.io with s := u } }, some (fKEY, idx, 9, true))
  | none, some k => (k, x, none)
  | none, none => ([], x, some (fKEY, idx, 9, false))

/-- The key of an instance, or the stop of R82; a poisoned record resolves none. -/
def VSt.keyOf (x : VSt) (site : Nat) (t : Task) (idx : Nat) (bad : Bool) : List Nat × VSt × Option Stop :=
  if bad then ([], x, none) else x.keyed site idx (x.io.s.resolveKey site t.ctx idx)

/-- The seed of a reduction of this task. -/
def Task.seed (t : Task) (key : List Nat) (token kblock domain : Nat) : List Nat :=
  if key.isEmpty then [] else seedOf key ⟨t.vstream, token, kblock, t.vpstep, domain⟩

/-- An SR step on AF16 codes. -/
def srCode (seed : List Nat) (r c a b : Nat) : Nat × Bool := srStep (dither seed r c) (decodeAF16 a) (decodeAF16 b)

/-- One level of the tree reduction: node j adds lanes 2j and 2j + 1 (R151). -/
def treeLevel (seed : List Nat) (level : Nat) : Nat → List Nat → List Nat × Bool
  | j, a :: b :: l =>
    let (v, o) := srCode seed level j a b
    let (r, p) := treeLevel seed level (j + 1) l
    (v :: r, o || p)
  | _, l => (l, false)

/-- The tree reduction of 128 lanes (R151). -/
def treeSum (seed : List Nat) (lanes : List Nat) : Nat × Bool :=
  let step := fun (a : List Nat × Bool) (k : Nat) =>
    let (l, o) := treeLevel seed k 0 a.1
    (l, a.2 || o)
  let r := [1, 2, 3, 4, 5, 6, 7].foldl step (lanes, false)
  (nthD 0 r.1 0, r.2)

/-- Lanes padded to 128 with +0. -/
def pad128 (l : List Nat) : List Nat := (l ++ List.replicate (128 - l.length) 0).take 128

/-- Lane accumulation over chunks of 128 (R151): chunk index, running lanes, elements. -/
def laneSum (seed : List Nat) : Nat → Nat → List Nat → List Nat → List Nat × Bool
  | 0, _, run, _ => (run, false)
  | n + 1, k, run, xs =>
    let ch := pad128 (xs.take 128)
    let st := ((List.range 128).zip (run.zip ch)).map fun e => srCode seed k e.1 e.2.1 e.2.2
    let (r, o) := laneSum seed n (k + 1) (st.map (·.1)) (xs.drop 128)
    (r, o || st.any (·.2))

/-- SUMR of AF16 codes under a key (R151). -/
def sumrOf (t : Task) (key : List Nat) (token kblock : Nat) (xs : List Nat) : Nat × Bool :=
  let (lanes, o) := laneSum (t.seed key token kblock 0x02) ((xs.length + 127) / 128) 0 (List.replicate 128 0) xs
  let (v, p) := treeSum (t.seed key token kblock 0x03) lanes
  (v, o || p)

/-- The running VXE task if it runs one of these operations and has not been performed. -/
def State.vxeTask (s : State) (site op : Nat) : Option Task :=
  match (s.tile site).vxe.getLast? with
  | some r => if !r.performed && r.task.op == op then some r.task else none
  | none => none

/-- Issue cycles of an element-wise or reduction pass over n elements (Table 05.5). -/
def issueCycles (n each : Nat) : Nat := (n + 127) / 128 * each

/-- Ends an operation: shared words, flags, issue cycles, poison, and the fault of a stopped task. `cyc` none: the manual
gives no cycles for the operation, and they are a free value (log entry 4). -/
def vxeEnd (site : Nat) (t : Task) (cyc : Option Nat) (r : VSt × Option Stop) : Out :=
  let x := r.1.flush site t
  let s := x.io.s
  let s := if x.ovf then s.setFld (pgVXE site 0) 0x044 0 1 1 else s
  let s := if x.pois then s.poisonSeen (pgVXE site 0) else s
  let (n, s) := match cyc with
    | some c => (c, s)
    | none => s.freshNat
  let s := (s.bump (pgVXE site 1) 0x048 n).telAdd site t.atag 4 n
  let s := s.setTile site { s.tile site with vxe := (s.tile site).vxe.dropLast ++ [⟨t, true, r.2.isNone⟩] }
  match r.2 with
  | none => .next s
  | some (code, det, bit, inj) =>
    .next ((s.raise (pgVXE site 0) bit clsUnc .none inj []).ctxFault site t.ctx code 1 det)

/-- An operation of the vector engine on the running task. -/
def vxeRun (site op : Nat) (env : Env) (s : State) (cyc : Task → Option Nat) (f : Task → VSt → VSt × Option Stop) : Out :=
  match s.vxeTask site op with
  | none => .next s
  | some t => vxeEnd site t (cyc t) (f t ⟨⟨s.unskip site, env⟩, [], false, false⟩)

/-- Input operand i and output operand i of a task. -/
def Task.inp (t : Task) (i : Nat) : VOpnd := nthD ⟨0, none, 0xD, .vec⟩ (vxeIns t) i
def Task.out (t : Task) (i : Nat) : VOpnd := nthD ⟨0, none, 0xD, .vec⟩ (vxeOuts t) i

/-- An element-wise operation: k input operands, a function of their elements (R150). -/
def elementwise (site : Nat) (k : Nat) (f : List Nat → Nat × Bool) (t : Task) (x : VSt) : VSt × Option Stop :=
  vloop (fun v x =>
    let (ins, x) := (List.range k).foldl (fun (a : List (List PVal) × VSt) i =>
      let (l, y) := a.2.load site t (t.inp i) v t.n
      (a.1 ++ [l], y)) (([] : List (List PVal)), x)
    let vals := (List.range t.n).map fun i =>
      let es := ins.map fun l => nthD (0, false) l i
      let r := f (es.map (·.1))
      ((r.1, es.any (·.2)), r.2)
    ((x.flag (vals.any (·.2))).store site t (t.out 0) v (vals.map (·.1)), none)) t.vcount 0 x

/-- Issue cycles of an element-wise operation, and of a special function. -/
def cycEach (k : Nat) (t : Task) : Option Nat := some (t.vcount * issueCycles t.n k)

def a0 (l : List Nat) : Nat := nthD 0 l 0
def a1 (l : List Nat) : Nat := nthD 0 l 1
def a2 (l : List Nat) : Nat := nthD 0 l 2
def a3 (l : List Nat) : Nat := nthD 0 l 3

/-- CVT. -/
def execCvt (site : Site) (env : Env) (s : State) : Out :=
  vxeRun site.val 0x00 env s (cycEach 1) (elementwise site.val 1 fun l => (a0 l, false))

def execVxAdd (site : Site) (env : Env) (s : State) : Out :=
  vxeRun site.val 0x01 env s (cycEach 1) (elementwise site.val 2 fun l => afAdd (a0 l) (a1 l))

def execVxSub (site : Site) (env : Env) (s : State) : Out :=
  vxeRun site.val 0x02 env s (cycEach 1) (elementwise site.val 2 fun l => afSub (a0 l) (a1 l))

def execVxMul (site : Site) (env : Env) (s : State) : Out :=
  vxeRun site.val 0x03 env s (cycEach 1) (elementwise site.val 2 fun l => afMul (a0 l) (a1 l))

def execVxFma (site : Site) (env : Env) (s : State) : Out :=
  vxeRun site.val 0x04 env s (cycEach 1) (elementwise site.val 3 fun l => afFma (a0 l) (a1 l) (a2 l))

def execVxMax (site : Site) (env : Env) (s : State) : Out :=
  vxeRun site.val 0x05 env s (cycEach 1) (elementwise site.val 2 fun l => (af16Max (a0 l) (a1 l), false))

def execVxMin (site : Site) (env : Env) (s : State) : Out :=
  vxeRun site.val 0x06 env s (cycEach 1) (elementwise site.val 2 fun l => (af16Min (a0 l) (a1 l), false))

/-- SEL: c where a > b, else d; a NaN operand gives NaN (R65). -/
def selOf (l : List Nat) : Nat :=
  if l.any isNaN16 then 0x7E00 else if af16Gt (a0 l) (a1 l) then a2 l else a3 l

def execVxSel (site : Site) (env : Env) (s : State) : Out :=
  vxeRun site.val 0x07 env s (cycEach 1) (elementwise site.val 4 fun l => (selOf l, false))

def execVxExp (site : Site) (env : Env) (s : State) : Out :=
  vxeRun site.val 0x10 env s (cycEach 2) (elementwise site.val 1 fun l => special expNum (a0 l))

def execVxExp2 (site : Site) (env : Env) (s : State) : Out :=
  vxeRun site.val 0x11 env s (cycEach 2) (elementwise site.val 1 fun l => special exp2Num (a0 l))

def execVxLog2 (site : Site) (env : Env) (s : State) : Out :=
  vxeRun site.val 0x12 env s (cycEach 2) (elementwise site.val 1 fun l => special log2Num (a0 l))

def execVxRcp (site : Site) (env : Env) (s : State) : Out :=
  vxeRun site.val 0x13 env s (cycEach 2) (elementwise site.val 1 fun l => special rcpNum (a0 l))

def execVxRsqrt (site : Site) (env : Env) (s : State) : Out :=
  vxeRun site.val 0x14 env s (cycEach 2) (elementwise site.val 1 fun l => special rsqrtNum (a0 l))

def execVxSqrt (site : Site) (env : Env) (s : State) : Out :=
  vxeRun site.val 0x15 env s (cycEach 2) (elementwise site.val 1 fun l => special sqrtNum (a0 l))

def execVxTanh (site : Site) (env : Env) (s : State) : Out :=
  vxeRun site.val 0x16 env s (cycEach 2) (elementwise site.val 1 fun l => special tanhNum (a0 l))

def execVxSigmoid (site : Site) (env : Env) (s : State) : Out :=
  vxeRun site.val 0x17 env s (cycEach 2) (elementwise site.val 1 fun l => special sigmoidNum (a0 l))

def execVxSilu (site : Site) (env : Env) (s : State) : Out :=
  vxeRun site.val 0x18 env s (cycEach 2) (elementwise site.val 1 fun l => special siluNum (a0 l))

def execVxGelu (site : Site) (env : Env) (s : State) : Out :=
  vxeRun site.val 0x19 env s (cycEach 2) (elementwise site.val 1 fun l => special geluNum (a0 l))

def execVxSin (site : Site) (env : Env) (s : State) : Out :=
  vxeRun site.val 0x1A env s (cycEach 2) (elementwise site.val 1 fun l => special sinNum (a0 l))

def execVxCos (site : Site) (env : Env) (s : State) : Out :=
  vxeRun site.val 0x1B env s (cycEach 2) (elementwise site.val 1 fun l => special cosNum (a0 l))

/-- Steps of a lane accumulation: vector index, running values (R228). -/
def accSteps (site : Nat) (t : Task) (seed : List Nat) : Nat → Nat → List PVal → VSt → List PVal × VSt
  | 0, _, run, x => (run, x)
  | k + 1, v, run, x =>
    let (a, y) := x.load site t (t.inp 0) v t.n
    let st := ((List.range t.n).zip (run.zip a)).map fun e =>
      let r := srCode seed v e.1 e.2.1.1 e.2.2.1
      ((r.1, e.2.1.2 || e.2.2.2), r.2)
    accSteps site t seed k (v + 1) (st.map (·.1)) (y.flag (st.any (·.2)))

/-- ACC (R228): one vector of N for the whole task. -/
def execVxAcc (site : Site) (env : Env) (s : State) : Out :=
  vxeRun site.val 0x20 env s (cycEach 1) fun t x =>
    match x.keyOf site.val t t.vkey false with
    | (_, x, some e) => (x, some e)
    | (key, x, none) =>
      let (init, x) := if t.vinit then x.load site.val t (t.inp 1) 0 t.n else (List.replicate t.n (0, false), x)
      let (run, x) := accSteps site.val t (t.seed key t.vtoken t.vkblock 0x02) t.vcount 0 init x
      (x.store site.val t (t.out 0) 0 run, none)

/-- A reduction of each vector to something, keyed by its instance (R82, R228). -/
def reduceEach (site : Nat) (t : Task) (f : Nat → Nat → List Nat → Bool → VSt → VSt × Option Stop) (x : VSt) :
    VSt × Option Stop :=
  vloop (fun v x =>
    match x.inst site t v with
    | (_, y, some e) => (y, some e)
    | ((token, idx, bad), y, none) =>
      match y.keyOf site t idx bad with
      | (_, y, some e) => (y, some e)
      | (key, y, none) => f v token key bad y) t.vcount 0 x

/-- SUMR (R151). -/
def execSumr (site : Site) (env : Env) (s : State) : Out :=
  vxeRun site.val 0x21 env s (cycEach 1) fun t x =>
    reduceEach site.val t (fun v token key bad x =>
      let (a, x) := x.load site.val t (t.inp 0) v t.n
      let (r, o) := sumrOf t key token t.vkblock (a.map (·.1))
      ((x.flag o).storeOne t.fo (t.off 4 + 2 * v) (r, bad || a.any (·.2)), none)) x

/-- MAXR: NaN if any element is. -/
def maxOf (l : List Nat) : Nat :=
  match l with
  | [] => 0xFDFF
  | a :: r => r.foldl af16Max (if isNaN16 a then 0x7E00 else a)

def execMaxr (site : Site) (env : Env) (s : State) : Out :=
  vxeRun site.val 0x22 env s (cycEach 1) fun t x =>
    vloop (fun v x =>
      let (a, x) := x.load site.val t (t.inp 0) v t.n
      (x.storeOne t.fo (t.off 4 + 2 * v) (maxOf (a.map (·.1)), a.any (·.2)), none)) t.vcount 0 x

/-- exp(rne(x − m)). -/
def expDiff (x m : Nat) : Nat × Bool :=
  let (d, o) := afSub x m
  let (e, p) := afExp d
  (e, o || p)

/-- One softmax step (R152): the tree's seed, the sum's seed and step number; new state, α, e values, overflow. -/
def smaxCore (seed3 seed2 : List Nat) (pstep m s : Nat) (xs : List Nat) : (Nat × Nat × Nat × List Nat) × Bool :=
  let mNew := xs.foldl af16Max m
  let (al, o1) := expDiff m mNew
  let es := xs.map fun x => expDiff x mNew
  let (q, o2) := treeSum seed3 (pad128 (es.map (·.1)))
  let (sa, o3) := afMul s al
  let (sn, o4) := srCode seed2 pstep 0 sa q
  ((mNew, sn, al, es.map (·.1)), o1 || o2 || o3 || o4 || es.any (·.2))

/-- SMAX_STEP (R152): new state, α, e values, overflow. -/
def smaxStepOf (t : Task) (key : List Nat) (token m s : Nat) (xs : List Nat) : (Nat × Nat × Nat × List Nat) × Bool :=
  smaxCore (t.seed key token t.vkblock 0x03) (t.seed key token t.vkblock 0x02) t.vpstep m s xs

def execSmaxStep (site : Site) (env : Env) (s : State) : Out :=
  vxeRun site.val 0x30 env s (fun _ => none) fun t x =>
    reduceEach site.val t (fun v token key bad x =>
      let (st, x) := x.loadWord site.val t ((t.off 2 + 4 * v) / 4)
      let (a, x) := x.load site.val t (t.inp 0) v t.n
      let p := bad || st.p || a.any (·.2)
      let ((m, sn, al, es), o) := smaxStepOf t key token (st.v % 2 ^ 16) (st.v / 2 ^ 16) (a.map (·.1))
      let x := ((x.flag o).share (t.off 4 + 4 * v) 32 (m + sn * 2 ^ 16) p).share (t.off 5 + 2 * v) 16 al p
      (if t.we then x.store site.val t (t.out 2) v (es.map fun e => (e, p)) else x, none)) x

/-- SMAX_FINAL (R152). -/
def execSmaxFinal (site : Site) (env : Env) (s : State) : Out :=
  vxeRun site.val 0x31 env s (fun _ => none) fun t x =>
    vloop (fun v x =>
      let (st, x) := x.loadWord site.val t ((t.off 2 + 4 * v) / 4)
      let (a, x) := x.load site.val t (t.inp 0) v t.n
      let ps := a.map fun e =>
        let r := afDiv e.1 (st.v / 2 ^ 16)
        ((r.1, e.2 || st.p), r.2)
      ((x.flag (ps.any (·.2))).store site.val t (t.out 0) v (ps.map (·.1)), none)) t.vcount 0 x

/-- An exact two-product SR step of MERGE (R73, R342). -/
def mergeStep (seed : List Nat) (r c x a y b : Nat) : Nat × Bool :=
  srStep (dither seed r c) (numMul (decodeAF16 x) (decodeAF16 a)) (numMul (decodeAF16 y) (decodeAF16 b))

/-- MERGE of two attention partial records of 130 AF16 values (R342). -/
def mergeOf (seed : List Nat) (r : Nat) (a b : List Nat) : List Nat × Bool :=
  let mA := nthD 0 a 128
  let mB := nthD 0 b 128
  let m := af16Max mA mB
  let (fa, o1) := expDiff mA m
  let (fb, o2) := expDiff mB m
  let ns := (List.range 128).map fun d => mergeStep seed r d (nthD 0 a d) fa (nthD 0 b d) fb
  let (sv, o3) := mergeStep seed r 128 (nthD 0 a 129) fa (nthD 0 b 129) fb
  (ns.map (·.1) ++ [m, sv], o1 || o2 || o3 || ns.any (·.2))

def execVxMerge (site : Site) (env : Env) (s : State) : Out :=
  vxeRun site.val 0x32 env s (fun _ => none) fun t x =>
    reduceEach site.val t (fun v token key bad x =>
      let (a, x) := x.load site.val t (t.inp 0) v t.n
      let (b, x) := x.load site.val t (t.inp 1) v t.n
      let p := bad || a.any (·.2) || b.any (·.2)
      let (o, f) := mergeOf (t.seed key token t.vkblock 0x05) t.vpstep (a.map (·.1)) (b.map (·.1))
      ((x.flag f).store site.val t (t.out 0) v (o.map fun e => (e, p)), none)) x

/-- S / n as AF16 (R153). -/
def divByCount (code n : Nat) : Nat × Bool :=
  match decodeAF16 code with
  | .nan => (0x7E00, false)
  | x => toAF16 .rne (numDiv x (.fin false n 0))

/-- The normalised values of d under gain g (R153): rne(rne(d × r) × g). -/
def normOf (t : Task) (key : List Nat) (token kblock : Nat) (ds gs : List Nat) : List Nat × Bool :=
  let sq := ds.map fun d => afMul d d
  let (sum, o1) := sumrOf t key token kblock (sq.map (·.1))
  let (mean, o2) := divByCount sum ds.length
  let (den, o3) := afAdd mean t.p0
  let (r, o4) := afRsqrt den
  let ys := List.zipWith (fun d g =>
    let (y, o) := afMul d r
    let (z, p) := afMul y g
    (z, o || p)) ds gs
  (ys.map (·.1), o1 || o2 || o3 || o4 || sq.any (·.2) || ys.any (·.2))

/-- RMSNORM (R153). -/
def execRmsnorm (site : Site) (env : Env) (s : State) : Out :=
  vxeRun site.val 0x38 env s (fun _ => none) fun t x =>
    reduceEach site.val t (fun v token key bad x =>
      let (a, x) := x.load site.val t (t.inp 0) v t.n
      let (g, x) := x.load site.val t (t.inp 1) 0 t.n
      let p := bad || a.any (·.2)
      let (ys, o) := normOf t key token 0 (a.map (·.1)) (g.map (·.1))
      ((x.flag o).store site.val t (t.out 0) v (List.zipWith (fun y h => (y, p || h.2)) ys g), none)) x

/-- LAYERNORM (R153). -/
def execLayernorm (site : Site) (env : Env) (s : State) : Out :=
  vxeRun site.val 0x39 env s (fun _ => none) fun t x =>
    reduceEach site.val t (fun v token key bad x =>
      let (a, x) := x.load site.val t (t.inp 0) v t.n
      let (g, x) := x.load site.val t (t.inp 1) 0 t.n
      let (b, x) := x.load site.val t (t.inp 2) 0 t.n
      let p := bad || a.any (·.2)
      let (sum, o1) := sumrOf t key token 0 (a.map (·.1))
      let (mu, o2) := divByCount sum t.n
      let ds := a.map fun e => afSub e.1 mu
      let (ys, o3) := normOf t key token 1 (ds.map (·.1)) (g.map (·.1))
      let zs := List.zipWith (fun y e => afAdd y e.1) ys b
      let o := o1 || o2 || o3 || ds.any (·.2) || zs.any (·.2)
      let q := List.zipWith (fun (h e : PVal) => p || h.2 || e.2) g b
      ((x.flag o).store site.val t (t.out 0) v (List.zip (zs.map (·.1)) q), none)) x

/-! ### The sampler (R154 to R156) -/

/-- The value of an AF16 code compared with another's: +0 equals −0. -/
def af16Lt (a b : Nat) : Bool :=
  let z := fun c => if c % 2 ^ 15 = 0 then 0 else c
  af16Gt (z b) (z a)

def af16Eq (a b : Nat) : Bool := !af16Lt a b && !af16Lt b a

/-- e > 0. -/
def af16Pos (c : Nat) : Bool := c != 0 && decide (c < 0x7E00)

/-- INVALID result word. -/
def invalidWord : Nat := 2 ^ 31

/-- kept[i] of R154: fewer than top-k elements come before i. -/
def keptBy (z : List Nat) (k : Nat) : List Bool :=
  let n := List.range z.length
  (n.zip z).map fun e =>
    decide (((n.zip z).filter fun f => af16Lt e.2 f.2 || (af16Eq e.2 f.2 && f.1 < e.1)).length < k)

/-- The draw u of R154 and R155: word 0 of the hash of the draw record, shifted. -/
def drawOf (seed : List Nat) (tok draw : Nat) : Nat :=
  nthD 0 (hashWords (sipHash128 (keyHalves seed).1 (keyHalves seed).2
    (tok % 2 ^ 40 + draw % 2 ^ 16 * 2 ^ 40 + 0x10 * 2 ^ 56) 0)) 0 / 2 ^ 8

/-- The walk within a chunk: index in the chunk, running value, last index with e > 0; the index drawn (R154). -/
def walkChunk (seed : List Nat) (base thr : Nat) : Nat → Nat → Option Nat → List Nat → Option Nat × Bool
  | _, _, last, [] => (last, false)
  | i, c, last, e :: l =>
    if af16Pos e then
      let (v, o) := srCode seed i 1 c e
      if af16Lt thr v then (some (base + i), o)
      else
        let (r, p) := walkChunk seed base thr (i + 1) v (some (base + i)) l
        (r, o || p)
    else walkChunk seed base thr (i + 1) c last l

/-- Running sums of the chunks: chunk index, run (R154). -/
def runSums (seed : List Nat) : Nat → Nat → List Nat → List Nat × Bool
  | _, _, [] => ([], false)
  | j, run, q :: l =>
    let (v, o) := srCode seed j 0 run q
    let (r, p) := runSums seed (j + 1) v l
    (v :: r, o || p)

/-- Chunks of 128 elements. -/
def chunks128 : Nat → List Nat → List (List Nat)
  | 0, _ => []
  | n + 1, l => l.take 128 :: chunks128 n (l.drop 128)

/-- What SAMPLE takes beside its logits: τ, top-k, min-p, TOK, DRAW (R154). -/
structure Draw where
  tau : Nat
  topk : Nat
  minp : Nat
  tok : Nat
  draw : Nat

/-- The result word of SAMPLE and overflow (R154): the seeds of its reductions by k-block and domain, the sampler seed. -/
def sampleBy (d : Draw) (sd : Nat → Nat → List Nat) (seed : List Nat) (l : List Nat) : Nat × Bool :=
  let idx := List.range l.length
  if l.any isNaN16 then (invalidWord, false)
  else if d.tau % 2 ^ 15 = 0 || d.topk = 1 then
    let m := maxOf l
    ((((idx.zip l).find? fun e => af16Eq e.2 m).map (·.1)).getD 0, false)
  else
    let (rt, o1) := afRcp d.tau
    let zs := l.map fun x => afMul x rt
    let z := zs.map (·.1)
    let keep := if d.topk = 0 then z.map fun _ => true else keptBy z d.topk
    let m := maxOf (((z.zip keep).filter (·.2)).map (·.1))
    let es := (z.zip keep).map fun e => if e.2 then expDiff e.1 m else (0, false)
    let e := es.map fun x => if af16Pos d.minp && af16Lt x.1 d.minp then 0 else x.1
    let ch := chunks128 ((l.length + 127) / 128) e
    let qs := ((List.range ch.length).zip ch).map fun c => treeSum (sd c.1 0x03) (pad128 c.2)
    let (rs, o2) := runSums (sd 0 0x02) 0 0 (qs.map (·.1))
    let tot := rs.getLast?.getD 0
    let ovf := o1 || o2 || zs.any (·.2) || es.any (·.2) || qs.any (·.2)
    if tot % 2 ^ 15 = 0 then (invalidWord, ovf)
    else
      let u := drawOf seed d.tok d.draw
      let (thr, o3) := toAF16 .rne (numMul (decodeAF16 tot) (.fin false u (-24)))
      let last := ((idx.zip e).filter fun x => af16Pos x.2).getLast?.map (·.1)
      match ((List.range rs.length).zip rs).find? fun r => af16Lt thr r.2 with
      | none => (last.getD 0, ovf || o3)
      | some (j, _) =>
        let c := if j = 0 then 0 else nthD 0 rs (j - 1)
        let (x, o4) := walkChunk (sd j 0x02) (128 * j) thr 0 c none (nthD [] ch j)
        (x.getD 0, ovf || o3 || o4)

/-- SAMPLE of a task's vector. -/
def sampleOf (t : Task) (key seed : List Nat) (tok : Nat) (l : List Nat) : Nat × Bool :=
  sampleBy ⟨t.p0, t.topk, t.p1, tok, t.vpstep⟩ (t.seed key tok) seed l

/-- SAMPLE (R154 to R156): one result word per vector; slot and TOK from its instance (R228). -/
def execSample (site : Site) (env : Env) (s : State) : Out :=
  vxeRun site.val 0x3C env s (fun _ => none) fun t x =>
    reduceEach site.val t (fun v token key bad x =>
      let idx := if t.rmeta then bitsOf (x.io.s.spadWord site.val ((t.rmOff + 8 * v) / 4 + 1)).v 8 12 else t.vkey
      let e := x.io.s.key site.val (4096 + idx)
      if !bad && !(e.bound && bitOf e.mask t.ctx) then (x, some (fKEY, 4096 + idx, 9, false))
      else
        let (l, x) := x.load site.val t (t.inp 0) v t.n
        let (w, o) := sampleOf t key e.words token (l.map (·.1))
        ((x.flag o).share (t.off 4 + 4 * v) 32 w (bad || l.any (·.2)), none)) x

/-- VXE_TASK_COMPLETE (R149, Table 05.3): every output write is acknowledged, and the signal terms are applied. -/
def execVxeTaskComplete (site : Site) (s : State) : Out :=
  let st := site.val
  match (s.tile st).vxe with
  | [] => .next s
  | r :: l =>
    if r.performed then
      let s := (s.setTile st { s.tile st with vxe := l }).occUpdate st
      if r.ok then
        let s := s.bump (pgVXE st 1) 0x040 1
        let s := if r.task.op = 0x3C then s.bump (pgVXE st 1) 0x050 1 else s
        let s := s.loupe st 1 r.task.ctx 0 (r.task.hdr ++ [r.task.entry])
        .next (s.signals st (r.task.signalsOf false))
      else .next s
    else .next s

end Sys2Proof.Machine
end

