-- ==== Sys2Proof/Machine/Attention.lean ====
section
/-! DEFINITION. KV pages and the attention arithmetic (R329, R330, R340 to R344), as functions of words, keys and the job's
configuration. -/

namespace Sys2Proof.Machine

/-! ### KV pages (Tables 11.2 and 11.3) -/

/-- KV heads of a head group, logical columns of a pass, bytes of a page's sections. -/
def pageG (fmt : Nat) : Nat := if fmt = 4 then 4 else 2
def pageL (fmt : Nat) : Nat := if fmt = 4 then 256 else 128
def pageLen (fmt : Nat) : Nat := if fmt = 4 then 34816 else 33792

/-- Whether a format code is one of a KV page. -/
def isPageFmt (fmt : Nat) : Bool := fmt == 0 || fmt == 1 || fmt == 4

/-- Head groups of a layer (R329). -/
def headGroups (hkv fmt : Nat) : Nat := (hkv + pageG fmt - 1) / pageG fmt

/-- KV heads that exist in group `g`: NH. -/
def headsIn (hkv fmt g : Nat) : Nat := min (pageG fmt) (hkv - g * pageG fmt)

/-- A BF16 code with its poison in bit 16, as an AF16 code. -/
def bfToAf (v : Nat) : Nat := (toAF16 .rne (decodeElem 0xC (v % 2 ^ 16))).1

/-- Element (head, channel) of a token's K (`part` 0) or V (`part` 1) in a row of K and V. -/
def kvAt (row : List Nat) (hkv layer head part ch : Nat) : Nat :=
  nthD 0 row (((layer * hkv + head) * 2 + part) * 128 + ch)

/-- Whether a block of 32 values saturates in a page's format (R70). -/
def blockOvf (fmt : Nat) (vs : List Nat) : Bool :=
  (toMx fmt .rne (vs.map bfToAf)).2.2 || vs.any fun v => (toAF16 .rne (decodeElem 0xC (v % 2 ^ 16))).2

/-- A block of 32 values in a page's format: packed bits, scale, poison (R70, R516). -/
def pageBlock (fmt : Nat) (vs : List Nat) : Nat × Nat × Bool :=
  let (sc, es, _) := toMx fmt .rne (vs.map bfToAf)
  (((List.range 32).zip es).foldl (fun a (e : Nat × Nat) => a + e.2 * 2 ^ (elemBits fmt * e.1)) 0, sc, vs.any fun v => bitOf v 16)

/-- The sections of one operand from its blocks (column, group): elements, then scales at byte g × L + c. -/
def pageSection (fmt : Nat) (blk : Nat → Nat → Nat × Nat × Bool) : List PWord :=
  let l := pageL fmt
  let els := (List.range l).flatMap fun c => (List.range 4).flatMap fun g =>
    let b := blk c g
    (wordsN (elemBits fmt) b.1).map fun w => PWord.mk w b.2.2
  let scs := (List.range l).map fun i =>
    let bs := (List.range 4).map fun k => blk ((4 * i + k) % l) ((4 * i + k) / l)
    PWord.mk (((List.range 4).zip bs).foldl (fun a (e : Nat × Nat × Nat × Bool) => a + e.2.2.1 * 2 ^ (8 * e.1)) 0)
      (bs.any fun b => b.2.2)
  els ++ scs

/-- The words of a page from offset 0x100, from 64 rows of K and V (R330). -/
def pageWords (fmt hkv layer g : Nat) (rows : List (List Nat)) : List PWord :=
  let head := fun (j : Nat) => g * pageG fmt + j
  let val := fun (j tok part ch : Nat) =>
    if head j < hkv then kvAt (nthD [] rows tok) hkv layer (head j) part ch else 0
  pageSection fmt (fun c gg => pageBlock fmt ((List.range 32).map fun i => val (c / 64) (c % 64) 0 (32 * gg + i))) ++
    pageSection fmt (fun c gg => pageBlock fmt ((List.range 32).map fun i =>
      val (2 * (c / 128) + gg / 2) (32 * (gg % 2) + i) 1 (c % 128)))

/-- Whether the conversion of a page saturates a value (R66). -/
def pageOvf (fmt hkv layer g : Nat) (rows : List (List Nat)) : Bool :=
  let val := fun (j tok part ch : Nat) => kvAt (nthD [] rows tok) hkv layer (g * pageG fmt + j) part ch
  (List.range (headsIn hkv fmt g)).any fun j => (List.range 4).any fun gg =>
    (List.range 64).any (fun t => blockOvf fmt ((List.range 32).map fun i => val j t 0 (32 * gg + i))) ||
      (decide (gg < 2) && (List.range 128).any fun c => blockOvf fmt ((List.range 32).map fun i => val j (32 * gg + i) 1 c))

/-- The words of a page from offset 0x100 to its end: the sections, then zeros (R329). -/
def pageBody (ws : List PWord) : List PWord := (ws ++ List.replicate (16320 - ws.length) (PWord.mk 0 false)).take 16320

/-- The 64 words before a page's sections (Table 11.2). -/
def pageHeader (gen fmt hg layer nh seq span : Nat) : List Nat :=
  let v := gen % 2 ^ 16 + fmt % 2 ^ 8 * 2 ^ 16 + hg % 2 ^ 8 * 2 ^ 24 + layer % 2 ^ 16 * 2 ^ 32 + nh % 2 ^ 8 * 2 ^ 48 +
    seq % 2 ^ 64 * 2 ^ 64 + span % 2 ^ 34 * 2 ^ 128
  wordsN 64 v

/-! ### One lane's chain (R340) -/

/-- A key and value block of 64 tokens as one pass holds it: mode, weights of a logical column for the score pass and the V
pass, and poison of a head's columns in each. -/
structure KvBlock where
  k : Nat → List NVal
  v : Nat → List NVal
  bad : Bool

/-- A stationary column of a page section. -/
def pageColumn (fmt : Nat) (ws : List PWord) (c : Nat) : List NVal :=
  let l := pageL fmt
  let wb := elemBits fmt
  (List.range 4).flatMap fun g =>
    let bits := (ws.drop ((4 * c + g) * wb)).take wb
    let sc := bitsOf (nthD ⟨0, false⟩ ws (4 * l * wb + (g * l + c) / 4)).v (8 * ((g * l + c) % 4)) 8
    (operandElems 3 fmt sc bits 32).map (·.val)

/-- Whether any word that a run of columns uses is poisoned. -/
def columnsBad (fmt : Nat) (ws : List PWord) (c n : Nat) : Bool :=
  let l := pageL fmt
  let wb := elemBits fmt
  ((ws.drop (4 * c * wb)).take (4 * n * wb)).any (·.p) ||
    (List.range 4).any fun g => ((ws.drop (4 * l * wb + (g * l + c) / 4)).take (n / 4)).any (·.p)

/-- Head j of a page's group. -/
def pageKv (fmt j : Nat) (ws : List PWord) : KvBlock :=
  let half := pageLen fmt / 8
  let kw := ws.take half
  let vw := ws.drop half
  ⟨fun v => pageColumn fmt kw (64 * j + v), fun d => pageColumn fmt vw (128 * (j / 2) + d),
    columnsBad fmt kw (64 * j) 64 || columnsBad fmt vw (128 * (j / 2)) 128⟩

/-- 64 tokens of the tail as H16 operands: rows of K and V from token `tok`, those beyond `n` rows absent. -/
def tailKv (hkv layer head i : Nat) (rows : List (List Nat)) : KvBlock :=
  let at_ := fun (tok part ch : Nat) => kvAt (nthD [] rows tok) hkv layer head part ch
  ⟨fun v => (List.range 128).map fun ch => decodeElem 0xC (at_ v 0 ch % 2 ^ 16),
   fun d => (List.range 128).map fun r => if r / 64 = i then decodeElem 0xC (at_ (r % 64) 1 d % 2 ^ 16) else .fin false 0 0,
   rows.any fun r => (List.range 256).any fun x => bitOf (nthD 0 r ((layer * hkv + head) * 256 + x)) 16⟩

/-- Operations that overflowed (R66): engine (0 MXA, 1 VXE, 2 RTR), LTN of its tile. -/
abbrev Ovfs := List (Nat × Nat)

/-- A partial in progress: n, m, s, poison, whether a pass and whether a vector operation overflowed. -/
structure Part where
  n : List Nat
  m : Nat
  s : Nat
  bad : Bool
  mx : Bool
  vx : Bool

def Part.init : Part := ⟨List.replicate 128 0, 0xFDFF, 0, false, false, false⟩

/-- What overflowed of a partial formed on the tile of an LTN. -/
def Part.ovfs (x : Part) (ltn : Nat) : Ovfs := (if x.mx then [(0, ltn)] else []) ++ if x.vx then [(1, ltn)] else []

/-- What a chain step needs besides its block: key, streams, position p, head j of its group, block number k, step t, how
many tokens take part, whether the operands are BF16. -/
structure ChainStep where
  key : List Nat
  cfg : GroupCfg
  p : Nat
  j : Nat
  k : Nat
  t : Nat
  live : Nat
  wide : Bool

/-- Activation values of 128 AF16 codes, by R70 to MXFP8 E4M3 or to BF16, and whether one saturates. -/
def toActs (wide : Bool) (xs : List Nat) : List NVal × Bool :=
  if wide then
    let ys := xs.map fun x => toBF16 .rne (decodeAF16 x)
    (ys.map fun y => decodeElem 0xC y.1, ys.any (·.2))
  else
    let bs := (List.range 4).map fun g => toMx 0 .rne ((xs.drop (32 * g)).take 32)
    (bs.flatMap fun b => b.2.1.map fun e => scaleBy b.1 (deInf 3 (decodeElem 0 e)).1, bs.any (·.2.2))

/-- Pass index j of a score or V pass (Table 11.7). The pass of span k has KBLOCK k, which R102 makes KBASE + k of its
instruction, and is no pass of a chain of another span: each span's pass is pass 0 of an instruction of its own (DEDUCED; log
entry 200). -/
def passOfSpan : Nat := 0

/-- One step of the chain of R340 for one query row: query values and the block. -/
def chainStep (c : ChainStep) (q : List NVal) (qbad : Bool) (b : KvBlock) (x : Part) : Part :=
  let seed := fun (stream domain kblock pstep : Nat) => seedOf c.key ⟨stream, c.p, kblock, pstep, domain⟩
  let ks := c.k % 2 ^ 24
  let sc := seed c.cfg.score 1 ks passOfSpan
  let ys := (List.range c.live).map fun v => columnSum sc (64 * c.j + v) 0 0 q (b.k v)
  let ((m, s, al, es), o) := smaxCore (seed c.cfg.smax 3 0 c.t) (seed c.cfg.smax 2 0 c.t) c.t x.m x.s (ys.map (·.1))
  let i := c.j % 2
  let a := List.replicate (64 * i) 0 ++ es ++ List.replicate (128 - 64 * i - es.length) 0
  let (acts, oa) := toActs c.wide a
  let sv := seed c.cfg.v 1 ks passOfSpan
  let cin := (List.range 128).map fun d => afMul (nthD 0 x.n d) al
  let n := (List.range 128).map fun d => columnSum sv (128 * (c.j / 2) + d) 0 (nthD (0, false) cin d).1 acts (b.v d)
  ⟨n.map (·.1), m, s, x.bad || qbad || b.bad, x.mx || ys.any (·.2) || n.any (·.2),
    x.vx || o || oa || cin.any (·.2)⟩

/-- The lane of span k (R340). -/
def laneOf (k ns lanes : Nat) : Nat := k / (16 * ns) % lanes

/-- One lane's chain over blocks: block number and block, in ascending order. -/
def laneChain (c : ChainStep) (q : List NVal) (qbad : Bool) : Nat → List (Nat × KvBlock) → Part → Part
  | _, [], x => x
  | t, (k, b) :: l, x => laneChain c q qbad (t + 1) l (chainStep { c with k := k, t := t } q qbad b x)

/-- The lane reduction of R341 on a stack of operand vectors, and the routers that overflowed. -/
def laneReduce (seed : Nat → Nat → List Nat) (cs : List (List (Nat × Bool))) :
    List RStep → List (List (Nat × Bool)) → List (Nat × Bool) × Ovfs
  | [], st => (nthD [] st 0, [])
  | .lane a :: l, st => laneReduce seed cs l (nthD [] cs a :: st)
  | .add n stream kblock node ltn :: l, st =>
    let (v, o) := accordSum (seed stream kblock) node (st.take n).reverse
    let (r, os) := laneReduce seed cs l (v :: st.drop n)
    (r, (if o then [(2, ltn)] else []) ++ os)

/-- One lane of a combine: whether it holds a span, its partial, the LTN of its tile. -/
structure Lane where
  holds : Bool
  part : Part
  ltn : Nat

/-- The lanes' partials combined (R341): p, query head and key give the record of the accord sum. -/
def combineLanes (key : List Nat) (p h : Nat) (tree : List RStep) (lanes : List Lane) : Part × Ovfs :=
  let m := lanes.foldl (fun a (e : Lane) => if e.holds then af16Max a e.part.m else a) 0xFDFF
  let cs := lanes.map fun (e : Lane) =>
    if e.holds then
      let f := expDiff e.part.m m
      let xs := (e.part.n ++ [e.part.s]).map fun x => afMul x f.1
      (xs.map fun x => (x.1, e.part.bad), f.2 || xs.any (·.2))
    else (List.replicate 129 (0, false), false)
  let (r, os) := laneReduce (fun stream kblock => seedOf key ⟨stream, p, kblock, h, 4⟩) (cs.map (·.1)) tree []
  (⟨(r.take 128).map (·.1), m, (nthD (0, false) r 128).1, r.any (·.2), false, false⟩,
    (lanes.zip cs).flatMap (fun (e : Lane × _) => { e.1.part with vx := e.1.part.vx || e.2.2 }.ovfs e.1.ltn) ++ os)

/-- The part of one query row and head over sealed spans: blocks with their numbers, lanes, tree (R340, R341). -/
def spansPart (key : List Nat) (lc : LayerCfg) (lanes : Nat) (tree : List RStep) (ns p h kvHead : Nat) (q : List NVal)
    (qbad : Bool) (blocks : List (Nat × (Nat → KvBlock))) : Part × Ovfs :=
  let j := kvHead % pageG lc.fmt
  let cfg := nthD ⟨0, 0, 0⟩ lc.groups (kvHead / pageG lc.fmt)
  let c : ChainStep := ⟨key, cfg, p, j, 0, 0, 64, false⟩
  combineLanes key p h tree ((List.range lanes).map fun a =>
    let mine := (blocks.filter fun b => laneOf b.1 ns lanes == a).map fun b => (b.1, b.2 j)
    ⟨!mine.isEmpty, laneChain c q qbad 0 mine Part.init, lc.laneLtn a⟩)

/-- The tail part of one query row and head (R340): tokens 64 × Ns to p in blocks of 64. -/
def tailPart (key : List Nat) (lc : LayerCfg) (hkv layer ns p kvHead : Nat) (q : List NVal) (qbad : Bool)
    (rows : List (List Nat)) : Part :=
  let cfg := nthD ⟨0, 0, 0⟩ lc.tailGroups (kvHead / 2)
  (List.range ((p + 64 - 64 * ns) / 64)).foldl (fun x t =>
    let rs := (rows.drop (64 * t)).take 64
    let live := min 64 (p + 1 - 64 * (ns + t))
    chainStep ⟨key, cfg, p, kvHead % 2, ns + t, t, live, true⟩ q qbad
      (tailKv hkv layer kvHead (kvHead % 2) (rs.take live)) x) Part.init

/-- A record of 130 values with its POISON mark (Table 11.6). -/
def Part.record (x : Part) : List Nat × Bool := (x.n ++ [x.m, x.s], x.bad)

/-- MERGE of the parts in order (R343), and the attention output o[d] := rne(n[d] × rcp(s)); whether one overflows. -/
def chainParts (key : List Nat) (stream p layer : Nat) :
    List (List Nat × Bool) → Nat → List Nat × Bool → (List Nat × Bool) × Bool
  | [], _, x =>
    let r := afRcp (nthD 0 x.1 129)
    let o := (x.1.take 128).map fun n => afMul n r.1
    ((o.map (·.1), x.2), r.2 || o.any (·.2))
  | y :: l, r, x =>
    let (o, f) := mergeOf (seedOf key ⟨stream, p, layer, r, 5⟩) r x.1 y.1
    let (z, g) := chainParts key stream p layer l (r + 1) (o, x.2 || y.2)
    (z, f || g)

/-- The output of the non-omitted parts; none gives zeros. -/
def attnOutput (key : List Nat) (stream p layer : Nat) (parts : List (List Nat × Bool)) : (List Nat × Bool) × Bool :=
  match parts with
  | [] => ((List.replicate 128 0, false), false)
  | x :: l => chainParts key stream p layer l 0 x

/-- A query by R70 in MXFP8 E4M3 after the softmax scale (R338): elements and scales; whether it saturates. -/
def queryMx (scale : Nat) (q : List Nat) : (List Nat × List Nat) × Bool :=
  let xs := q.map fun x => afMul (x % 2 ^ 16) scale
  let bs := (List.range 4).map fun g => toMx 0 .rne (((xs.map (·.1)).drop (32 * g)).take 32)
  ((bs.flatMap (·.2.1), bs.map (·.1)), xs.any (·.2) || bs.any (·.2.2))

/-- The values of an MXFP8 query. -/
def queryVals (q : List Nat × List Nat) : List NVal :=
  (List.range 4).flatMap fun g =>
    ((q.1.drop (32 * g)).take 32).map fun e => scaleBy (nthD 0 q.2 g) (deInf 3 (decodeElem 0 e)).1

/-- The order key of an AF16 value (R341). -/
def maxKey (x : Nat) : Nat := if bitOf x 15 then 0xFFFF - x else x + 0x8000

end Sys2Proof.Machine
end

