-- ==== Sys2Proof/Machine/Sequencer.lean ====
section
/-! DEFINITION. The tile sequencer: contexts and threads, the RV32IMC instructions and the custom ones, task windows and
the firing rule, the key store, sync object records, the swap of the activity banks (chapters 05 and 06). -/

namespace Sys2Proof.Machine

open Sys2Proof

/-- Engine code of the sequencer in SEQ_FAULT_n. -/
def eSEQ : Nat := 4

/-! ### Contexts (R131 to R133) -/

/-- A thread runs: its context is RUNNING and not being stopped, and the SEQ runs (R131, R165). -/
def State.threadRuns (s : State) (site ctx : Nat) : Bool :=
  s.siteOn site && s.runs (pgSEQ site 0) && s.clocked site && !s.halting (pgSEQ site 0) && (s.thread site ctx).st == .running &&
    !(s.thread site ctx).stopping

/-- SEQ_CTX_STATE (Table 05.6). -/
def State.ctxStateWord (s : State) (site : Nat) : Nat :=
  (List.range 8).foldl (fun a n =>
    let t := s.thread site n
    a + b2n (t.st == .running && !t.stopping) * 2 ^ n + b2n (t.st == .halted) * 2 ^ (8 + n) +
      b2n (t.st == .faulted) * 2 ^ (16 + n) + b2n (s.busy site n) * 2 ^ (24 + n)) 0

/-- Whether a start of a context has its conditions (R132, R137). -/
def State.startable (s : State) (site ctx : Nat) : Bool :=
  s.enabled (pgSEQ site 0) && s.flag (pgSEQ site 0) 0x050 0 && !s.busy site ctx && !(s.thread site ctx).stopping &&
    (s.thread site ctx).st != .running

/-- One context starts, or CTXSTART is set (R132). -/
def State.startCtx (s : State) (site ctx : Nat) : State :=
  let (inj, s) := s.injected (pgSEQ site 0) 9
  if !inj && s.startable site ctx then
    let t := s.setThread site ctx
      ⟨.running, 2 * s.fld (pgSEQ site 0) (0x060 + 4 * ctx) 1 17, [], 0, .none, false, false⟩
    (t.setReg (pgSEQ site 0) (0x080 + 4 * ctx) 0).setReg (pgSEQ site 0) (0x0A0 + 4 * ctx) 0
  else s.raise (pgSEQ site 0) 9 clsInfo .none inj []

/-- The contexts named by a mask, ascending. -/
def ctxsOf (mask : Nat) : List Nat := (List.range 8).filter fun n => bitOf mask n

/-- SEQ_CTX_START (R132). -/
def execSeqCtxStart (site : Site) (mask : BitVec 8) (s : State) : Out :=
  if s.siteOn site.val then .next ((ctxsOf mask.toNat).foldl (fun (t : State) n => t.startCtx site.val n) s)
  else .next s

/-- One context is stopped (R133): it becomes IDLE at once when it is not BUSY. -/
def State.stopCtx (s : State) (site ctx : Nat) : State :=
  let th := s.thread site ctx
  if th.st == .idle then s
  else
    let t := s.dropTasks site ctx
    if t.busy site ctx then t.setThread site ctx { t.thread site ctx with block := .none, stopping := true }
    else t.setThread site ctx { t.thread site ctx with block := .none, stopping := false, st := .idle }

/-- SEQ_CTX_STOP (R133). -/
def execSeqCtxStop (site : Site) (mask : BitVec 8) (s : State) : Out :=
  if s.siteOn site.val then .next ((ctxsOf mask.toNat).foldl (fun (t : State) n => t.stopCtx site.val n) s)
  else .next s

/-- STOP_IDLE (R133): a stopped context that is no longer BUSY becomes IDLE. -/
def execStopIdle (site : Site) (ctx : Ctx) (s : State) : Out :=
  let th := s.thread site.val ctx.val
  if th.stopping && !s.busy site.val ctx.val then
    .next (s.setThread site.val ctx.val { th with st := .idle, stopping := false })
  else .next s

/-! ### What every instruction does to its thread -/

/-- A RISC-V exception (R135). -/
def State.seqExc (s : State) (site ctx cause : Nat) : State := s.ctxFault site ctx fSEQ eSEQ cause

/-- An instruction of a thread that has not faulted retires: rd, the next pc, instret. -/
def State.retire (s : State) (site ctx rd v npc : Nat) : State :=
  let th := s.thread site ctx
  if th.st == .running then
    s.setThread site ctx { th.set rd v with pc := npc % 2 ^ 32, instret := th.instret + 1, block := .none }
  else s

/-- A thread blocks and gives up its turn. -/
def State.blockOn (s : State) (site ctx : Nat) (b : Block) : State :=
  let th := s.thread site ctx
  if th.st == .running then s.setThread site ctx { th with block := b } else s

/-- A register of a thread. -/
def State.xreg (s : State) (site ctx r : Nat) : Nat := (s.thread site ctx).get r

/-- A local access of a thread. -/
def seqBy (site ctx : Nat) : By := ⟨site, pSEQ, ctx, none⟩

/-! ### Loads and stores (R138, R191, R206) -/

/-- Access width of a load or store code, if it is one. -/
def accessBytes (store : Bool) (f3 : Nat) : Option Nat :=
  match f3 with
  | 0 => some 1
  | 1 => some 2
  | 2 => some 4
  | 4 => if store then none else some 1
  | 5 => if store then none else some 2
  | _ => none

/-- A loaded value, extended. -/
def loadValue (f3 off v : Nat) : Nat :=
  let x := v / 2 ^ (8 * off)
  match f3 with
  | 0 => wrapInt 32 (sext 8 x)
  | 1 => wrapInt 32 (sext 16 x)
  | 4 => x % 2 ^ 8
  | 5 => x % 2 ^ 16
  | _ => v

/-- A load of a thread. -/
def State.seqLoad (s : State) (site ctx f3 rd addr len : Nat) (env : Env) : State :=
  match accessBytes false f3 with
  | none => s.seqExc site ctx 2
  | some n =>
    if addr % n ≠ 0 then s.seqExc site ctx 4
    else if spadBytes ≤ addr then s.ctxFault site ctx fADDR eSEQ (low16 addr)
    else
      let (v, x) := Io.read ⟨s, env⟩ (seqBy site ctx) (addr / 4)
      if v.p then (x.s.poisonSeen (pgSEQ site 0)).seqExc site ctx 5
      else x.s.retire site ctx rd (loadValue f3 (addr % 4) v.v) ((x.s.thread site ctx).pc + len)

/-- A store of a thread. SB and SH read the word and write it merged, keeping its poison bit; a read dropped in a conflict,
which faults the context, drops the store. -/
def State.seqStore (s : State) (site ctx f3 v addr len : Nat) (env : Env) : State :=
  match accessBytes true f3 with
  | none => s.seqExc site ctx 2
  | some n =>
    if addr % n ≠ 0 then s.seqExc site ctx 6
    else if spadBytes ≤ addr then s.ctxFault site ctx fADDR eSEQ (low16 addr)
    else
      let done := fun (t : State) => t.retire site ctx 0 0 ((t.thread site ctx).pc + len)
      if n = 4 then done (Io.write ⟨s, env⟩ (seqBy site ctx) (addr / 4) ⟨v, false⟩).s
      else
        let (old, x) := Io.read ⟨s, env⟩ (seqBy site ctx) (addr / 4)
        if (x.s.thread site ctx).st != .running then x.s
        else
          done (x.store (seqBy site ctx) (addr / 4) ⟨putBits old.v (8 * (addr % 4)) (8 * n) v, old.p⟩ true).s

/-! ### Remote requests (R139, R200, R204) -/

/-- Requester number and RSITE of a tile (R200). -/
def State.reqOf (s : State) (site : Nat) : Nat × Bool :=
  match s.ltnOfSite site with
  | some n => (n, false)
  | none => (site, true)

/-- Packet type of a remote request. -/
def RKind.ty : RKind → Nat
  | .read => tRD
  | .write => tWR
  | .amo _ => tAMO
  | .cas => tCAS

/-- A remote request is issued, or issued again with the same requester and tag and a fresh translation (R201, R260). A
router with no map translates nothing, and the request times out. -/
def State.issueRemote (s : State) (site : Nat) (r : RemOut) : State :=
  let keep := fun (t : State) (q : RemOut) =>
    let x := t.tile site
    t.setTile site { x with rem := (x.rem.filter fun e => e.tag != q.tag) ++ [q] }
  match s.siteOfLtn site r.ltn with
  | none => keep s r
  | some d =>
    keep (s.inject ⟨r.kind.ty, site, 4, d, r.ltn, r.who, r.tag, 0, r.rsite, r.word, r.data, 4, s.cyc site⟩)
      { r with site := some d }

/-- A remote instruction of a thread: refused, or issued, and the thread blocks until its response. -/
def State.seqRemote (s : State) (site ctx : Nat) (kind : RKind) (rd a data b : Nat) : State :=
  let ltn := bitsOf a 21 11
  let word := bitsOf a 0 21
  if s.ltns ≤ ltn || spadWords ≤ word then s.ctxFault site ctx fADDR eSEQ (low16 a)
  else
    let (req, rsite) := s.reqOf site
    let r : RemOut := ⟨128 + ctx, req, rsite, kind, ltn, word, 1, [⟨data, false⟩], b, s.cyc site, 0, none⟩
    (s.issueRemote site r).blockOn site ctx (.remote (128 + ctx) rd)

/-! ### TASK, SWAIT, SSIG, HALT -/

/-- Depth of an engine's window (Table 05.9). -/
def winDepth (engine : Nat) : Nat := if engine = 0 then 16 else 32

/-- Tasks that hold a place in an engine's window, those being copied included (R140). -/
def State.winUsed (s : State) (site engine : Nat) : Nat :=
  let t := s.tile site
  ((t.win ++ t.copied.map (·.task)).filter fun k => k.engine == engine).length

/-- TASK (R140, R141, R217): the task is stamped and its copying begins behind those already waiting, or the thread blocks on
a full window. `ramp` says that it is a RAMP task, for which the manual gives no encoding (log entry 7). -/
def State.seqTask (s : State) (site ctx rd rs1 rs2 len : Nat) (ramp : Bool) (env : Env) : State :=
  let engine := s.xreg site ctx rs2 % 8
  if engine < 4 && winDepth engine ≤ s.winUsed site engine then s.blockOn site ctx (.window engine)
  else
    let off := s.xreg site ctx rs1
    let e := (s.tile site).entryCtr
    let k : Task := ⟨ctx, e, engine, [], [], off, false, ramp && engine == 0⟩
    let u := s.setTile site { s.tile site with
      copied := (s.tile site).copied ++ [⟨k, [], env, s.cyc site⟩]
      entryCtr := (e + 1) % 2 ^ 32 }
    (u.retire site ctx rd e ((u.thread site ctx).pc + len)).copyNow site

/-- The entry number of a thread's SWAIT: the entry counter when it first issued (R143, R146; log entry 191). -/
def State.swaitEntry (s : State) (site ctx : Nat) : Nat :=
  match (s.thread site ctx).block with
  | .swait _ _ _ e => e
  | _ => (s.tile site).entryCtr

/-- A satisfied SWAIT takes its counts and retires. -/
def State.swaitFires (s : State) (site ctx len : Nat) (w : WTerm) : State :=
  (s.consume site (s.consumption site ctx [w])).retire site ctx 0 0 ((s.thread site ctx).pc + len)

/-- SWAIT of a kind (R143, R168, R169, R176): refused, satisfied, or the thread blocks. Its reference meets the injections of
SYN bits 9 and 12 (R44). -/
def State.seqSwait (s : State) (site ctx kind rs1 rs2 len : Nat) : State :=
  let s := s.nextRound site
  let vid := s.xreg site ctx rs1 % 2 ^ 13
  let count := s.xreg site ctx rs2 % 2 ^ 16
  if count = 0 || (kind == 2 && !barrierCountOk count) then s.ctxFault site ctx fDESC eSEQ 0x0005
  else
    match s.takeInjOf (pgSYN site 0) [9, 12] with
    | some (b, t) =>
      t.syncFault site ctx fSYNC eSEQ (vid + (if b = 12 then 2 ^ 13 else 0)) ((s.resolve site ctx vid).getD 0) b true
    | none =>
      match syncCheck s site ctx vid (some kind) with
      | some (d, b) => s.syncFault site ctx fSYNC eSEQ d ((s.resolve site ctx vid).getD 0) b false
      | none =>
        let w : WTerm := ⟨vid, count, kind⟩
        if s.waitOk site ctx [] w then s.swaitFires site ctx len w
        else s.blockOn site ctx (.swait vid count kind (s.swaitEntry site ctx))

/-- SSIG (R183): the signal is applied, after the thread's earlier stores, which are written when they issue. -/
def State.seqSsig (s : State) (site ctx rs1 rs2 len : Nat) : State :=
  let t := s.signals site [⟨ctx, s.xreg site ctx rs1 % 2 ^ 13, s.xreg site ctx rs2 % 2 ^ 8, eSEQ, false⟩]
  t.retire site ctx 0 0 ((t.thread site ctx).pc + len)

/-- HALT (R131): the thread ends. -/
def State.seqHalt (s : State) (site ctx len : Nat) : State :=
  let t := s.retire site ctx 0 0 ((s.thread site ctx).pc + len)
  t.setThread site ctx { t.thread site ctx with st := .halted }

/-! ### RV32IMC -/

/-- Encoders of the instruction formats, for the expansion of 16-bit instructions. -/
def encR (f7 rs2 rs1 f3 rd op : Nat) : Nat :=
  f7 * 2 ^ 25 + rs2 * 2 ^ 20 + rs1 * 2 ^ 15 + f3 * 2 ^ 12 + rd * 2 ^ 7 + op
def encI (imm rs1 f3 rd op : Nat) : Nat := imm % 2 ^ 12 * 2 ^ 20 + rs1 * 2 ^ 15 + f3 * 2 ^ 12 + rd * 2 ^ 7 + op
def encS (imm rs2 rs1 f3 : Nat) : Nat := encR (bitsOf imm 5 7) rs2 rs1 f3 (bitsOf imm 0 5) 0x23
def encB (imm rs2 rs1 f3 : Nat) : Nat :=
  encR (bitsOf imm 12 1 * 2 ^ 6 + bitsOf imm 5 6) rs2 rs1 f3 (bitsOf imm 1 4 * 2 + bitsOf imm 11 1) 0x63
def encJ (imm rd : Nat) : Nat :=
  bitsOf imm 20 1 * 2 ^ 31 + bitsOf imm 1 10 * 2 ^ 21 + bitsOf imm 11 1 * 2 ^ 20 + bitsOf imm 12 8 * 2 ^ 12 + rd * 2 ^ 7 + 0x6F

/-- The low `n` bits of a `w`-bit two's-complement field. -/
def sx (w n v : Nat) : Nat := wrapInt n (sext w v)

/-- The offset of C.J and C.JAL, and of C.BEQZ and C.BNEZ. -/
def cJump (c : Nat) : Nat :=
  sx 12 21 (bitsOf c 12 1 * 2 ^ 11 + bitsOf c 8 1 * 2 ^ 10 + bitsOf c 9 2 * 2 ^ 8 + bitsOf c 6 1 * 2 ^ 7 +
    bitsOf c 7 1 * 2 ^ 6 + bitsOf c 2 1 * 2 ^ 5 + bitsOf c 11 1 * 2 ^ 4 + bitsOf c 3 3 * 2)
def cBranch (c : Nat) : Nat :=
  sx 9 13 (bitsOf c 12 1 * 2 ^ 8 + bitsOf c 5 2 * 2 ^ 6 + bitsOf c 2 1 * 2 ^ 5 + bitsOf c 10 2 * 2 ^ 3 + bitsOf c 3 2 * 2)

/-- Quadrant 0. -/
def expandC0 (c : Nat) : Option Nat :=
  let rdp := 8 + bitsOf c 2 3
  let rsp := 8 + bitsOf c 7 3
  let uw := bitsOf c 10 3 * 2 ^ 3 + bitsOf c 6 1 * 2 ^ 2 + bitsOf c 5 1 * 2 ^ 6
  match bitsOf c 13 3 with
  | 0 =>
    let u := bitsOf c 11 2 * 2 ^ 4 + bitsOf c 7 4 * 2 ^ 6 + bitsOf c 6 1 * 2 ^ 2 + bitsOf c 5 1 * 2 ^ 3
    if u = 0 then none else some (encI u 2 0 rdp 0x13)
  | 2 => some (encI uw rsp 2 rdp 0x03)
  | 6 => some (encS uw rdp rsp 2)
  | _ => none

/-- The arithmetic group of quadrant 1. -/
def expandArith (c : Nat) : Option Nat :=
  let rd := 8 + bitsOf c 7 3
  let rs2 := 8 + bitsOf c 2 3
  let sh := bitsOf c 2 5
  match bitsOf c 10 2 with
  | 0 => if bitOf c 12 then none else some (encI sh rd 5 rd 0x13)
  | 1 => if bitOf c 12 then none else some (encI (0x400 + sh) rd 5 rd 0x13)
  | 2 => some (encI (sx 6 12 (bitsOf c 12 1 * 2 ^ 5 + sh)) rd 7 rd 0x13)
  | _ =>
    if bitOf c 12 then none
    else match bitsOf c 5 2 with
      | 0 => some (encR 0x20 rs2 rd 0 rd 0x33)
      | 1 => some (encR 0 rs2 rd 4 rd 0x33)
      | 2 => some (encR 0 rs2 rd 6 rd 0x33)
      | _ => some (encR 0 rs2 rd 7 rd 0x33)

/-- Quadrant 1. -/
def expandC1 (c : Nat) : Option Nat :=
  let rd := bitsOf c 7 5
  let imm6 := bitsOf c 12 1 * 2 ^ 5 + bitsOf c 2 5
  let rsp := 8 + bitsOf c 7 3
  match bitsOf c 13 3 with
  | 0 => some (encI (sx 6 12 imm6) rd 0 rd 0x13)
  | 1 => some (encJ (cJump c) 1)
  | 2 => some (encI (sx 6 12 imm6) 0 0 rd 0x13)
  | 3 =>
    if imm6 = 0 then none
    else if rd = 2 then
      some (encI (sx 10 12 (bitsOf c 12 1 * 2 ^ 9 + bitsOf c 6 1 * 2 ^ 4 + bitsOf c 5 1 * 2 ^ 6 + bitsOf c 3 2 * 2 ^ 7 +
        bitsOf c 2 1 * 2 ^ 5)) 2 0 2 0x13)
    else some (sx 6 20 imm6 * 2 ^ 12 + rd * 2 ^ 7 + 0x37)
  | 4 => expandArith c
  | 5 => some (encJ (cJump c) 0)
  | 6 => some (encB (cBranch c) 0 rsp 0)
  | _ => some (encB (cBranch c) 0 rsp 1)

/-- Quadrant 2. -/
def expandC2 (c : Nat) : Option Nat :=
  let rd := bitsOf c 7 5
  let rs2 := bitsOf c 2 5
  match bitsOf c 13 3 with
  | 0 => if bitOf c 12 then none else some (encI rs2 rd 1 rd 0x13)
  | 2 =>
    if rd = 0 then none
    else some (encI (bitsOf c 12 1 * 2 ^ 5 + bitsOf c 4 3 * 2 ^ 2 + bitsOf c 2 2 * 2 ^ 6) 2 2 rd 0x03)
  | 4 =>
    if bitOf c 12 then
      if rs2 ≠ 0 then some (encR 0 rs2 rd 0 rd 0x33)
      else if rd = 0 then some 0x0010_0073 else some (encI 0 rd 0 1 0x67)
    else if rs2 ≠ 0 then some (encR 0 rs2 0 0 rd 0x33)
    else if rd = 0 then none else some (encI 0 rd 0 0 0x67)
  | 6 => some (encS (bitsOf c 9 4 * 2 ^ 2 + bitsOf c 7 2 * 2 ^ 6) rs2 2 2)
  | _ => none

/-- The 32-bit instruction a 16-bit one stands for; none for an illegal one (RISC-V C for RV32). -/
def expandC (c : Nat) : Option Nat :=
  match c % 4 with
  | 0 => expandC0 c
  | 1 => expandC1 c
  | 2 => expandC2 c
  | _ => none

/-- RV32 shifts right arithmetic. -/
def sra32 (a n : Nat) : Nat := wrapInt 32 (sext 32 a / (2 ^ n : Nat))

/-- The base and M operations of OP; none for an encoding that is none of them. -/
def aluOp (f7 f3 a b : Nat) : Option Nat :=
  let sa := sext 32 a
  let sb := sext 32 b
  match f7 with
  | 0 =>
    match f3 with
    | 0 => some ((a + b) % 2 ^ 32)
    | 1 => some (a * 2 ^ (b % 32) % 2 ^ 32)
    | 2 => some (b2n (decide (sa < sb)))
    | 3 => some (b2n (decide (a < b)))
    | 4 => some (a ^^^ b)
    | 5 => some (a / 2 ^ (b % 32))
    | 6 => some (a ||| b)
    | _ => some (a &&& b)
  | 0x20 =>
    match f3 with
    | 0 => some ((a + 2 ^ 32 - b) % 2 ^ 32)
    | 5 => some (sra32 a (b % 32))
    | _ => none
  | 1 =>
    match f3 with
    | 0 => some (a * b % 2 ^ 32)
    | 1 => some (wrapInt 32 (sa * sb / (2 ^ 32 : Nat)))
    | 2 => some (wrapInt 32 (sa * (b : Int) / (2 ^ 32 : Nat)))
    | 3 => some (a * b / 2 ^ 32)
    | 4 => some (if b = 0 then 2 ^ 32 - 1 else wrapInt 32 (Int.tdiv sa sb))
    | 5 => some (if b = 0 then 2 ^ 32 - 1 else a / b)
    | 6 => some (if b = 0 then a else wrapInt 32 (Int.tmod sa sb))
    | _ => some (if b = 0 then a else a % b)
  | _ => none

/-- The operations of OP-IMM. -/
def aluImm (f3 f7 a imm : Nat) : Option Nat :=
  match f3 with
  | 1 => if f7 = 0 then aluOp 0 1 a (imm % 32) else none
  | 5 => if f7 = 0 then aluOp 0 5 a (imm % 32) else if f7 = 0x20 then aluOp 0x20 5 a (imm % 32) else none
  | _ => aluOp 0 f3 a imm

/-- Whether a branch is taken; none for an illegal code. -/
def branchTaken (f3 a b : Nat) : Option Bool :=
  match f3 with
  | 0 => some (a == b)
  | 1 => some (a != b)
  | 4 => some (decide (sext 32 a < sext 32 b))
  | 5 => some (!decide (sext 32 a < sext 32 b))
  | 6 => some (decide (a < b))
  | 7 => some (!decide (a < b))
  | _ => none

/-- A counter CSR of R134. -/
def State.csr (s : State) (site ctx n : Nat) : Option Nat :=
  let cyc := s.cyc site - (s.tile site).onSince
  let time := s.facetTime (facetOf site)
  let ret := (s.thread site ctx).instret
  match n with
  | 0xC00 => some (cyc % 2 ^ 32)
  | 0xC01 => some (time % 2 ^ 32)
  | 0xC02 => some (ret % 2 ^ 32)
  | 0xC80 => some (cyc / 2 ^ 32 % 2 ^ 32)
  | 0xC81 => some (time / 2 ^ 32 % 2 ^ 32)
  | 0xC82 => some (ret / 2 ^ 32 % 2 ^ 32)
  | _ => none

/-- SYSTEM: ECALL, EBREAK, and reads of the counters, which are read-only. -/
def State.seqSystem (s : State) (site ctx w rd len : Nat) : State :=
  let f3 := bitsOf w 12 3
  if w = 0x0000_0073 then s.seqExc site ctx 11
  else if w = 0x0010_0073 then s.seqExc site ctx 3
  else if (f3 == 2 || f3 == 3 || f3 == 6 || f3 == 7) && bitsOf w 15 5 == 0 then
    match s.csr site ctx (bitsOf w 20 12) with
    | some v => s.retire site ctx rd v ((s.thread site ctx).pc + len)
    | none => s.seqExc site ctx 2
  else s.seqExc site ctx 2

/-- The custom-0 instructions (Table 05.2). -/
def State.seqCustom0 (s : State) (site ctx w len : Nat) (ramp : Bool) (env : Env) : State :=
  let rd := bitsOf w 7 5
  let rs1 := bitsOf w 15 5
  let rs2 := bitsOf w 20 5
  let f7 := bitsOf w 25 7
  let x := fun r => s.xreg site ctx r
  match bitsOf w 12 3 with
  | 0 => if f7 = 0 then s.seqTask site ctx rd rs1 rs2 len ramp env else s.seqExc site ctx 2
  | 1 => if f7 = 0 then s.seqSwait site ctx 1 rs1 rs2 len else if f7 = 1 then s.seqSwait site ctx 0 rs1 rs2 len
         else if f7 = 2 then s.seqSwait site ctx 2 rs1 rs2 len else s.seqExc site ctx 2
  | 2 => if f7 = 0 then s.seqSsig site ctx rs1 rs2 len else s.seqExc site ctx 2
  | 3 => if f7 = 0 then s.seqHalt site ctx len else s.seqExc site ctx 2
  | 4 => if f7 = 0 then s.seqRemote site ctx .read rd (x rs1) 0 0 else s.seqExc site ctx 2
  | 5 => if f7 = 0 then s.seqRemote site ctx .write 0 (x rs1) (x rs2) 0 else s.seqExc site ctx 2
  | 6 => if f7 < 6 then s.seqRemote site ctx (.amo f7) rd (x rs1) (x rs2) 0 else s.seqExc site ctx 2
  | _ => s.seqExc site ctx 2

/-- RCAS: rs3 stands in bits [31:27] and bits [26:25] are 0, as in the R4 format of RISC-V (log entry 7). -/
def State.seqCustom1 (s : State) (site ctx w : Nat) : State :=
  let x := fun r => s.xreg site ctx r
  if bitsOf w 12 3 = 0 ∧ bitsOf w 25 2 = 0 then
    s.seqRemote site ctx .cas (bitsOf w 7 5) (x (bitsOf w 15 5)) (x (bitsOf w 20 5)) (x (bitsOf w 27 5))
  else s.seqExc site ctx 2

/-- A decoded 32-bit instruction of length `len` executes. -/
def State.seqExec (s : State) (site ctx w len : Nat) (ramp : Bool) (env : Env) : State :=
  let pc := (s.thread site ctx).pc
  let rd := bitsOf w 7 5
  let f3 := bitsOf w 12 3
  let f7 := bitsOf w 25 7
  let a := s.xreg site ctx (bitsOf w 15 5)
  let b := s.xreg site ctx (bitsOf w 20 5)
  let immI := sx 12 32 (bitsOf w 20 12)
  let immS := sx 12 32 (bitsOf w 25 7 * 2 ^ 5 + bitsOf w 7 5)
  let immB := sx 13 32 (bitsOf w 31 1 * 2 ^ 12 + bitsOf w 7 1 * 2 ^ 11 + bitsOf w 25 6 * 2 ^ 5 + bitsOf w 8 4 * 2)
  let immJ := sx 21 32 (bitsOf w 31 1 * 2 ^ 20 + bitsOf w 12 8 * 2 ^ 12 + bitsOf w 20 1 * 2 ^ 11 + bitsOf w 21 10 * 2)
  let immU := bitsOf w 12 20 * 2 ^ 12
  let next := pc + len
  let put := fun v => s.retire site ctx rd v next
  match bitsOf w 0 7 with
  | 0x37 => put immU
  | 0x17 => put ((pc + immU) % 2 ^ 32)
  | 0x6F => s.retire site ctx rd (next % 2 ^ 32) (pc + immJ)
  | 0x67 => if f3 = 0 then s.retire site ctx rd (next % 2 ^ 32) ((a + immI) % 2 ^ 32 / 2 * 2) else s.seqExc site ctx 2
  | 0x63 =>
    match branchTaken f3 a b with
    | some t => s.retire site ctx 0 0 (if t then pc + immB else next)
    | none => s.seqExc site ctx 2
  | 0x03 => s.seqLoad site ctx f3 rd ((a + immI) % 2 ^ 32) len env
  | 0x23 => s.seqStore site ctx f3 b ((a + immS) % 2 ^ 32) len env
  | 0x13 =>
    match aluImm f3 f7 a immI with
    | some v => put v
    | none => s.seqExc site ctx 2
  | 0x33 =>
    match aluOp f7 f3 a b with
    | some v => put v
    | none => s.seqExc site ctx 2
  | 0x0F => if f3 = 0 then s.retire site ctx 0 0 next else s.seqExc site ctx 2
  | 0x73 => s.seqSystem site ctx w rd len
  | 0x0B => s.seqCustom0 site ctx w len ramp env
  | 0x2B => s.seqCustom1 site ctx w
  | _ => s.seqExc site ctx 2

/-- Bytes of an instruction memory. -/
def imemBytes : Nat := 0x4_0000

/-- The key of an instruction-memory byte. -/
def imemKey (site off : Nat) : Nat := site * 2 ^ 18 + off

/-- A halfword of a tile's instruction memory. -/
def State.imemHalf (s : State) (site off : Nat) : Nat :=
  memByte s.imem (imemKey site off) + memByte s.imem (imemKey site (off + 1)) * 2 ^ 8

/-- What a thread waits for has come: room in the window, a satisfied wait. One that waits for a response is released by the
response. -/
def State.unblocked (s : State) (site ctx : Nat) : Bool :=
  match (s.thread site ctx).block with
  | .none => true
  | .window e => decide (s.winUsed site e < winDepth e)
  | .swait vid count kind _ => (syncCheck s site ctx vid (some kind)).isSome || (s.nextRound site).waitOk site ctx [] ⟨vid, count, kind⟩
  | .remote _ _ => false

/-- The context that issues next: the running ones that are not blocked take turns in ascending order (R134). -/
def State.nextTurn (s : State) (site : Nat) : Option Nat :=
  ((List.range 8).map fun i => ((s.tile site).turn + i) % 8).find? fun c => s.threadRuns site c && s.unblocked site c

/-- The turn passes on from a context. -/
def State.passTurn (s : State) (site ctx : Nat) : State := s.setTile site { s.tile site with turn := (ctx + 1) % 8 }

/-- An instruction issues in the thread whose turn it is, in a cycle that is not skipped (R134, R462). -/
def State.issue (s : State) (site ctx : Nat) (f : State → State) : Out :=
  let s := s.unskip site
  if s.nextTurn site = some ctx then .next (f (s.passTurn site ctx)) else .next s

/-- The instruction at the pc of a thread is fetched and executes (R134, R135, R137): a parity error of the word that holds
its first or its second halfword faults the context, and so does an injected CTXFAULT, as one of the first word (R44; log
entry 192). -/
def State.seqFetch (s : State) (site ctx : Nat) (env : Env) (parity parity2 ramp : Bool) : State :=
  let (inj, s) := s.injected (pgSEQ site 0) 8
  let pc := (s.thread site ctx).pc
  let h := s.imemHalf site pc
  if imemBytes ≤ pc then s.seqExc site ctx 1
  else if parity || inj then s.ctxFaultAs site ctx fIMEM eSEQ (pc / 4) inj
  else if h % 4 ≠ 3 then
    match expandC h with
    | some w => s.seqExec site ctx w 2 ramp env
    | none => s.seqExc site ctx 2
  else if imemBytes ≤ pc + 2 then s.seqExc site ctx 1
  else if pc % 4 = 2 && parity2 then s.ctxFault site ctx fIMEM eSEQ (pc / 4 + 1)
  else s.seqExec site ctx (h + s.imemHalf site (pc + 2) * 2 ^ 16) 4 ramp env

/-- SEQ_INSTRUCTION (R134, R135, R137): the thread whose turn it is issues the instruction at its pc; one that was blocked
tries its instruction again. `parity`, `parity2`: the first, the second word fetched shows a parity error. -/
def execSeqInstruction (site : Site) (ctx : Ctx) (env : Env) (parity parity2 ramp : Bool) (s : State) : Out :=
  s.issue site.val ctx.val fun t => t.seqFetch site.val ctx.val env parity parity2 ramp

/-- SEQ_LOAD_STORE (R138). -/
def execSeqLoadStore (site : Site) (ctx : Ctx) (store : Bool) (funct3 : BitVec 3) (rd rs1 rs2 : BitVec 5) (imm : BitVec 12)
    (env : Env) (s : State) : Out :=
  let addr := (s.xreg site.val ctx.val rs1.toNat + sx 12 32 imm.toNat) % 2 ^ 32
  s.issue site.val ctx.val fun t =>
    if store then t.seqStore site.val ctx.val funct3.toNat (t.xreg site.val ctx.val rs2.toNat) addr 4 env
    else t.seqLoad site.val ctx.val funct3.toNat rd.toNat addr 4 env

/-- TASK (R141). -/
def execTask (site : Site) (ctx : Ctx) (rd rs1 rs2 : BitVec 5) (ramp : Bool) (env : Env) (s : State) : Out :=
  s.issue site.val ctx.val fun t => t.seqTask site.val ctx.val rd.toNat rs1.toNat rs2.toNat 4 ramp env

/-- SWAIT with funct7 0 (R143). -/
def execSwaitPeek (site : Site) (ctx : Ctx) (rs1 rs2 : BitVec 5) (s : State) : Out :=
  s.issue site.val ctx.val fun t => t.seqSwait site.val ctx.val 1 rs1.toNat rs2.toNat 4

/-- SWAIT with funct7 1 (R143). -/
def execSwaitConsume (site : Site) (ctx : Ctx) (rs1 rs2 : BitVec 5) (s : State) : Out :=
  s.issue site.val ctx.val fun t => t.seqSwait site.val ctx.val 0 rs1.toNat rs2.toNat 4

/-- SWAIT with funct7 2 (R176). -/
def execSwaitBarrier (site : Site) (ctx : Ctx) (rs1 rs2 : BitVec 5) (s : State) : Out :=
  s.issue site.val ctx.val fun t => t.seqSwait site.val ctx.val 2 rs1.toNat rs2.toNat 4

/-- SSIG (R183). -/
def execSsig (site : Site) (ctx : Ctx) (rs1 rs2 : BitVec 5) (s : State) : Out :=
  s.issue site.val ctx.val fun t => t.seqSsig site.val ctx.val rs1.toNat rs2.toNat 4

/-- HALT (R131). -/
def execHalt (site : Site) (ctx : Ctx) (s : State) : Out :=
  s.issue site.val ctx.val fun t => t.seqHalt site.val ctx.val 4

/-- RLW (R139). -/
def execRlw (site : Site) (ctx : Ctx) (rd rs1 : BitVec 5) (s : State) : Out :=
  s.issue site.val ctx.val fun t =>
    t.seqRemote site.val ctx.val .read rd.toNat (t.xreg site.val ctx.val rs1.toNat) 0 0

/-- RSW (R139). -/
def execRsw (site : Site) (ctx : Ctx) (rs1 rs2 : BitVec 5) (s : State) : Out :=
  s.issue site.val ctx.val fun t =>
    t.seqRemote site.val ctx.val .write 0 (t.xreg site.val ctx.val rs1.toNat) (t.xreg site.val ctx.val rs2.toNat) 0

/-- A fetch-type atomic of a thread. -/
def State.ramo (s : State) (site ctx f : Nat) (rd rs1 rs2 : BitVec 5) : Out :=
  s.issue site ctx fun t =>
    t.seqRemote site ctx (.amo f) rd.toNat (t.xreg site ctx rs1.toNat) (t.xreg site ctx rs2.toNat) 0

/-- RAMO with funct7 0 (R204). -/
def execRamoAdd (site : Site) (ctx : Ctx) (rd rs1 rs2 : BitVec 5) (s : State) : Out := s.ramo site.val ctx.val 0 rd rs1 rs2

/-- RAMO with funct7 1. -/
def execRamoSwap (site : Site) (ctx : Ctx) (rd rs1 rs2 : BitVec 5) (s : State) : Out := s.ramo site.val ctx.val 1 rd rs1 rs2

/-- RAMO with funct7 2. -/
def execRamoMin (site : Site) (ctx : Ctx) (rd rs1 rs2 : BitVec 5) (s : State) : Out := s.ramo site.val ctx.val 2 rd rs1 rs2

/-- RAMO with funct7 3. -/
def execRamoMax (site : Site) (ctx : Ctx) (rd rs1 rs2 : BitVec 5) (s : State) : Out := s.ramo site.val ctx.val 3 rd rs1 rs2

/-- RAMO with funct7 4. -/
def execRamoMinu (site : Site) (ctx : Ctx) (rd rs1 rs2 : BitVec 5) (s : State) : Out := s.ramo site.val ctx.val 4 rd rs1 rs2

/-- RAMO with funct7 5. -/
def execRamoMaxu (site : Site) (ctx : Ctx) (rd rs1 rs2 : BitVec 5) (s : State) : Out := s.ramo site.val ctx.val 5 rd rs1 rs2

/-- RCAS (R204). -/
def execRcas (site : Site) (ctx : Ctx) (rd rs1 rs2 rs3 : BitVec 5) (s : State) : Out :=
  s.issue site.val ctx.val fun t =>
    t.seqRemote site.val ctx.val .cas rd.toNat (t.xreg site.val ctx.val rs1.toNat) (t.xreg site.val ctx.val rs2.toNat)
      (t.xreg site.val ctx.val rs3.toNat)

/-! ### Task windows and firing (R140 to R148) -/

/-- The error bits an engine's own page shows for a refused task (Tables 04.16, 05.10, 05.11). -/
def State.engineErr (s : State) (site engine ctx code detail : Nat) (inj : Bool) : State :=
  if engine = 0 then (if code = fDESC then s.raise (pgMXA site 0) 10 clsUnc .none inj [] else s)
  else if engine = 1 then (if code = fDESC then s.raise (pgVXE site 0) 8 clsUnc .none inj [] else s)
  else if engine < 4 then
    let pg := pgDMX site (engine - 2) 0
    let t := s.setReg pg 0x048 (code + ctx * 2 ^ 8 + detail % 2 ^ 16 * 2 ^ 16)
    if code = fDESC then t.raise pg 8 clsUnc .none inj [] else if code = fADDR then t.raise pg 9 clsUnc .none inj [] else t
  else s

/-- The task that a finished copy holds. -/
def Copy.made (k : Copy) : Task :=
  { k.task with
    hdr := (k.words.take 8).map (·.v)
    desc := (k.words.drop 8).map (·.v)
    poisoned := k.words.any (·.p) }

/-- Time passes until the copying of the tile's oldest task is over (R141). -/
def finishCopy (site : Nat) : Nat → State → State
  | 0, s => s
  | n + 1, s =>
    match (s.tile site).copied with
    | k :: _ => if k.done then s else finishCopy site n ((s.waitCyc site k.due).copyNow site)
    | [] => s

/-- What a task's entry answers, with the error bits of the engine's page and of SYN as PG_ERR_INJ may ask for them (R44): an
injected DESC, ADDR or unbound reference, else the checks. The Bool says that it was injected. -/
def State.entryVerdict (s : State) (site : Nat) (k : Task) : Option (Nat × Nat × Option Nat) × Bool × State :=
  let pg := if k.engine = 0 then pgMXA site 0 else if k.engine = 1 then pgVXE site 0 else pgDMX site (k.engine - 2) 0
  let bits := if k.engine = 0 then [10] else if k.engine = 1 then [8] else [8, 9]
  let refs := k.waits.map (·.vid) ++ k.sigs.map (·.1)
  match (if k.engine < 4 then s.takeInjOf pg bits else none) with
  | some (b, t) => (some (if b = 9 then fADDR else fDESC, 0, none), true, t)
  | none =>
    match entryCheck s site k, refs with
    | none, v :: _ =>
      match s.takeInjOf (pgSYN site 0) (if k.waits.isEmpty then [9] else [9, 12]) with
      | some (b, t) => (some (fSYNC, v + (if b = 12 then 2 ^ 13 else 0), some b), true, t)
      | none => (none, false, s)
    | e, _ => (e, false, s)

/-- TASK_WINDOW_ENTRY (R142): the oldest task, copied whole, is checked and enters its window, or its context faults. -/
def execTaskWindowEntry (site : Site) (s : State) : Out :=
  let st := site.val
  let s := finishCopy st 20 s
  match (s.tile st).copied with
  | [] => .next s
  | c :: l =>
    let k := c.made
    let t := s.setTile st { s.tile st with copied := l }
    match t.entryVerdict st k with
    | (none, _, t) => .next (t.setTile st { t.tile st with win := (t.tile st).win ++ [k] })
    | (some (code, det, syn), inj, t) =>
      let eng := min k.engine eSEQ
      let t := t.engineErr st eng k.ctx code det inj
      match syn with
      | some b => .next (t.syncFault st k.ctx code eng det ((t.resolve st k.ctx (det % 2 ^ 13)).getD 0) b inj)
      | none => .next (t.ctxFault st k.ctx code eng det)

/-- Whether task a is older than task b (R141). -/
def olderTask (a b : Nat) : Bool :=
  let d := (b + 2 ^ 32 - a) % 2 ^ 32
  decide (1 ≤ d) && decide (d ≤ 2 ^ 31 - 1)

/-- The oldest of a list of tasks. -/
def oldestTask (l : List Task) : Option Task :=
  l.foldl (fun (b : Option Task) k =>
    match b with
    | none => some k
    | some x => if olderTask k.entry x.entry then some k else some x) none

/-- The page of an engine. -/
def enginePg (site engine : Nat) : Nat :=
  if engine = 0 then pgMXA site 0 else if engine = 1 then pgVXE site 0 else pgDMX site (engine - 2) 0

/-- Whether an engine accepts a task (R145, R165). Under R94 a pass enters after the last row of the preceding one, whatever
the array still holds, so that the MXA takes an instruction whenever it is not in a RAMP task (log entry 8). -/
def State.accepts (s : State) (site engine : Nat) : Bool :=
  let t := s.tile site
  let pg := enginePg site engine
  s.runs pg && s.clocked site && !s.halting pg && !(s.blk (blkOf pg)).resetPend &&
    (if engine = 0 then t.mxa.rampTask.isNone
    else if engine = 1 then t.vxe.all (·.performed)
    else decide ((s.dmx site (engine - 2)).tags.length < 64))

/-- Whether every wait term of a task is satisfied, and the counts it consumes, after `used` counts of older tasks (R144,
R146). -/
def State.waitsOk (s : State) (site : Nat) (used : List (Nat × Nat)) (k : Task) : Bool :=
  k.waits.all fun w => s.waitOk site k.ctx used w

/-- The task an engine fires in this cycle, by the sync state at its start (R144). -/
def State.candidate (s : State) (site engine : Nat) : Option Task :=
  if s.accepts site engine then
    let mine := (s.tile site).win.filter fun k => k.engine == engine
    let heads := (List.range 8).filterMap fun c => oldestTask (mine.filter fun k => k.ctx == c)
    oldestTask (heads.filter fun k => s.waitsOk site [] k)
  else none

/-- A task leaves its window and starts in its engine. -/
def State.fire (s : State) (site : Nat) (k : Task) : State :=
  let t := s.setTile site { s.tile site with win := (s.tile site).win.filter fun x => x.entry != k.entry }
  let t := t.loupe site 0 k.ctx 0 (k.hdr ++ [k.entry])
  let t :=
    if k.engine = 0 then t.mxaFire site k
    else if k.engine = 1 then t.setTile site { t.tile site with vxe := (t.tile site).vxe ++ [⟨k, false, true⟩] }
    else
      let d := t.dmx site (k.engine - 2)
      t.setDmx site (k.engine - 2) { d with xfers := d.xfers ++ [⟨k, false, [], .running, []⟩] }
  t.occUpdate site

/-- What can fire in a cycle: a task of an engine, or the SWAIT of a blocked thread, a one-term task of the SEQ (R143). -/
inductive Firing
  | task (k : Task)
  | swait (ctx entry : Nat) (w : WTerm)
  deriving DecidableEq, Repr

def Firing.entry : Firing → Nat
  | .task k => k.entry
  | .swait _ e _ => e

def Firing.ctx : Firing → Nat
  | .task k => k.ctx
  | .swait c _ _ => c

def Firing.waits : Firing → List WTerm
  | .task k => k.waits
  | .swait _ _ w => [w]

/-- An SWAIT goes before the tasks stamped after it first issued, which bear the entry number it shows (R146; log entry
191). -/
def Firing.older (a b : Firing) : Bool :=
  match a with
  | .task _ => olderTask a.entry b.entry
  | .swait _ _ _ => a.entry == b.entry || olderTask a.entry b.entry

/-- The SWAIT of a blocked thread. -/
def State.blockedSwait (s : State) (site ctx : Nat) : Option Firing :=
  match (s.thread site ctx).block with
  | .swait vid count kind e => if s.threadRuns site ctx then some (.swait ctx e ⟨vid, count, kind⟩) else none
  | _ => none

/-- Whether every wait of what can fire is satisfied after `used` counts. -/
def State.fires (s : State) (site : Nat) (used : List (Nat × Nat)) (f : Firing) : Bool :=
  f.waits.all fun w => s.waitOk site f.ctx used w

/-- The older of two, the first where neither is. -/
def olderOf (b : Option Firing) (f : Firing) : Option Firing :=
  match b with
  | none => some f
  | some x => if f.older x && !(x.older f) then some f else some x

/-- The candidate of the SEQ: of the satisfied SWAITs the oldest (R144). -/
def State.seqCandidate (s : State) (site : Nat) : Option Firing :=
  (((List.range 8).filterMap fun c => s.blockedSwait site c).filter fun f => s.fires site [] f).foldl olderOf none

/-- What fires in one cycle, in ascending entry number, each seeing the counts that the older ones leave (R146). -/
def fireAll (site : Nat) : List Firing → List (Nat × Nat) → State → List Firing × List (Nat × Nat)
  | [], used, _ => ([], used)
  | f :: l, used, s =>
    if s.fires site used f then
      let (r, u) := fireAll site l (used ++ s.consumption site f.ctx f.waits) s
      (f :: r, u)
    else fireAll site l used s

/-- Candidates in ascending entry number. -/
def byAge : Nat → List Firing → List Firing
  | 0, _ => []
  | n + 1, l =>
    match l.foldl olderOf none with
    | none => []
    | some f => f :: byAge n (l.filter fun x => x != f)

/-- What fires starts: a task in its engine, a thread after its SWAIT. An SWAIT is 4 bytes long. -/
def State.start (s : State) (site : Nat) (f : Firing) : State :=
  match f with
  | .task k => s.fire site k
  | .swait c _ _ => s.retire site c 0 0 ((s.thread site c).pc + 4)

/-- TASK_FIRE (R144 to R148): the engines named and the SEQ fire their candidates of one cycle. -/
def execTaskFire (site : Site) (engines : BitVec 4) (s : State) : Out :=
  let st := site.val
  let s := (s.unskip st).nextRound st
  if s.siteOn st && s.runs (pgSEQ st 0) && s.clocked st && !s.halting (pgSEQ st 0) then
    let cs := ((List.range 4).filter fun e => bitOf engines.toNat e).filterMap fun e => (s.candidate st e).map Firing.task
    let (fired, used) := fireAll st (byAge 5 (cs ++ (s.seqCandidate st).toList)) [] s
    .next (fired.foldl (fun (t : State) f => t.start st f) (s.consume st used))
  else .next s

/-! ### Transmit slots (R244, R245) -/

/-- What the tasks that fire in this cycle consume (R146). -/
def State.firingNow (s : State) (site : Nat) : List (Nat × Nat) :=
  let t := s.nextRound site
  if t.siteOn site && t.runs (pgSEQ site 0) && t.clocked site && !t.halting (pgSEQ site 0) then
    (fireAll site (byAge 5 (((List.range 4).filterMap fun e => (t.candidate site e).map Firing.task) ++
      (t.seqCandidate site).toList)) [] t).2
  else []

/-- Whether the count of an object, less what `used` takes of it, leaves one. -/
def State.leaves (s : State) (site a : Nat) (used : List (Nat × Nat)) : Bool :=
  decide (((used.filter fun e => e.1 == a).map (·.2)).sum < (s.obj site a).count)

/-- Consumptions of a cycle that come before a slot's: those of the tasks, then those of lower slots (R245). -/
def State.usedBefore (s : State) (site n : Nat) : List (Nat × Nat) :=
  (List.range n).foldl (fun (used : List (Nat × Nat)) m =>
    match s.slotArm site m with
    | some a => if s.leaves site a used then used ++ [(a, 1)] else used
    | none => used) (s.firingNow site)

/-- TX_SLOT_SEND (R244, R245): a SPAD slot whose semaphore has a count left by the tasks that fire in the cycle and by lower slots
sends its transfer. -/
def execTxSlotSend (site : Site) (slot : Fin 1024) (ecc : Ecc) (s : State) : Out :=
  let st := site.val
  let n := slot.val
  if s.rtrRuns st && !s.halting (pgSYN st 0) && s.slotOpen st n then
    match s.slotLost st n with
    | some v =>
      let (eng, t) := (s.setSlotK st 2 n 1).rxEngine
      .next (t.syncFault st (ent (s.entry st 0 n) 0 2 3) fSYNC eng v 0 9 false)
    | none =>
      match s.slotArm st n with
      | none => .next s
      | some a => if s.leaves st a (s.usedBefore st n) then .next ((s.consume st [(a, 1)]).slotSend st n ecc) else .next s
  else .next s

/-! ### The key store (R157) -/

/-- KS_BIND: entry KS_INDEX is bound to KS_DATA0 to KS_DATA3 with MASK. -/
def execKsBind (site : Site) (mask : BitVec 8) (s : State) : Out :=
  let st := site.val
  let pg := pgSEQ st 1
  if s.siteOn st then
    let ws := (List.range 4).map fun i => s.reg pg (0x044 + 4 * i)
    .next ((s.setReg pg 0x054 (mask.toNat * 2 ^ 8)).setKey st (s.fld pg 0x040 0 13) ⟨ws, true, mask.toNat⟩)
  else .next s

/-- KS_UNBIND: entry KS_INDEX is unbound. -/
def execKsUnbind (site : Site) (s : State) : Out :=
  let st := site.val
  let k := s.fld (pgSEQ st 1) 0x040 0 13
  if s.siteOn st then .next (s.setKey st k { s.key st k with bound := false }) else .next s

/-! ### Sync object records (R166 to R175) -/

/-- A context is active (R170). -/
def State.ctxActive (s : State) (site ctx : Nat) : Bool :=
  let th := s.thread site ctx
  (th.st == .running && !th.stopping) || s.busy site ctx ||
    ((s.tile site).win ++ (s.tile site).copied.map (·.task)).any fun k => k.ctx == ctx

/-- The owner of an object is active. -/
def State.ownerActive (s : State) (site n : Nat) : Bool :=
  let o := s.obj site n
  o.bound && s.ctxActive site o.ctx

/-- An object in its initial state under a binding (R171, R175). -/
def freshObj (bound barrier : Bool) (ctx vid : Nat) : SyncObj :=
  ⟨bound, ctx, vid, barrier, 0, 0, 0, 0, 0, 0, if barrier then 0xFFFF else 0⟩

/-- SOBJ_BIND (R170, R171). -/
def execSobjBind (site : Site) (obj : Fin 128) (value : Word) (s : State) : Out :=
  let st := site.val
  let n := obj.val
  let v := value.toNat
  let vid := bitsOf v 0 13
  let ctx := bitsOf v 13 3
  let bound := bitOf v 16
  let o := s.obj st n
  let (inj, t) := if bound then s.injected (pgSYN st 0) 8 else (false, s)
  if !s.siteOn st || (o.bound == bound && o.ctx == ctx && o.vid == vid && o.barrier == bitOf v 17) then .next s
  else if s.ownerActive st n || (bound && s.ctxActive st ctx) then .next (s.wlock (pgSYN st 1))
  else if inj || (bound && (match s.resolve st ctx vid with
      | some m => m != n
      | none => false)) then .next (t.raise (pgSYN st 0) 8 clsInfo .none inj [])
  else .next (s.setObj st n (freshObj bound (bitOf v 17) ctx vid))

/-- SOBJ_VAL (R172, R174): the count of a semaphore; ignored for a barrier. -/
def execSobjVal (site : Site) (obj : Fin 128) (value : Word) (s : State) : Out :=
  let st := site.val
  let n := obj.val
  let o := s.obj st n
  if !s.siteOn st || o.barrier || o.count == value.toNat % 2 ^ 16 then .next s
  else if s.ownerActive st n then .next (s.wlock (pgSYN st 1))
  else .next (s.setObj st n { o with count := value.toNat % 2 ^ 16 })

/-- SOBJ_PART (R175): the participants of a barrier, which returns to its initial state, also when they are the ones it has
(R179; log entry 193); ignored for a semaphore. -/
def execSobjPart (site : Site) (obj : Fin 128) (value : Word) (s : State) : Out :=
  let st := site.val
  let n := obj.val
  let o := s.obj st n
  if !s.siteOn st || !o.barrier then .next s
  else if s.ownerActive st n then .next (if o.part = value.toNat % 2 ^ 16 then s else s.wlock (pgSYN st 1))
  else .next (s.setObj st n { freshObj o.bound true o.ctx o.vid with part := value.toNat % 2 ^ 16 })

/-- SYN_LOOKUP: the identifier and context to look up are held; SYN_LOOKUP_RES shows the binding. -/
def execSynLookup (site : Site) (value : Word) (s : State) : Out :=
  if s.siteOn site.val then .next (s.setReg (pgSYN site.val 0) 0x040 (value.toNat % 2 ^ 16)) else .next s

/-! ### Activity banks (R164) -/

/-- Device time from which 1 ms intervals are counted: the next multiple of 16,000,000. -/
def nextMs (now : Nat) : Nat := (now / msec + 1) * msec

/-- TEL_BANK_SWAP (R164): every tile's active bank freezes and the other one, cleared, becomes active. Occupancy and filler rows
are counted up to the swap. -/
def execTelBankSwap (s : State) : Out :=
  let t := s.waitTime (nextMs s.telSwap)
  let part := fun (u : State) (x : Nat) =>
    let u := u.mxaFill x (u.cyc x)
    let occ := (u.tile x).occ
    let now := u.cyc x
    let v := occ.foldl (fun (w : State) e => w.telAdd x e.1 6 (now - e.2)) u
    v.setTile x { v.tile x with occ := occ.map fun e => (e.1, now) }
  let t := (t.tiles.map (·.1)).foldl part t
  .next { t with telFrozen := t.telActive, telActive := [], telSwap := t.time }

end Sys2Proof.Machine
end

