-- ==== Sys2Proof/Machine/Memory.lean ====
section
/-! DEFINITION. Bulk memory: address views, the channel map, requests and memory data packets, bursts, training,
retraining and retirement (chapter 10). -/

namespace Sys2Proof.Machine

open Sys2Proof

/-! ### Addresses (R279, R280) -/

/-- Logical channel and offset of a device address in either view. -/
def lchOf (a : Nat) : Nat × Nat :=
  if directBase ≤ a then ((a - directBase) / 2 ^ 33, (a - directBase) % 2 ^ 33)
  else
    let g := (a - interBase) / 256
    let q := g / 376
    let h := q * 0x9E37_79B1 % 2 ^ 32 / 2 ^ 20
    ((g % 376 + h) % 376, q * 256 + a % 256)

/-- The interleaved-view address of a byte of a logical channel (R280). -/
def interOf (lch offset : Nat) : Nat :=
  let q := offset / 256
  let h := q * 0x9E37_79B1 % 2 ^ 32 / 2 ^ 20
  interBase + (376 * q + (lch + 376 * 11 - h) % 376) * 256 + offset % 256

/-! ### State of an MCC -/

/-- MCC_STATE.STATE (Table 10.2). -/
def State.mcSt (s : State) (n : Nat) : Nat := s.fld (pgMCC n) 0x044 0 4
def State.setMcSt (s : State) (n v : Nat) : State := s.setFld (pgMCC n) 0x044 0 4 v
def State.mcLch (s : State) (n : Nat) : Nat := s.fld (pgMCC n) 0x044 6 9
def State.setMcLch (s : State) (n v : Nat) : State := s.setFld (pgMCC n) 0x044 6 9 v
def State.mcPartner (s : State) (n : Nat) : Nat := s.fld (pgMCC n) 0x044 15 9
def State.setMcPartner (s : State) (n v : Nat) : State := s.setFld (pgMCC n) 0x044 15 9 v
def State.retraining (s : State) (n : Nat) : Bool := s.flag (pgMCC n) 0x044 5

def stDISABLED : Nat := 0
def stUNTRAINED : Nat := 1
def stSPARE : Nat := 2
def stACTIVE : Nat := 3
def stSRC : Nat := 4
def stDST : Nat := 5
def stFORWARD : Nat := 6
def stRETIRED : Nat := 7

/-- The subchannel in a state, lowest first. -/
def State.mcsIn (s : State) (st : Nat) : List Nat := (List.range 384).filter fun n => s.mcSt n == st

/-! ### The channel map (R277, R278) -/

/-- A router's copy of the channel map. -/
def chanReset (_ : Nat) : List Nat := List.replicate 376 0x1FF

def State.chanMap (s : State) (site : Nat) : List Nat := tblGet chanReset s.chanMaps site

/-- The subchannel a router's map names for a logical channel. -/
def State.mcOf (s : State) (site lch : Nat) : Nat := nthD 0x1FF (s.chanMap site) lch

/-- A router applies an update word when its entry equals OLD or OLD is 0x1FF. -/
def State.applyUpdate (s : State) (site lch old new : Nat) : State :=
  if lch < 376 && (old == 0x1FF || s.mcOf site lch == old) then
    { s with chanMaps := tblSet chanReset s.chanMaps site (listSet (s.chanMap site) lch new) }
  else s

/-- CHANNEL_MAP_UPDATE (R278): an update word that reached a router is applied or ignored. -/
def execChannelMapUpdate (site : Site) (lch old new : BitVec 9) (s : State) : Out :=
  let st := site.val
  if s.forwards st then
    let t := { s with delivered := dropFirst (fun d => d.1 == st && d.2.1 == 0x20 &&
      d.2.2 == [lch.toNat + old.toNat * 2 ^ 16, new.toNat]) s.delivered }
    .next (t.applyUpdate st lch.toNat old.toNat new.toNat)
  else .next s

/-- The rectangle of the whole grid (R262). -/
def wholeGrid : Nat := 35 * 2 ^ 8 + 35 * 2 ^ 24

/-- An update word is multicast with class 0x20 (R277). -/
def State.castUpdate (s : State) (lch old new : Nat) : State :=
  let (sites, t) := s.mcast wholeGrid []
  { t with delivered := t.delivered ++ sites.map fun x => (x, 0x20, [lch + old * 2 ^ 16, new]) }

/-! ### Contents -/

/-- Key of a byte of a subchannel, and of a burst. -/
def dramKey (n off : Nat) : Nat := n * 2 ^ 33 + off
def burstKey (n b : Nat) : Nat := n * 2 ^ 28 + b

/-- Whether a burst was written clean since training: it does not carry the poison signature (R296, R300). -/
def State.burstClean (s : State) (n b : Nat) : Bool := tblGet (fun _ => false) s.dramClean (burstKey n b)

def State.setBurstClean (s : State) (n b : Nat) (c : Bool) : State :=
  { s with dramClean := tblSet (fun _ => false) s.dramClean (burstKey n b) c }

/-- A burst as eight words: all poisoned when it carries the signature. -/
def State.burstWords (s : State) (n b : Nat) : List PWord :=
  let p := !s.burstClean n b
  (List.range 8).map fun i => ⟨memWord s.dram (dramKey n (32 * b + 4 * i)), p⟩

/-- Stores a burst: with the signature when any word is poisoned (R296). -/
def State.storeBurst (s : State) (n b : Nat) (ws : List PWord) : State :=
  let d := ((List.range 8).zip ws).foldl (fun m e => memSetWord m (dramKey n (32 * b + 4 * e.1)) e.2.v) s.dram
  ({ s with dram := d } : State).setBurstClean n b (!ws.any (·.p))

/-- Every burst of a subchannel gets the poison signature (R300). -/
def State.blankDram (s : State) (n : Nat) : State :=
  { s with
    dram := memClear s.dram (dramKey n 0) (dramKey (n + 1) 0)
    dramClean := tblDelRange s.dramClean (burstKey n 0) (burstKey (n + 1) 0) }

/-! ### Retirement triggers (R305, R308, R309) -/

/-- Fewer than two spares raise a replace cause (R309). -/
def State.spareCheck (s : State) : State := if (s.mcsIn stSPARE).length < 2 then s.replace causeSubch else s

/-- The check of R309 where spares may have become fewer than in `old`. Before two subchannels are spares, at bring-up, nothing
is raised (log entry 196). -/
def State.spareFell (s old : State) : State := if 2 ≤ (old.mcsIn stSPARE).length then s.spareCheck else s

/-- A subchannel is RETIRED: it holds no logical channel and has no partner, and its page shows RETIRED (R53, R286). -/
def State.mcRetired (s : State) (n : Nat) : State :=
  let t := s.setMcc n { s.mcc n with lastLch := s.mcLch n }
  let t := ((t.setMcSt n stRETIRED).setMcLch n 0x1FF).setMcPartner n 0x1FF
  t.setBlk (blkOf (pgMCC n)) { t.blk (blkOf (pgMCC n)) with retired := true, run := false }

/-- Retraining of a trained subchannel begins, or waits for its copy to end (R303, R304). -/
def State.startRetrain (s : State) (n : Nat) : State :=
  let st := s.mcSt n
  if st == stSRC || st == stDST then s.setMcc n { s.mcc n with retrainWait := true }
  else if st == stSPARE || st == stACTIVE || st == stFORWARD then
    (s.setFld (pgMCC n) 0x044 5 1 1).raise (pgMPH (pkgOfMc n)) 9 clsInfo .none false [n]
  else s

/-- A retrain that waited for a copy begins when it has ended. -/
def State.retrainAfterCopy (s : State) (n : Nat) : State :=
  if (s.mcc n).retrainWait then (s.setMcc n { s.mcc n with retrainWait := false }).startRetrain n else s

/-- The spare chosen for a failing subchannel (R306). -/
def State.chooseSpare (s : State) (n : Nat) : Option Nat :=
  let l := s.mcsIn stSPARE
  (l.find? fun m => pkgOfMc m != pkgOfMc n).or l.head?

/-- No spare remains (R308): the subchannel stays ACTIVE, and a retrain that waited for its copy begins. -/
def State.noSpare (s : State) (n : Nat) : State :=
  ((((s.setFld (pgMCC n) 0x044 4 1 0).setMcSt n stACTIVE).setMcPartner n 0x1FF |>.raise (pgMCC n) 12 clsRetire .none false
    []).replace causeSubch).retrainAfterCopy n

/-- A retirement of an ACTIVE subchannel waits for its start (R305). -/
def State.queueRetire (s : State) (n : Nat) : State :=
  if s.mcSt n != stACTIVE || s.retireQ.contains n then s
  else if (s.chooseSpare n).isNone || s.injPend (pgMCC n) 12 then s.noSpare n
  else ({ s with retireQ := s.retireQ ++ [n] } : State).setFld (pgMCC n) 0x044 4 1 1

/-- A spare that triggers while it receives a copy retires, and the retirement of its partner begins again, behind a retrain
that waited for the copy (R304, R308). -/
def State.dstFails (s : State) (n : Nat) : State :=
  let src := s.mcPartner n
  let t := s.mcRetired n
  let t := (t.setMcSt src stACTIVE).setMcPartner src 0x1FF
  let t := (t.setMcc src { t.mcc src with copyAt := none, copyGone := 0, copyLate := 0 }).setReg (pgMCC src) 0x054 0
  if (t.chooseSpare src).isNone then t.noSpare src
  else (({ t with retireQ := src :: t.retireQ } : State).setFld (pgMCC src) 0x044 4 1 1).retrainAfterCopy src

/-- One of the first three triggers of R305. -/
def State.retireTrigger (s : State) (n : Nat) : State :=
  let st := s.mcSt n
  if st == stACTIVE || st == stDST then
    let t := s.raise (pgMCC n) 11 clsRetire .none false []
    if !t.flag (pgMCC n) 0x040 20 then t else if st == stDST then t.dstFails n else t.queueRetire n
  else s

/-! ### Retraining (R303, R304) -/

/-- Corrected events and what they set off (R294, R303, R305). -/
def State.mcCorrected (s : State) (n b bit lane : Nat) (inj : Bool) : State :=
  let pg := pgMCC n
  let t := (s.bump pg 0x070 1).setReg pg 0x058 (b / 8 + b % 8 * 2 ^ 25 + lane * 2 ^ 28)
  let t := t.raise pg bit clsCorr .corr inj []
  let m := t.mcc n
  let corr := inLastSecond t.time m.corr ++ [t.time]
  let t := t.setMcc n { m with corr := corr }
  let mph := pgMPH (pkgOfMc n)
  let recent := match m.lastAuto with
    | some a => decide (t.time < a + 10 * second)
    | none => false
  let many := decide (t.fld mph 0x040 8 8 < corr.length) || t.injPend mph 9
  let t := if t.flag mph 0x040 16 && many && !recent && !t.retraining n then
    (t.setMcc n { t.mcc n with lastAuto := some t.time }).startRetrain n else t
  let thr := t.fld pg 0x040 12 8
  if (thr != 0 && decide (thr < corr.length)) || t.injPend pg 11 then t.retireTrigger n else t

/-- A read of a burst by the DRAM interface (R293 to R296): its words, and the state. -/
def State.burstRead (s : State) (n b : Nat) (e : BurstErr) : List PWord × State :=
  let pg := pgMCC n
  let (err, inj, s) := match s.takeInjOf pg [8, 9, 10] with
    | some (8, t) => (BurstErr.lane 0, true, t)
    | some (9, t) => (BurstErr.retried 1, true, t)
    | some (_, t) => (BurstErr.lost, true, t)
    | none => (e, false, s)
  let t := s.bump pg 0x060 1
  if !s.burstClean n b then (s.burstWords n b, t.poisonSeen pg)
  else match err with
    | .clean => (s.burstWords n b, t)
    | .lane l => (s.burstWords n b, t.mcCorrected n b 8 (l % 12) inj)
    | .retried k => (s.burstWords n b, (t.bump pg 0x078 (min 3 k)).mcCorrected n b 9 15 inj)
    | .lost =>
      let u := ((t.bump pg 0x078 3).setBurstClean n b false).setReg pg 0x058 (b / 8 + b % 8 * 2 ^ 25 + 15 * 2 ^ 28)
      let v := u.origin pg 10 .unc inj (2 ^ 17 + n) b
      (s.burstWords n b |>.map fun w => { w with p := true }, v.retireTrigger n)

/-- A write of a whole burst. -/
def State.burstWrite (s : State) (n b : Nat) (ws : List PWord) : State :=
  let t := (s.storeBurst n b ws).bump (pgMCC n) 0x068 1
  if ws.any (·.p) then t.poisonSeen (pgMCC n) else t

/-! ### Requests -/

/-- Bursts a request touches. -/
def burstsOf (offset words : Nat) : List Nat :=
  (List.range ((offset + 4 * words - 1) / 32 - offset / 32 + 1)).map (· + offset / 32)

/-- Controller tags in use: one for each burst of a request, from its admission until its data has left or its write has been
performed (R288). -/
def Mcc.tags (m : Mcc) : Nat := (m.admitted.map fun q => (burstsOf q.offset q.words).length).sum

/-- The condition of R292 begins or ends. -/
def State.hotUpdate (s : State) (n : Nat) : State :=
  let m := s.mcc n
  let now := s.cyc (siteOfMc n) / 2
  let hot := m.tags == 192 && !m.queue.isEmpty
  match m.hotSince with
  | none => if hot then s.setMcc n { m with hotSince := some now, hotDone := false } else s
  | some c => if hot then s else (s.setMcc n { m with hotSince := none, hotDone := false }).bump (pgMCC n) 0x080 (now - c)

/-- CLK_H cycles for which the condition of R292 has lasted since it began. -/
def State.hotNow (s : State) (n : Nat) : Nat := ((s.mcc n).hotSince.map (s.cyc (siteOfMc n) / 2 - ·)).getD 0

/-- MCC_HOT_CYC, which counts while the condition lasts. -/
def State.hotCycles (s : State) (n : Nat) : Nat := (s.reg64 (pgMCC n) 0x080 + s.hotNow n) % 2 ^ 64

/-- The holder of a logical channel that answers for it. -/
def State.holderOf (s : State) (lch : Nat) : Nat :=
  ((List.range 384).find? fun n => s.mcLch n == lch && (s.mcSt n == stACTIVE || s.mcSt n == stSRC)).getD 0x1FF

/-- The update word of a logical channel (Table 10.3). -/
def updateWord (lch old new : Nat) : Nat := joinFields [(lch, 0), (old, 16), (new, 32)]

/-- A LOSS notice of cause 2 with the update word of a logical channel (R286). -/
def State.sendMoved (s : State) (site req tag : Nat) (rsite : Bool) (lch old : Nat) : State :=
  match s.requesterSite site req rsite with
  | none => s
  | some d =>
    (s.inject ⟨tLOSS, site, 4, d, 0x7FF, req, tag, 2, rsite, 0, [⟨updateWord lch old (s.holderOf lch), false⟩], 4,
      s.cyc site⟩).bump (pgRTR site 4) 0x068 1

/-- A request reaches an MCC (R286, R289, R305, R545): answered with LOSS, relayed, or queued; none while the queue is full
(R291). `lch` is the LCH of a MEM_REQ; a write carries none, and a RETIRED subchannel answers it for the channel it held. -/
def State.mcArrive (s : State) (n : Nat) (lch : Option Nat) (q : MemReq) : Option State :=
  let site := siteOfMc n
  let st := s.mcSt n
  let fenced := decide (2 ^ 33 - s.fld pgSVC 0x04C 0 10 * 2 ^ 20 ≤ q.offset + 4 * (q.words - 1)) || s.injPend pgSVC 9
  if q.req < 2040 && fenced then
    some ((s.sendLoss site q.req q.tag q.rsite 3).raise pgSVC 9 clsInfo .none false [])
  else if st == stRETIRED then some (s.sendMoved site q.req q.tag q.rsite (lch.getD (s.mcc n).lastLch) n)
  else if st == stDISABLED || st == stUNTRAINED || st == stSPARE || st == stDST || !s.enabled (pgMCC n) then
    some (s.sendLoss site q.req q.tag q.rsite 3)
  else if lch.any (· != s.mcLch n) then some (s.sendMoved site q.req q.tag q.rsite (lch.getD 0) n)
  else
    let d := if st == stFORWARD then s.mcPartner n else n
    let m := s.mcc d
    if 1024 ≤ m.queue.length then none
    else
      let src := (s.requesterSite site q.req q.rsite).getD 0
      some ((s.setMcc d { m with queue := m.queue ++ [{ q with src := src, seq := m.arrivals }],
                                 arrivals := m.arrivals + 1 }).hotUpdate d)

/-- The address word of a MEM_REQ (Table 10.4). -/
def memAddr (offset mc lch words : Nat) : Nat := offset + mc * 2 ^ 33 + lch * 2 ^ 42 + (words - 1) * 2 ^ 51

/-- Requests of one subchannel that a service core holds (R290): in the network, waiting at the MCC or admitted there. -/
def State.coreReqs (s : State) (req mc : Nat) : Nat :=
  (s.packets.filter fun p => (p.ty == tMEM || p.ty == tDATA) && p.req == req && !p.rsite && bitsOf p.addr 33 9 == mc).length +
    (((s.mcc mc).queue ++ (s.mcc mc).admitted).filter fun q => q.req == req && !q.rsite).length

/-- MEM_REQ (R281, R286, R290): a read request at a router. One that travelled as a packet reaches the MCC its packet names;
otherwise the router translates the channel and sends it on its way, or refuses one that has no subchannel. A service core
waits while it holds 16 requests of the subchannel. -/
def execMemReq (site : Site) (req : Nat) (rsite : Bool) (tag offset lch words : Nat) (s : State) : Out :=
  let st := site.val
  let isIt := fun (p : Packet) => p.at_ == st && p.ty == tMEM && p.req == req && p.rsite == rsite && p.tag == tag &&
    p.inPort == 5
  if !s.forwards st then .next s
  else match s.packets.find? isIt with
    | some p =>
      let t := { s with packets := dropFirst isIt s.packets }
      let q : MemReq := ⟨req, rsite, tag, bitsOf p.addr 0 33, bitsOf p.addr 51 6 + 1, none, 0, 0, [], [], 0⟩
      .next ((t.mcArrive (bitsOf p.addr 33 9) (some (bitsOf p.addr 42 9)) q).getD s)
    | none =>
      let mc := s.mcOf st lch
      if mc == 0x1FF then .next (s.sendLoss st req tag rsite 3)
      else if 2040 ≤ req && !rsite && 16 ≤ s.coreReqs req mc then .next s
      else .next (s.inject ⟨tMEM, st, 4, siteOfMc mc, 0x7FF, req, tag, 0, rsite,
        memAddr (offset % 2 ^ 33) mc lch (min 64 (max 1 words)), [], 4, s.cyc st⟩)

/-! ### Memory data packets (R282 to R285) -/

/-- The port of a memory-edge site's router that faces its memory. -/
def memDir (site : Nat) : Nat := if colOf site = 0 then 3 else 1

/-- The output by which a memory data packet leaves the network at its site: to the memory for a write, to the tile, or to the
service port of a corner for a service core's data. -/
def exitPort (site req kind : Nat) : Nat :=
  if kind = 0 then memDir site
  else if 2040 ≤ req then (if rowOf site = 0 then 0 else 2)
  else 4

/-- The output that a memory data packet takes at a router. -/
def memOut (site d req kind : Nat) : Nat := (nextPort site d).getD (exitPort site req kind)

/-- A memory data packet with the fields of its header (Table 10.5), which holds neither LCH nor RSITE; its address stands for
OFFSET, MC and KIND. It waits at the output it takes next; `buf` is the input port that buffers it. -/
def memPacket (site d req tag kind mc offset : Nat) (ws : List PWord) (buf since : Nat) : Packet :=
  ⟨tDATA, site, 8 + memOut site d req kind, d, 0x7FF, req, tag, 0, false, joinFields [(offset, 0), (mc, 33), (kind, 51)], ws, buf,
    since⟩

/-- KIND of a memory data packet. -/
def Packet.kind (p : Packet) : Nat := bitsOf p.addr 51 1

/-- The 80-bit header of a memory data packet (Table 10.5). -/
def Packet.memHdr (p : Packet) : Nat :=
  joinFields [(p.dsite, 0), (p.req, 11), (p.tag, 22), (p.words.length - 1, 30), (p.kind, 36), (bitsOf p.addr 33 9, 37),
    (bitsOf p.addr 2 31, 46), (1, 77)]

/-- A tile's memory data packet enters the network (R283). -/
def State.sendMemData (s : State) (site d req tag kind mc offset : Nat) (ws : List PWord) : State :=
  s.inject (memPacket site d req tag kind mc offset ws 4 (s.cyc site))

/-! ### Admission and bursts (R287 to R292) -/

/-- The source admitted next: the lowest above the last, wrapping (R289). -/
def Mcc.nextSrc (m : Mcc) : Option Nat :=
  let l := m.queue.map (·.src)
  let least := fun (xs : List Nat) => xs.foldl (fun (b : Option Nat) x => some (min x (b.getD x))) none
  (least (l.filter fun x => m.lastSrc < x)).or (least l)

/-- An MCC performs requests: it is enabled, not halted and not retraining, and serves (Table 10.2). -/
def State.mcServes (s : State) (n : Nat) : Bool :=
  s.enabled (pgMCC n) && (s.mcSt n == stACTIVE || s.mcSt n == stSRC || s.mcSt n == stFORWARD)

/-- MCC_ADMIT (R288, R289). -/
def execMccAdmit (mc : Mc) (s : State) : Out :=
  let n := mc.val
  let m := s.mcc n
  if !s.mcServes n || s.halting (pgMCC n) || s.retraining n then .next s
  else
    match m.nextSrc.bind fun x => m.queue.find? fun q => q.src == x with
    | none => .next s
    | some q =>
      let bs := burstsOf q.offset q.words
      if 192 < m.tags + bs.length then .next s
      else .next ((s.setMcc n { m with
        queue := m.queue.filter fun r => r.seq != q.seq
        admitted := m.admitted ++ [{ q with left := bs }]
        lastSrc := q.src }).hotUpdate n)

/-- The words of a request that lie in a burst: word index in the burst and in the request. -/
def wordsIn (q : MemReq) (b : Nat) : List (Nat × Nat) :=
  (List.range 8).filterMap fun i =>
    let a := 32 * b + 4 * i
    if q.offset ≤ a ∧ a < q.offset + 4 * q.words then some (i, (a - q.offset) / 4) else none

/-- A request that reached the MCC earlier and touches a burst must be performed first (R287). -/
def Mcc.blocked (m : Mcc) (q : MemReq) (b : Nat) : Bool :=
  (m.admitted.any fun r => r.seq < q.seq && r.left.contains b) ||
    (m.queue.any fun r => r.seq < q.seq && (burstsOf r.offset r.words).contains b) ||
    (m.admitted.any fun r => r.seq < q.seq && !r.left.isEmpty && 64 ≤ r.passed)

/-- An admitted request gives back its tags. -/
def State.memDone (s : State) (n : Nat) (q : MemReq) : State :=
  (s.setMcc n { s.mcc n with admitted := (s.mcc n).admitted.filter fun x => x.seq != q.seq }).hotUpdate n

/-- A request whose bursts are all performed is answered (R283, R288): WR_ACK, or its data, which leaves when the router's
memory port buffers it; the tags are held until then. -/
def State.memAnswer (s : State) (n : Nat) (q : MemReq) : State :=
  let site := siteOfMc n
  match q.data, s.requesterSite site q.req q.rsite with
  | some _, _ => (s.memDone n q).respond site tWRACK q.req q.tag q.rsite q.offset []
  | none, none => s.memDone n q
  | none, some d =>
    let ws := (q.got.mergeSort fun a b => a.1 ≤ b.1).map (·.2)
    let p := memPacket site d q.req q.tag 1 n q.offset ws (memDir site) (s.cyc site)
    if s.forwards site && s.portRoom site (memDir site) p.dataFlits then (s.memDone n q).inject p else s

/-- Device time that `k` bursts of a subchannel take at its package's rate (Table 10.1). -/
def State.burstTime (s : State) (n k : Nat) : Nat := if s.flag (pgMPH (pkgOfMc n)) 0x044 1 then k * 80 / 3 else k * 30

/-- Bursts that a subchannel has read, written and read again, as its counters show. -/
def State.burstsDone (s : State) (n : Nat) : Nat := s.reg64 (pgMCC n) 0x060 + s.reg64 (pgMCC n) 0x068 + s.reg64 (pgMCC n) 0x078

/-- Cycles that service requests and retries take from a copy (R307): the bursts performed since `old`. -/
def State.copyBehind (s old : State) (n : Nat) : State :=
  if s.mcSt n == stSRC then
    s.setMcc n { s.mcc n with copyLate := (s.mcc n).copyLate + s.burstTime n (s.burstsDone n - old.burstsDone n) }
  else s

/-- MCC_BURST (R287, R288, R295, R296): the next burst of admitted request `index` is performed, with its mirror write while the
subchannel is copied (Table 10.6); a request with none left sends its data as soon as it can leave. -/
def execMccBurst (mc : Mc) (index : Nat) (err : BurstErr) (s : State) : Out :=
  let n := mc.val
  let m := s.mcc n
  match m.admitted[index]? with
  | none => .next s
  | some q =>
    match q.left with
    | [] => .next (s.memAnswer n q)
    | b :: rest =>
      if m.blocked q b then .next s
      else
        let ws := wordsIn q b
        let (got, t) : List (Nat × PWord) × State := match q.data with
          | none =>
            let (old, u) := s.burstRead n b err
            (q.got ++ ws.map fun (e : Nat × Nat) => (e.2, nthD (PWord.mk 0 true) old e.1), u)
          | some data =>
            let (old, u) := if ws.length = 8 then (s.burstWords n b, s) else s.burstRead n b err
            let new := ws.foldl (fun (l : List PWord) (e : Nat × Nat) => listSet l e.1 (nthD (PWord.mk 0 true) data e.2)) old
            let v := u.burstWrite n b new
            (q.got, if s.mcSt n == stSRC then v.storeBurst (s.mcPartner n) b new else v)
        let r : MemReq := { q with left := rest, got := got }
        let t := t.copyBehind s n
        let k := t.mcc n
        let fin := rest.isEmpty
        let step := fun (x : MemReq) =>
          if x.seq = q.seq then r else if fin && decide (x.seq < q.seq) then { x with passed := x.passed + 1 } else x
        let u := t.setMcc n { k with admitted := k.admitted.map step }
        .next (if fin then u.memAnswer n r else u)

/-- HOT_CHANNEL (R292). -/
def execHotChannel (mc : Mc) (s : State) : Out :=
  let n := mc.val
  let m := s.mcc n
  match m.hotSince with
  | none => .next s
  | some c =>
    if m.hotDone then .next s
    else
      let t := if s.injPend (pgMCC n) 13 then s else s.waitCyc (siteOfMc n) (2 * (c + 100000))
      .next ((t.setMcc n { t.mcc n with hotDone := true }).raise (pgMCC n) 13 clsInfo .none false [])

/-- Device time between two scrub reads (R297). -/
def scrubStep (hrs : Nat) : Nat := max 1 hrs * 3600 * second / 2 ^ 28

/-- PATROL_SCRUB (R297): the next burst is read on its schedule. -/
def execPatrolScrub (mc : Mc) (err : BurstErr) (s : State) : Out :=
  let n := mc.val
  let st := s.mcSt n
  if s.flag (pgMCC n) 0x040 0 && s.enabled (pgMCC n) && !s.halting (pgMCC n) && !s.retraining n && stSPARE ≤ st && st < stRETIRED
  then
    let t := s.waitTime ((s.mcc n).scrubAt + scrubStep (s.fld (pgMCC n) 0x040 4 8))
    let m := t.mcc n
    let t := t.setMcc n { m with scrub := (m.scrub + 1) % 2 ^ 28, scrubAt := t.time }
    .next (t.burstRead n m.scrub err).2
  else .next s

/-! ### Training (R300 to R304) -/

/-- Subchannels of a package. -/
def mcsOfPkg (p : Nat) : List Nat := (List.range 8).map (· + 8 * p)

/-- A subchannel that is in service: neither fuse-disabled nor retired (R53). -/
def State.mcLive (s : State) (n : Nat) : Bool := !(s.blk (blkOf (pgMCC n))).retired

/-- One subchannel's outcome of training: whether its package's capacity is right, and whether it trained. -/
def State.trainOne (s : State) (n : Nat) (cap ok : Bool) : State :=
  if !cap then ((s.setMcSt n stDISABLED).setMcLch n 0x1FF).setMcPartner n 0x1FF
  else if !s.mcLive n then s
  else if ok then (((s.blankDram n).setMcSt n stSPARE).setMcLch n 0x1FF).setMcPartner n 0x1FF
  else s.setMcSt n stDISABLED

/-- TRAINING_COMPLETE (R300): the mode registers read, and which subchannels passed at each rate. -/
def execTrainingComplete (pkg : Pkg) (capOk : Bool) (pass14 pass12 : BitVec 8) (dram : Word) (ranks : Fin 4) (s : State) :
    Out :=
  let p := pkg.val
  let pg := pgMPH p
  if !s.enabled pg || s.flag pg 0x044 0 then .next s
  else
    let capOk := capOk && !s.injPend pg 11
    let live := fun k => s.mcLive (8 * p + k)
    let at14 := fun k => s.flag pg 0x040 0 && bitOf pass14.toNat k
    let ok := fun k => capOk && live k && (at14 k || bitOf pass12.toNat k)
    let ks := List.range 8
    let mask := fun (f : Nat → Bool) => (ks.filter f).foldl (fun a k => a + 2 ^ k) 0
    let fail := mask fun k => capOk && live k && !ok k
    let qual := capOk && ks.all fun k => !ok k || at14 k
    let qual := qual && ks.any ok
    let t := ks.foldl (fun (u : State) k => u.trainOne (8 * p + k) capOk (ok k)) s
    let t := t.spareFell s
    let t := t.setReg pg 0x04C (dram.toNat % 2 ^ 28)
    let t := t.setReg pg 0x044 (1 + b2n qual * 2 + b2n qual * 4 + b2n (!capOk) * 8 + mask ok * 2 ^ 4 + fail * 2 ^ 12 +
      ranks.val * 2 ^ 20)
    let t := t.raiseIf pg 8 clsUnc .unc (fail != 0) []
    .next (if capOk then t else t.raise pg 11 clsUnc .none false [])

/-- RETRAIN (R303): MPH_CTRL.RETRAIN is written. -/
def execRetrain (pkg : Pkg) (mask : BitVec 8) (s : State) : Out :=
  .next (((List.range 8).filter fun k => bitOf mask.toNat k).foldl (fun (t : State) k => t.startRetrain (8 * pkg.val + k)) s)

/-- RETRAIN_COMPLETE (R304): with every admitted request complete, the retrain ends. -/
def execRetrainComplete (mc : Mc) (ok : Bool) (s : State) : Out :=
  let n := mc.val
  if s.retraining n && (s.mcc n).admitted.isEmpty then
    let t := (s.setFld (pgMCC n) 0x044 5 1 0).bump (pgMPH (pkgOfMc n)) 0x050 1
    .next (if ok then t.setMcc n { t.mcc n with corr := [] } else t.retireTrigger n)
  else .next s

/-! ### Retirement (R305 to R308) -/

/-- RETIRE (R302, R305, R308): MCC_CTRL.RETIRE is written. One that receives a copy retires in either case; one that is being
copied or forwards is on its way there. -/
def execRetire (mc : Mc) (s : State) : Out :=
  let n := mc.val
  if !s.mcLive n then .next s
  else if s.mcSt n == stDST then .next (s.dstFails n)
  else if s.enabled (pgMCC n) || s.mcSt n == stSRC || s.mcSt n == stFORWARD then .next (s.queueRetire n)
  else .next ((s.mcRetired n).spareFell s)

/-- Device time of a whole copy with no service requests, at a package's rate (Table 10.1). -/
def State.copyTime (s : State) (n : Nat) : Nat := s.burstTime n (2 ^ 28)

/-- Device time that a copy has had for itself. -/
def State.copySpent (s : State) (n : Nat) : Nat :=
  let m := s.mcc n
  m.copyGone + (m.copyAt.map (s.time - ·)).getD 0 - m.copyLate

/-- Granules copied (MCC_COPY): in proportion to that time while the copy lasts. -/
def State.copyGranules (s : State) (n : Nat) : Nat :=
  if s.mcSt n == stSRC then min (2 ^ 25) (s.copySpent n * 2 ^ 25 / s.copyTime n) else s.reg (pgMCC n) 0x054

/-- A copy runs while HALT_REQ of both its subchannels is 0, and is paused otherwise (R310). `n` is either of them. -/
def State.copyPause (s : State) (n : Nat) : State :=
  let src := if s.mcSt n == stDST then s.mcPartner n else n
  let m := s.mcc src
  let held := (s.blk (blkOf (pgMCC src))).haltReq || (s.blk (blkOf (pgMCC (s.mcPartner src)))).haltReq
  if s.mcSt src != stSRC then s
  else match m.copyAt, held with
    | some c, true => s.setMcc src { m with copyAt := none, copyGone := m.copyGone + (s.time - c) }
    | none, false => s.setMcc src { m with copyAt := some s.time }
    | _, _ => s

/-- RETIREMENT_START (R306): the oldest waiting retirement starts while fewer than four copy. -/
def execRetirementStart (s : State) : Out :=
  match s.retireQ with
  | [] => .next s
  | n :: l =>
    if 4 ≤ (s.mcsIn stSRC).length then .next s
    else
      let t : State := { s with retireQ := l }
      match t.chooseSpare n with
      | none => .next (t.noSpare n)
      | some d =>
        let t := ((t.setFld (pgMCC n) 0x044 4 1 0).setMcSt n stSRC).setMcPartner n d
        let t := (((t.setMcSt d stDST).setMcPartner d n).setMcLch d (t.mcLch n)).setReg (pgMCC n) 0x054 0
        .next (((t.setMcc n { t.mcc n with copyAt := none, copyGone := 0, copyLate := 0 }).copyPause n).spareFell s)

/-- Everything a subchannel holds, moved to another's keys. -/
def copyTbl {α : Type} (t : Tbl α) (src dst width : Nat) : Tbl α :=
  let part := (t.filter fun e => src * width ≤ e.1 ∧ e.1 < (src + 1) * width).map fun e => (e.1 - src * width + dst * width, e.2)
  (t.filter fun e => e.1 < dst * width) ++ part ++ t.filter fun e => (dst + 1) * width ≤ e.1

/-- A copy ends (Table 10.6, R307): bursts in `bad` could not be read and are copied poisoned; the spare becomes the
authority, and the update word is multicast. -/
def State.copyComplete (s : State) (mc : Mc) (bad : List Nat) : State :=
  let n := mc.val
  match (s.mcc n).copyAt with
  | none => s
  | some c =>
    if s.mcSt n != stSRC || !(s.mcc n).admitted.isEmpty then s
    else
      let t := s.waitTime (c + (s.copyTime n + (s.mcc n).copyLate - (s.mcc n).copyGone))
      let t := bad.foldl (fun (u : State) b => (u.burstRead n (b % 2 ^ 28) .lost).2) t
      let d := t.mcPartner n
      let u : State := { t with
        dram := copyTbl t.dram n d (2 ^ 33)
        dramClean := copyTbl t.dramClean n d (2 ^ 28) }
      let u := (u.setMcSt n stFORWARD).setMcSt d stACTIVE
      let u := u.setReg (pgMCC n) 0x054 (2 ^ 25)
      let q := (u.mcc n).queue
      let m := u.mcc d
      let moved := (List.range q.length).zip q |>.map fun e => { e.2 with seq := m.arrivals + e.1 }
      let u := u.setMcc d { m with queue := m.queue ++ moved, arrivals := m.arrivals + q.length }
      let u := u.setMcc n { u.mcc n with queue := [], copyAt := none, copyGone := 0, copyLate := 0, forwardAt := some u.time }
      ((u.castUpdate (u.mcLch n) n d).retrainAfterCopy n).retrainAfterCopy d

/-- FORWARD_EXPIRY (Table 10.6): after 1 ms in FORWARD the subchannel is RETIRED. -/
def execForwardExpiry (mc : Mc) (s : State) : Out :=
  let n := mc.val
  match (s.mcc n).forwardAt with
  | none => .next s
  | some c =>
    if s.mcSt n != stFORWARD then .next s
    else
      let t := s.waitTime (c + msec)
      let t := t.setMcPartner (t.mcPartner n) 0x1FF
      let t := t.mcRetired n
      .next (t.setMcc n { t.mcc n with forwardAt := none })

end Sys2Proof.Machine
end

