-- ==== Sys2Proof/Machine/Dma.lean ====
section
/-! DEFINITION. The DMA engines: splitting a transfer or an attention-page task into requests, issuing them, generations,
completion and failure (R158 to R163, R229 to R235, R298). -/

namespace Sys2Proof.Machine

open Sys2Proof

/-- Engine code of DMX_k. -/
def eDMX (k : Nat) : Nat := 2 + k

/-- A space of Table 08.8. -/
def spaceOf (n : Nat) : Space :=
  match n with
  | 0 => .own
  | 1 => .remote
  | 2 => .inter
  | _ => .direct

/-- Bulk memory in either view. -/
def Space.mem : Space → Bool
  | .inter => true
  | .direct => true
  | _ => false

/-- The requests of one contiguous row, ascending, none across an `lim`-aligned boundary of either address (R231). -/
def splitRow (lim page : Nat) (ss ds : Space) : Nat → Nat → Nat → Nat → List DReq
  | 0, _, _, _ => []
  | n + 1, src, dst, len =>
    if len = 0 then []
    else
      let k := min len (min (lim - src % lim) (lim - dst % lim))
      ⟨page, false, ss, src, ds, dst, k⟩ :: splitRow lim page ss ds n (src + k) (dst + k) (len - k)

/-- An address moved by two strides. -/
def strided (a : Nat) (i j : Nat) (s1 s2 : Int) : Nat := ((a : Int) + s1 * (i : Int) + s2 * (j : Int)).toNat

/-- The requests of a transfer in issue order, its generation read first (R230 to R232). -/
def transferReqs (t : Task) : List DReq :=
  let ss := spaceOf t.sspace
  let ds := spaceOf t.dspace
  let lim := if ss == .remote || ds == .remote then 128 else 256
  let row := fun (i j : Nat) =>
    splitRow lim 0 ss ds t.len0 (strided t.src i j (t.sd 8) (t.sd 9)) (strided t.dst i j (t.sd 10) (t.sd 11)) t.len0
  let rows := if t.dloop then (List.range t.c1).flatMap fun i => (List.range t.c2).flatMap fun j => row i j
    else (List.range t.c2).flatMap fun j => (List.range t.c1).flatMap fun i => row i j
  if t.genEn then ⟨0, true, ss, (dmxSrcRange t).1.toNat / 65536 * 65536, ds, t.expgen, 4⟩ :: rows else rows

/-- The oldest fired task of an engine that is not split, of the kind wanted. -/
def Dmx.unsplit (d : Dmx) (att : Bool) : Option DXfer :=
  d.xfers.find? fun x => !x.split && (x.task.etype == 3) == att

/-- Replaces a transfer by entry number. -/
def Dmx.mapXfer (d : Dmx) (entry : Nat) (f : DXfer → DXfer) : Dmx :=
  { d with xfers := d.xfers.map fun x => if x.task.entry = entry then f x else x }

def Dmx.xfer (d : Dmx) (entry : Nat) : Option DXfer := d.xfers.find? fun x => x.task.entry == entry

/-- DMX_TRANSFER (R158, R231): the oldest fired transfer is split into requests. -/
def execDmxTransfer (site : Site) (k : Fin 2) (s : State) : Out :=
  let d := s.dmx site.val k.val
  match d.unsplit false with
  | none => .next s
  | some x =>
    .next (s.setDmx site.val k.val (d.mapXfer x.task.entry fun y => { y with split := true, reqs := transferReqs y.task }))

/-- A local access of DMX_k. -/
def dmxBy (site k : Nat) (t : Task) : By := ⟨site, if k = 0 then pD0 else pD1, t.ctx, some t.atag⟩

/-- The page references of a list: address and expected generation (R234). -/
def pageRefs : List PWord → List (Nat × Nat)
  | a :: b :: l => (a.v + b.v % 2 ^ 16 * 2 ^ 32, b.v / 2 ^ 16) :: pageRefs l
  | _ => []

/-- A page reference lies in a view and on a page boundary (R235). -/
def pageOk (a : Nat) : Bool :=
  a % 65536 == 0 && ((decide (interBase ≤ a) && decide (a < interEnd)) || (decide (directBase ≤ a) && decide (a < directEnd)))

/-- The space of a page's address. -/
def viewOf (a : Nat) : Space := if directBase ≤ a then .direct else .inter

/-- The requests of page i of an attention-page task: its generation, then its sections. -/
def pageReqs (t : Task) (i : Nat) (r : Nat × Nat) : List DReq :=
  ⟨i, true, viewOf r.1, r.1, .own, r.2, 4⟩ :: t.sections.flatMap fun x =>
    splitRow 256 i (viewOf r.1) .own x.2.1 (r.1 + x.1) (strided x.2.2.1 i 0 x.2.2.2 0) x.2.1

/-- ATTENTION_PAGE (R234, R235): the oldest fired attention-page task reads its list and is split; a refused reference ends
it after the pages before. -/
def execAttentionPage (site : Site) (k : Fin 2) (env : Env) (s : State) : Out :=
  let st := site.val
  match (s.dmx st k.val).unsplit true with
  | none => .next s
  | some x =>
    let t := x.task
    let (ws, io) := Io.readN ⟨s, env⟩ (dmxBy st k.val t) (t.plist / 4) (2 * t.pcount)
    let refs := pageRefs ws
    let good := refs.takeWhile fun r => pageOk r.1
    let reqs := ((List.range good.length).zip good).flatMap fun e => pageReqs t e.1 e.2
    let stt : XferSt := if good.length = refs.length then .running else .badRef good.length
    let u := io.s
    let u := if ws.any (·.p) then u.poisonSeen (pgDMX st k.val 0) else u
    .next (u.setDmx st k.val ((u.dmx st k.val).mapXfer t.entry fun y => { y with split := true, reqs := reqs, st := stt }))

/-! ### Failures (R162, R163, R203) -/

/-- DMX_ERR_INFO and an error bit of DMX_k, then the context's fault. -/
def State.dmxFault (s : State) (site k ctx code bit : Nat) (c : Cnt) (detail : Nat) (inj : Bool) : State :=
  let pg := pgDMX site k 0
  let t := s.setReg pg 0x048 (code + ctx * 2 ^ 8 + detail % 2 ^ 16 * 2 ^ 16)
  (t.raise pg bit clsUnc c inj []).ctxFault site ctx code (eDMX k) detail

/-- A transfer leaves the firing order with no completion: its other requests are abandoned, and responses to those in
flight only free their tags. -/
def State.dropXfer (s : State) (site k entry : Nat) : State :=
  let d := s.dmx site k
  (s.setDmx site k { d with xfers := d.xfers.filter fun x => x.task.entry != entry }).occUpdate site

/-- Frees a tag. -/
def State.freeTag (s : State) (site k tag : Nat) : State :=
  let d := s.dmx site k
  s.setDmx site k { d with tags := d.tags.filter fun t => t.tag != tag }

/-- Whether a trace of a request is left that can still answer it: a packet under way, a place at a bank or at an MCC. -/
def State.outstanding (s : State) (w : Who) : Bool :=
  s.packets.any (fun p => p.req == w.req && p.rsite == w.rsite && p.tag == w.tag && p.ty != tRCREL) ||
    s.tiles.any (fun t => t.2.spd.gathers.any (fun g => g.who == w) || t.2.spd.banks.any fun b =>
      b.2.queue.any (fun a => a.who == w) || b.2.atomic.any fun a => a.1.who == w) ||
    s.mccs.any fun m => (m.2.queue ++ m.2.admitted).any fun q => q.req == w.req && q.rsite == w.rsite && q.tag == w.tag

/-- A request fails: the transfer faults its context and leaves the order. The tag is free, unless its response may still come:
then it is held until that is discarded (R163, R201; log entry 197). -/
def State.dmxFail (s : State) (site k : Nat) (g : DTag) (late : Bool) (code bit : Nat) (c : Cnt) (detail : Nat) (inj : Bool) :
    State :=
  let t := if late then s else s.freeTag site k g.tag
  match (t.dmx site k).xfer g.entry with
  | none => t
  | some x => (t.dropXfer site k g.entry).dmxFault site k x.task.ctx code bit c detail inj

/-- The request fails with ADDR (R203, R286). -/
def State.dmxAddrFail (s : State) (site k : Nat) (g : DTag) : State :=
  s.dmxFail site k g false fADDR 9 .none (low16 (if g.writing then g.req.daddr else g.req.saddr)) false


/-! ### Issue (R161, R201) -/

/-- Request tag of a DMX tag (R200). -/
def reqTag (k tag : Nat) : Nat := 64 * k + tag

/-- The request fails with TIMEOUT (R163, R201). -/
def State.dmxTimeout (s : State) (site k : Nat) (g : DTag) (inj : Bool) : State :=
  s.dmxFail site k g (s.outstanding ⟨g.who, g.rsite, reqTag k g.tag⟩) fTIMEOUT 11 .unc g.tag inj

/-- The subchannel a memory address is translated to at a router. -/
def State.mcOfAddr (s : State) (site a : Nat) : Nat := s.mcOf site (lchOf a).1

/-- The subchannels that a request counts against, as its router's channel map names them (R161). -/
def State.mcsOfReq (s : State) (site : Nat) (q : DReq) : List Nat :=
  ((if q.sspace.mem then [s.mcOfAddr site q.saddr] else []) ++
    (if q.dspace.mem && !q.gen then [s.mcOfAddr site q.daddr] else [])).eraseDups

/-- A request, or its write, is sent by a tag, with the requester it first carried and a fresh translation: a routed packet, or
a memory data packet (R201). A remote request keeps the site it was sent to. A channel with no subchannel fails it with ADDR
(R286). -/
def State.dmxSend (s : State) (site k : Nat) (g : DTag) : State :=
  let g := { g with mcs := s.mcsOfReq site g.req }
  let tag := reqTag k g.tag
  let keep := fun (t : State) (h : DTag) =>
    let d := t.dmx site k
    t.setDmx site k { d with tags := (d.tags.filter fun x => x.tag != h.tag) ++ [h] }
  let space := if g.writing then g.req.dspace else g.req.sspace
  let a := if g.writing then g.req.daddr else g.req.saddr
  if space.mem then
    let (lch, off) := lchOf a
    let mc := s.mcOf site lch
    if mc = 0x1FF then (keep s g).dmxAddrFail site k g
    else if g.writing then
      (keep s { g with site := siteOfMc mc }).sendMemData site (siteOfMc mc) g.who tag 0 mc off g.data
    else
      (keep s { g with site := siteOfMc mc }).inject
        ⟨tMEM, site, 4, siteOfMc mc, 0x7FF, g.who, tag, 0, g.rsite, memAddr off mc lch (g.req.len / 4), [], 4, s.cyc site⟩
  else
    match s.siteOfLtn site (a / 2 ^ 32) with
    | none => keep s g
    | some d =>
      (keep s { g with site := d }).inject ⟨if g.writing then tWR else tRD, site, 4, d, a / 2 ^ 32, g.who, tag, 0, g.rsite,
        a % 2 ^ 23 / 4, g.data, 4, s.cyc site⟩

/-- The task a tag works for; none once its transfer has left. -/
def State.taskOfTag (s : State) (site k : Nat) (g : DTag) : Option Task := ((s.dmx site k).xfer g.entry).map (·.task)

/-- A request's write is acknowledged: its bytes count, unless it was abandoned, and its tag is free. -/
def State.dmxAcked (s : State) (site k : Nat) (g : DTag) : State :=
  (if (s.taskOfTag site k g).isSome then s.bump (pgDMX site k 1) 0x050 g.req.len else s).freeTag site k g.tag

/-- Read data starts its write: in the own scratchpad at once, elsewhere by a request (R158). -/
def State.dmxWrite (s : State) (site k : Nat) (g : DTag) (env : Env) (data : List PWord) : State :=
  let s := if data.any (·.p) then s.poisonSeen (pgDMX site k 0) else s
  match s.taskOfTag site k g with
  | none => s.freeTag site k g.tag
  | some t =>
    let s := s.bump (pgDMX site k 1) 0x048 g.req.len
    if g.req.dspace == .own then
      ((Io.mk s env).writeN (dmxBy site k t) (g.req.daddr / 4) data).s.dmxAcked site k g
    else
      let flits := 1 + (data.length + 15) / 16
      let s := if g.req.dspace.mem then (s.telAdd site t.atag 5 1).telAdd site t.atag 3 flits
        else s.telAdd site t.atag 2 data.length
      s.dmxSend site k { g with writing := true, data := data, reissues := 0 }

/-- Pages whose generations have matched, in list order with none missing (R235). -/
def DXfer.pagesOk (x : DXfer) : Nat :=
  ((List.range 4097).takeWhile fun i => x.gens.any fun g => g.page == i && g.ok).length

/-- The first page known not to match, with every earlier page matched. -/
def DXfer.firstBad (x : DXfer) : Option GenRes := x.gens.find? fun g => !g.ok && g.page == x.pagesOk

/-- Whether a request of a transfer may issue: data of a page only once it and every earlier page have matched. -/
def DXfer.allowed (x : DXfer) (q : DReq) : Bool :=
  q.gen || (x.task.etype == 2 && !x.task.genEn) || decide (q.page < x.pagesOk)

/-- A generation is found (R162, R232, R235): the first page that does not match makes the transfer stale, and nothing of
it or of later pages is written. An injected STALE makes it a mismatch (R44). -/
def State.dmxGen (s : State) (site k : Nat) (g : DTag) (v : PWord) : State :=
  if (s.taskOfTag site k g).isNone then s.freeTag site k g.tag
  else
  let (inj, t) := (s.freeTag site k g.tag).injected (pgDMX site k 0) 10
  let found := v.v % 2 ^ 16
  let r : GenRes :=
    ⟨g.req.page, g.tag, t.cyc site, found, v.p, !inj && !v.p && found == g.req.daddr && g.req.daddr != 0, inj⟩
  t.setDmx site k ((t.dmx site k).mapXfer g.entry fun x =>
    let y := { x with gens := x.gens ++ [r] }
    match y.st, y.firstBad with
    | .running, some b => { y with st := .stale b, reqs := y.reqs.filter fun q => q.page < b.page }
    | .badRef _, some b => { y with st := .stale b, reqs := y.reqs.filter fun q => q.page < b.page }
    | _, _ => y)

/-- Tags of both engines of a tile that count against a subchannel (R161). -/
def State.mcTags (s : State) (site mc : Nat) : Nat :=
  (((s.dmx site 0).tags ++ (s.dmx site 1).tags).filter fun g => g.mcs.contains mc).length

/-- DMX_CFG.SUBQ; 0 or above 16 acts as 16. -/
def State.subq (s : State) (site k : Nat) : Nat :=
  let v := s.fld (pgDMX site k 0) 0x040 0 5
  if v = 0 || 16 < v then 16 else v

/-- The quotas of a subchannel leave room (R161, R290). -/
def State.quotaOk (s : State) (site k mc : Nat) : Bool :=
  mc == 0x1FF || (decide (s.mcTags site mc < 16) &&
    decide (((s.dmx site k).tags.filter fun g => g.mcs.contains mc).length < s.subq site k))

/-- The lowest free tag of an engine. -/
def Dmx.freeTag (d : Dmx) : Option Nat := (List.range 64).find? fun n => !d.tags.any fun g => g.tag == n

/-- Whether a waiting request must wait on: for its page's generation, or for a quota (R161, R235). -/
def State.reqWaits (s : State) (site k : Nat) (x : DXfer) (q : DReq) : Bool :=
  !x.allowed q || !(s.mcsOfReq site q).all (fun mc => s.quotaOk site k mc)

/-- DMX_REQUEST_ISSUE (R161, R230): a waiting request of a transfer takes a free tag. It passes only earlier ones that must
wait. An injected TIMEOUT makes it fail at once (R44). -/
def execDmxRequestIssue (site : Site) (k : Fin 2) (entry index : Nat) (env : Env) (s : State) : Out :=
  let st := site.val
  let s := s.unskip st
  let e := k.val
  let d := s.dmx st e
  match (if s.siteOn st then d.xfer entry else none), d.freeTag with
  | some x, some tag =>
    match x.reqs[index]? with
    | none => .next s
    | some q =>
      if s.reqWaits st e x q || !(x.reqs.take index).all (s.reqWaits st e x) then .next s
      else
        let (inj, s) := s.injected (pgDMX st e 0) 11
        let (who, rsite) := s.reqOf st
        let g : DTag := ⟨tag, entry, who, rsite, q, s.cyc st, s.mcsOfReq st q, false, [], 0, st⟩
        let d := { d.mapXfer entry fun y => { y with reqs := y.reqs.eraseIdx index } with tags := d.tags ++ [g] }
        let t := s.setDmx st e d
        let t := if q.sspace.mem then t.telAdd st x.task.atag 5 1
          else if q.sspace == .remote then t.telAdd st x.task.atag 2 (q.len / 4) else t
        if inj then .next (t.dmxTimeout st e g true)
        else if q.sspace == .own then
          let (ws, io) := Io.readN ⟨t, env⟩ (dmxBy st e x.task) (q.saddr / 4) (q.len / 4)
          .next (io.s.dmxWrite st e g io.env ws)
        else .next (t.dmxSend st e g)
  | _, _ => .next s

/-! ### Completion (R158, R162, R233) -/

/-- Whether nothing of a transfer is left to do. -/
def Dmx.drained (d : Dmx) (x : DXfer) : Bool :=
  x.split && x.reqs.isEmpty && !d.tags.any fun g => g.entry == x.task.entry

/-- The status record (Table 08.9). -/
def State.writeStat (s : State) (site k : Nat) (t : Task) (code : Nat) (g : Option GenRes) (env : Env) : State :=
  if t.statEn then
    let w0 := match g with
      | some r => code + b2n r.pois * 2 ^ 8 + r.found * 2 ^ 16
      | none => code
    let w1 := (g.map (·.page)).getD 0
    (Io.writeN ⟨s, env⟩ (dmxBy site k t) (t.stat / 4) [⟨w0, false⟩, ⟨w1, false⟩]).s
  else s

/-- DMX_TRANSFER_COMPLETE (R158, R162, R233, R235): the oldest fired transfer, with every write acknowledged, completes or
fails as stale. -/
def execDmxTransferComplete (site : Site) (k : Fin 2) (env : Env) (s : State) : Out :=
  let st := site.val
  let e := k.val
  let d := s.dmx st e
  match d.xfers with
  | [] => .next s
  | x :: _ =>
    if !d.drained x then .next s
    else
      let t := x.task
      let pg1 := pgDMX st e 1
      match x.st with
      | .running =>
        let u := ((s.writeStat st e t 0 none env).dropXfer st e t.entry).bump pg1 0x040 1
        .next ((u.loupe st 1 t.ctx 0 (t.hdr ++ [t.entry])).signals st (t.signalsOf false))
      | .stale g =>
        let u := ((s.writeStat st e t fSTALE (some g) env).dropXfer st e t.entry).bump pg1 0x058 1
        let sigs := t.signalsOf true
        if sigs.isEmpty then .next (u.dmxFault st e t.ctx fSTALE 10 .none g.tag g.inj)
        else
          let u := u.setReg (pgDMX st e 0) 0x048 (fSTALE + t.ctx * 2 ^ 8 + g.tag * 2 ^ 16)
          .next ((u.raise (pgDMX st e 0) 10 clsUnc .none g.inj []).signals st sigs)
      | .badRef _ => .next ((s.dropXfer st e t.entry).dmxFault st e t.ctx fDESC 8 .none 0x0403 false)

/-- DMX_TAG_TIMEOUT (R163): a tag outstanding for 2^24 cycles. One whose transfer has left waits for its late response up to
2^25 cycles (log entry 197). -/
def execDmxTagTimeout (site : Site) (k : Fin 2) (tag : Fin 64) (s : State) : Out :=
  match (s.dmx site.val k.val).tags.find? fun g => g.tag == tag.val with
  | none => .next s
  | some g =>
    if (s.taskOfTag site.val k.val g).isSome then
      .next ((s.waitCyc site.val (g.first + 2 ^ 24)).dmxTimeout site.val k.val g false)
    else .next ((s.waitCyc site.val (g.first + 2 ^ 25)).freeTag site.val k.val g.tag)

/-- The oldest generation check of a transfer with a data read of its page not yet issued (R298). -/
def DXfer.openCheck (x : DXfer) : Option GenRes := x.gens.find? fun g => g.ok && x.reqs.any fun q => q.page == g.page && !q.gen

/-- GEN_READ_TIMEOUT (R298): a transfer that cannot issue every data read of a page within 2^24 cycles of its check. -/
def execGenReadTimeout (site : Site) (k : Fin 2) (entry : Nat) (s : State) : Out :=
  let st := site.val
  match (s.dmx st k.val).xfer entry with
  | none => .next s
  | some x =>
    match x.openCheck with
    | none => .next s
    | some g =>
      let t := s.waitCyc st (g.at_ + 2 ^ 24)
      .next ((t.dropXfer st k.val entry).dmxFault st k.val x.task.ctx fTIMEOUT 11 .unc g.tag false)

/-- A stopped clock restarts (R298): transfers with an open check fail as stale. -/
def State.staleOpen (s : State) (site : Nat) : State :=
  [0, 1].foldl (fun (t : State) k =>
    let d := t.dmx site k
    t.setDmx site k { d with xfers := d.xfers.map fun x =>
      match x.openCheck with
      | some g => { x with st := .stale g, reqs := x.reqs.filter fun q => q.page < g.page }
      | none => x }) s

end Sys2Proof.Machine
end

