-- ==== Sys2Proof/Machine/Remote.lean ====
section
/-! DEFINITION. Responses of remote scratchpad accesses and of bulk memory at their requesters, LOSS notices and timeouts
(R198, R201, R206, R208, R260, R286). -/

namespace Sys2Proof.Machine

open Sys2Proof

/-- The engine and tag of a DMX request tag. -/
def dmxOfTag (tag : Nat) : Nat × Nat := (tag / 64, tag % 64)

/-- A tag of an engine, if it is in flight. -/
def State.dtag (s : State) (site tag : Nat) : Option DTag :=
  let (k, n) := dmxOfTag tag
  (s.dmx site k).tags.find? fun g => g.tag == n

/-- A thread's remote request in flight. -/
def State.remOf (s : State) (site tag : Nat) : Option RemOut := (s.tile site).rem.find? fun r => r.tag == tag

/-- The request is no longer in flight. -/
def State.remDone (s : State) (site tag : Nat) : State :=
  let t := s.tile site
  s.setTile site { t with rem := t.rem.filter fun r => r.tag != tag }

/-- RC_REL for an atomic, to the site its request was last sent to, with the requester it carried (R208). -/
def State.sendRel (s : State) (site : Nat) (r : RemOut) : State :=
  match r.site with
  | some d => if r.kind.atomic then s.inject ⟨tRCREL, site, 4, d, 0x7FF, r.who, r.tag, 0, r.rsite, 0, [], 4, s.cyc site⟩ else s
  | none => s

/-- The destination register of a thread that waits for a tag. -/
def Thread.waitsFor (t : Thread) (tag : Nat) : Option Nat :=
  match t.block with
  | .remote g rd => if g = tag then some rd else none
  | _ => none

/-- A thread's response arrives: it is released and its instruction retires, or a poisoned word raises the access fault
(R206). -/
def State.seqAnswer (s : State) (site : Nat) (r : RemOut) (v : PWord) : State :=
  let ctx := r.tag - 128
  let t := (s.remDone site r.tag).sendRel site r
  let th := t.thread site ctx
  match th.waitsFor r.tag with
  | none => t
  | some rd =>
    if v.p then t.seqExc site ctx (if r.kind == .read then 5 else 7)
    else t.retire site ctx rd v.v (th.pc + 4)

/-- A tag's late response is expected no more (R201). -/
def State.lateDone (s : State) (site tag : Nat) : State :=
  let t := s.tile site
  s.setTile site { t with late := t.late.erase tag }

/-- A response for a thread: the late one of a request that failed is discarded (R201), as is one that nobody waits for. -/
def State.seqResponse (s : State) (site tag : Nat) (v : PWord) : State :=
  if (s.tile site).late.contains tag then s.lateDone site tag
  else match s.remOf site tag with
    | none => s
    | some r => s.seqAnswer site r v

/-- A thread's request fails under R201; its late response is to be discarded. -/
def State.seqReqFails (s : State) (site : Nat) (r : RemOut) : State :=
  let ctx := r.tag - 128
  let t := (s.remDone site r.tag).sendRel site r
  let t := if s.outstanding ⟨r.who, r.rsite, r.tag⟩ then
    t.setTile site { t.tile site with late := (t.tile site).late ++ [r.tag] } else t
  match (t.thread site ctx).waitsFor r.tag with
  | none => t
  | some _ => t.seqExc site ctx (if r.kind == .read then 5 else 7)

/-- Read data reaches a DMX request or a thread of a tile (R198). -/
def State.rdTile (s : State) (site tag : Nat) (data : List PWord) (env : Env) : State :=
  if tag < 128 then
    match s.dtag site tag with
    | some g => if g.writing then s else s.dmxWrite site (dmxOfTag tag).1 g env data
    | none => s
  else s.seqResponse site tag (data.headD ⟨0, false⟩)

/-- A write of a DMX request or a thread of a tile is acknowledged (R198, R283). -/
def State.ackTile (s : State) (site tag : Nat) : State :=
  if tag < 128 then
    match s.dtag site tag with
    | some g => if g.writing then s.dmxAcked site (dmxOfTag tag).1 g else s
    | none => s
  else s.seqResponse site tag ⟨0, false⟩

/-- A LOSS notice reaches a DMX request: it is issued again up to three times, or fails; one that was abandoned ends. -/
def State.lossDmx (s : State) (site tag cause : Nat) : State :=
  let k := (dmxOfTag tag).1
  match s.dtag site tag with
  | none => s
  | some g =>
    if (s.taskOfTag site k g).isNone then s.freeTag site k g.tag
    else if cause = 3 then s.dmxAddrFail site k g
    else if 3 ≤ g.reissues then s.dmxTimeout site k g false
    else s.dmxSend site k { g with reissues := g.reissues + 1 }

/-- A LOSS notice reaches a thread's request. -/
def State.lossSeq (s : State) (site tag cause : Nat) : State :=
  if (s.tile site).late.contains tag then s.lateDone site tag
  else match s.remOf site tag with
    | none => s
    | some r =>
      if cause = 3 then
        let u := s.remDone site tag
        match (u.thread site (tag - 128)).waitsFor tag with
        | none => u
        | some _ => u.ctxFault site (tag - 128) fADDR eSEQ (low16 r.word)
      else if 3 ≤ r.reissues then s.seqReqFails site r
      else s.issueRemote site { r with reissues := r.reissues + 1 }

/-- A LOSS notice reaches a tile: a request is issued again with a fresh translation, up to three times; a refused one fails with
ADDR (R201, R203, R260, R286). -/
def State.lossTile (s : State) (site tag cause : Nat) : State :=
  if tag < 128 then s.lossDmx site tag cause else s.lossSeq site tag cause

/-- The update word that a LOSS notice carries is applied to the requester's router (R278, R286). -/
def State.lossUpdate (s : State) (site : Nat) (words : List Nat) : State :=
  match words with
  | [w] => s.applyUpdate site (bitsOf w 0 9) (bitsOf w 16 9) (bitsOf w 32 9)
  | _ => s

/-- A tile's request has had no response within 2^24 cycles of its first issue (R201). -/
def State.timeoutTile (s : State) (site tag : Nat) : State :=
  if tag < 128 then
    match s.dtag site tag with
    | none => s
    | some g =>
      if (s.taskOfTag site (dmxOfTag tag).1 g).isNone then s
      else (s.waitCyc site (g.first + 2 ^ 24)).dmxTimeout site (dmxOfTag tag).1 g false
  else
    match s.remOf site tag with
    | none => s
    | some r => (s.waitCyc site (r.first + 2 ^ 24)).seqReqFails site r

/-- Read data reaches its requester's tile: a generation or the data of a DMX request. A service core takes its own. -/
def State.memDataIn (s : State) (site : Nat) (p : Packet) (env : Env) : State :=
  if p.tag < 128 then
    match s.dtag site p.tag with
    | some g =>
      if g.writing then s
      else if g.req.gen then s.dmxGen site (dmxOfTag p.tag).1 g (p.words.headD ⟨0, true⟩)
      else s.dmxWrite site (dmxOfTag p.tag).1 g env p.words
    | none => s
  else s

/-- The write request that a memory data packet is at its MCC; the packet carries no RSITE (Table 10.5, log entry 198). -/
def Packet.memWrite (p : Packet) : MemReq :=
  ⟨p.req, false, p.tag, bitsOf p.addr 0 33, p.words.length, some p.words, 0, 0, [], [], 0⟩

/-- The OPEN position at which an output passes memory data packets: none where the order list has no valid entry at entry 0,
which passes them without limit (R252, R284). -/
def State.openAt (s : State) (site out : Nat) : Option (Option OrderPos) :=
  if !orderValid (s.entry site (3 + out) 0) then some none
  else ((skipOpen 2050 s site out (s.orderPos site out)).filter fun q =>
    ent (s.entry site (3 + out) q.entry) 0 1 1 == 1).map some

/-- A memory data packet leaves a router by an output: its flits pass in the OPEN position. -/
def State.memLeaves (s : State) (site out : Nat) (pos : Option OrderPos) (p : Packet) : State :=
  let t := { s with packets := s.packets.erase p }
  let t := match pos with
    | some q => (t.setOrderPos site out q).passed site out q p.dataFlits
    | none => t.setOrderPos site out { t.orderPos site out with last := t.cyc site }
  (if out = 4 then t else t.bump (pgRTR site 4) 0x040 p.dataFlits).rtrPoison site p.words

/-- A memory data packet reaches its end: the MCC, the requester's tile, or a service core; none while the MCC's queue is full. -/
def State.memEnd (s : State) (site : Nat) (p : Packet) (env : Env) : Option State :=
  if p.kind = 1 then some (s.memDataIn site p env) else s.mcArrive (bitsOf p.addr 33 9) none p.memWrite

/-- A memory data packet crosses a link into the port `d` of router `n`: discarded there when its header is uncorrectable
(R285). -/
def State.memHop (s : State) (n d : Nat) (p : Packet) (upsets : List LinkUpset) : State :=
  let (x, v) := s.crossLink n d ⟨0, 0, 0, 0, p.words, false, 0⟩ upsets
  if x.badHdr then v.bump (pgRTR n 4) 0x058 1
  else { v with packets := v.packets ++
    [{ p with at_ := n, inPort := 8 + memOut n p.dsite p.req p.kind, words := x.words, buf := d, since := v.cyc n }] }

/-- MEMORY_DATA_PACKET (R249, R252, R282 to R285): packet `index` of those waiting at a router passes its output in an OPEN
position, behind those that came before it by the same port, to the next router if its buffer takes it, or to its end. -/
def execMemoryDataPacket (site : Site) (index : Nat) (upsets : List LinkUpset) (env : Env) (s : State) : Out :=
  let st := site.val
  let here := s.packets.filter fun p => p.at_ == st && p.ty == tDATA
  match here[index]? with
  | none => .next s
  | some p =>
    let o := memOut st p.dsite p.req p.kind
    match (if s.rtrRuns st && !(here.take index).any (fun q => q.buf == p.buf && p.buf < 4) then s.openAt st o else none) with
    | none => .next s
    | some pos =>
      let t := s.memLeaves st o pos p
      match nextPort st p.dsite with
      | none => .next ((t.memEnd st p env).getD s)
      | some _ =>
        match neighbour st o with
        | none => .next s
        | some n =>
          let d := oppositeDir o
          if s.forwards n && !(s.link n d).readyLow && s.portRoom n d p.dataFlits then .next (t.memHop n d p upsets) else .next s

end Sys2Proof.Machine
end

