-- ==== Sys2Proof/Machine/AppOps.lean ====
section
/-! DEFINITION. Operations that firmware's commands share: bulk memory through the channel map, TAI, firmware's own log
records, site classes, requests and their release, messages with replies, the pair stream. -/

namespace Sys2Proof.Machine

open Sys2Proof

/-- The state of an outcome; what stops changes nothing. -/
def Out.stateOr (o : Out) (s : State) : State :=
  match o with
  | .next t => t
  | _ => s

/-! ### Bulk memory -/

/-- The subchannel and offset of a device address. -/
def State.placeOf (s : State) (a : Nat) : Nat × Nat := (s.holderOf (lchOf a).1, (lchOf a).2)

/-- A word of bulk memory; of an unbacked channel, poisoned. -/
def State.memGet (s : State) (a : Nat) : PWord :=
  let (n, off) := s.placeOf a
  if n = 0x1FF then ⟨0, true⟩ else ⟨memWord s.dram (dramKey n off), !s.burstClean n (off / 32)⟩

/-- Words of bulk memory from an address up. -/
def State.memGetN (s : State) (a n : Nat) : List PWord := (List.range n).map fun i => s.memGet (a + 4 * i)

/-- Words written to bulk memory by firmware, burst by burst, and to the spare of a copy in progress (R307). -/
def State.memPut : Nat → State → Nat → List PWord → State
  | 0, s, _, _ => s
  | k + 1, s, a, ws =>
    match ws with
    | [] => s
    | _ =>
      let (n, off) := s.placeOf a
      let i := off / 4 % 8
      let m := min (8 - i) ws.length
      let b := off / 32
      let t :=
        if n = 0x1FF then s
        else
          let old := if s.burstClean n b then s.burstWords n b else List.replicate 8 (PWord.mk 0 (i != 0 || m != 8))
          let new := old.take i ++ ws.take m ++ old.drop (i + m)
          let u := s.burstWrite n b new
          if s.mcSt n == stSRC then u.storeBurst (s.mcPartner n) b new else u
      State.memPut k t (a + 4 * m) (ws.drop m)

/-- Writes words with no poison. -/
def State.memSet (s : State) (a : Nat) (ws : List Nat) : State :=
  State.memPut (ws.length + 1) s a (ws.map fun w => PWord.mk w false)

/-- Writes words as they are. -/
def State.memSetP (s : State) (a : Nat) (ws : List PWord) : State := State.memPut (ws.length + 1) s a ws

/-- Where a byte of golden copy B lies: its granule may have been rewritten onto another logical channel (R358). -/
def State.goldB (s : State) (a : Nat) : Nat :=
  match s.job.bind fun j => j.moved.find? fun m => m.1 == a / 256 with
  | some m => m.2 + a % 256
  | none => a

/-- Words of golden copy B. -/
def State.goldGetB (s : State) (a n : Nat) : List PWord := (List.range n).map fun i => s.memGet (s.goldB (a + 4 * i))

/-- Words of golden copy B written, granule by granule. -/
def State.goldPutB : Nat → State → Nat → List PWord → State
  | 0, s, _, _ => s
  | k + 1, s, a, ws =>
    match ws with
    | [] => s
    | _ =>
      let m := min (64 - a / 4 % 64) ws.length
      State.goldPutB k (s.memSetP (s.goldB a) (ws.take m)) (a + 4 * m) (ws.drop m)

def State.goldSetB (s : State) (a : Nat) (ws : List PWord) : State := State.goldPutB (ws.length + 1) s a ws

/-- The words of a copy with the other's in place of its poisoned ones. -/
def mendWords (ws other : List PWord) : List PWord := (ws.zip other).map fun e => if e.1.p then e.2 else e.1

/-- A 64-bit value of bulk memory. -/
def State.mem64 (s : State) (a : Nat) : Nat := (s.memGet a).v + (s.memGet (a + 4)).v * 2 ^ 32

/-- Frees a page of the pool: its generation becomes 0 (R299, R336). -/
def State.freePage (s : State) (a : Nat) : State :=
  let t := { s with pages := s.pages.filter (· != a) }
  t.memSetP a [let w := s.memGet a; { w with v := w.v / 2 ^ 16 * 2 ^ 16 }]

/-- The local copies of a request are dropped. -/
def State.dropAllLocal (s : State) (r : Req) : State := r.local_.foldl (fun (t : State) e => t.freePage e.2.2.2) s

/-! ### TAI (R430) -/

/-- TAI in nanoseconds at a device time, with the anchor in force. -/
def State.taiAt (s : State) (t : Nat) : Int :=
  let base : Int := (s.reg64 pgTIM 0x088 % 2 ^ 48 : Nat) * 1000000000 + (s.reg pgTIM 0x090 : Nat)
  base + ((t : Int) - (s.reg64 pgTIM 0x080 : Nat)) * (2 ^ 40 + sext 32 (s.reg pgTIM 0x094)) / 2 ^ 44

/-- TAI_STATE. -/
def State.taiState (s : State) : Nat := s.fld pgTIM 0x09C 0 2

/-- A time of Table 17.3: seconds and nanoseconds, [0, 0] while TAI_STATE is NONE (R492). -/
def State.taiPair (s : State) (t : Nat) : Nat × Nat :=
  if s.taiState = 0 then (0, 0)
  else
    let n := (s.taiAt t).toNat
    (n / 1000000000, n % 1000000000)

/-- A time as a CBOR array. -/
def cborTime (p : Nat × Nat) : List Nat := cborArr [cborUint p.1, cborUint p.2]

/-! ### Identity, role, sites -/

/-- A fuse word as latched. -/
def State.fuse (s : State) (i : Nat) : Fuse := tblGet (fun _ => Fuse.init) s.nv.fuses i

/-- MODID (Table 20.3). -/
def State.modid (s : State) : Nat := (s.fuse 0).v + (s.fuse 1).v * 2 ^ 32

/-- Role code of the loaded job; 0 when none is loaded. -/
def State.role (s : State) : Nat := (s.job.map fun j => j.cfg.role).getD 0

/-- JOBHASH of the loaded job; 0 when none. -/
def State.jobHash (s : State) : Nat := (s.job.map fun j => j.cfg.hash).getD 0

/-- A fuse entry: bit 31 is 1 and bit 30 is 0, not void (R577), as read at step 4. -/
def Fuse.entry (f : Fuse) : Bool := !f.void && !f.fresh && bitOf f.v 31 && !bitOf f.v 30

/-- Entries of a list of the fuse map. -/
def State.fuseEntries (s : State) (lo hi : Nat) : List Nat :=
  (s.nv.fuses.filter fun e => lo ≤ e.1 && e.1 < hi && e.2.entry).map fun e => e.2.v

/-- Fabrication-defective sites (BADSITE). -/
def State.badSites (s : State) : List Nat :=
  ((s.fuseEntries 0x0A0 0x140).map fun v => bitsOf v 0 11).filter (· < 1296)

/-- Whether a site is out of service (R349). -/
def State.outOfService (s : State) (site : Nat) : Bool := s.nv.retired.contains site || s.badSites.contains site

/-- The LTN map of the grid: the first loaded router's, all of them being alike between switches. -/
def State.gridMap (s : State) : List Nat := ((s.maps.find? fun e => e.2.loaded).map fun e => e.2.sites).getD []

/-- The site of an LTN in the grid's map. -/
def State.ltnSite (s : State) (n : Nat) : Nat := nthD 1296 s.gridMap n

/-- Engines' sticky overflow flags after work of the roles (R66). -/
def State.ovfAt (s : State) (l : List (Nat × Nat)) : State :=
  l.dedup.foldl (fun (t : State) e =>
    let x := t.ltnSite e.2
    if 1296 ≤ x then t
    else if e.1 = 0 then t.mxaOvf x true
    else if e.1 = 1 then t.setFld (pgVXE x 0) 0x044 0 1 1
    else t.setFld (pgRTR x 0) 0x048 0 1 1) s

/-- LTNs that the loaded job uses. -/
def State.usedLtns (s : State) : List Nat := (s.job.map fun j => j.place.base.tiles.map (·.ltn)).getD []

/-- Classes of Table 12.2. -/
inductive SiteClass
  | bound
  | idle
  | spare
  | out
  deriving DecidableEq, Repr

def State.siteClass (s : State) (site : Nat) : SiteClass :=
  if s.outOfService site then .out
  else match (List.range (min s.ltns s.gridMap.length)).find? fun n => s.gridMap[n]? == some site with
    | none => .spare
    | some n => if s.usedLtns.contains n then .bound else .idle

/-- Sites of a class. -/
def State.sitesIn (s : State) (c : SiteClass) : List Nat := (List.range 1296).filter fun x => s.siteClass x == c

/-- UNCOVERED: used LTNs without a candidate (R363). -/
def State.uncovered (s : State) : Nat :=
  (s.job.map fun j => (j.records.filter fun r => r.cands.isEmpty).length).getD 0

/-- SPARES + IDLE. -/
def State.spareCount (s : State) : Nat := (s.sitesIn .spare).length + (s.sitesIn .idle).length

/-! ### Firmware's records (R531) -/

/-- Codes of firmware's own records, in BIT, under the PG_ID of the SVC page (log entry 20). -/
def fwWrongRole : Nat := 0
def fwRefused : Nat := 1
def fwFailed : Nat := 2
def fwSubst : Nat := 3
def fwRefetch : Nat := 4
def fwNoReply : Nat := 5
def fwTakeover : Nat := 6
def fwGolden : Nat := 7
def fwLoupe : Nat := 8

/-- A firmware record: a report of collector 12 with SYNTH set. -/
def State.fwRecord (s : State) (code cls : Nat) (detail : List Nat) : State :=
  State.report 3 s pgSVC code cls 8 ((detail ++ List.replicate 8 0).take 8)

/-! ### The pair stream (R596) -/

/-- PAIR_STATUS.STATE. -/
def State.pairSt (s : State) : Nat := s.fld pgPAIR 0x054 0 3
def State.setPairSt (s : State) (v : Nat) : State := s.setFld pgPAIR 0x054 0 3 v

/-- A module that serves: no mirror, and not taking over. -/
def State.serving (s : State) : Bool := s.pairSt < 3

/-- OPT_STATUS.STATE of a port: UP or DEGRADED. -/
def State.portUp (s : State) (p : Nat) : Bool :=
  let st := s.fld (pgOPT p) 0x044 0 3
  st == 2 || st == 3

/-- The pair port in use: PORT_A while it is up, otherwise PORT_B. -/
def State.pairPort (s : State) : Option Nat :=
  let a := s.fld pgPAIR 0x040 3 5
  let b := s.fld pgPAIR 0x040 8 5
  if s.portUp a then some a else if s.portUp b then some b else none

/-- JOBOK of a port (R385). -/
def State.jobOk (s : State) (p : Nat) : Bool := s.flag (pgOPT p) 0x044 7

/-- Counts a discarded message (OPT_DROPS). -/
def State.dropMsg (s : State) (p bit : Nat) : State := (s.bump (pgOPT p) 0x0C0 1).raise (pgOPT p) bit clsInfo .none false []

/-- A message of the pair stream, on VC 3 of the pair port in use: without JOBOK the port discards it (R386, R596). -/
def State.pairSend (s : State) (kind : String) (words : List Nat) : State :=
  if s.runs pgPAIR then
    match s.pairPort with
    | some p => if s.jobOk p && !s.injPend (pgOPT p) 12 then s.send (.pairLink p) kind words else s.dropMsg p 12
    | none => s
  else s

/-- PAIR_STATUS.LAG: more than WINDOW steps are not acknowledged (R598). -/
def State.pairLag (s : State) : State :=
  s.setFld pgPAIR 0x054 5 1 (b2n (decide (s.fld pgPAIR 0x04C 8 8 < s.pair.stepNo - s.pair.acked)))

/-- Whether the module streams its state to a mirror. -/
def State.streams (s : State) : Bool := s.pairSt == 1 || s.pairSt == 2

/-- A DELTA of the step being formed, whose number is the next. A step's DELTA messages go before its STEP. -/
def State.pairDelta (s : State) (slot layer kind : Nat) (data : List Nat) : State :=
  if s.streams then
    s.pairSend "DELTA" (layout 15 [(0, 8, s.pair.stepNo + 1), (8, 4, slot), (12, 2, layer), (14, 1, kind)] ++ data)
  else s

/-- The STEP of the next number (R596): its rows (slot, position), the tokens emitted; the step then awaits its COMMIT, with
the tokens that each slot must have streamed. -/
def State.pairStep (s : State) (rows : List (Nat × Nat)) (toks : List Nat) (upTo : List (Nat × Nat)) : State :=
  if s.streams then
    let n := s.pair.stepNo + 1
    let t := s.pairSend "STEP" (layout 10 [(0, 8, n), (8, 2, rows.length)] ++
      (rows.flatMap fun x => layout 12 [(0, 4, x.1), (4, 8, x.2)]) ++ toks)
    ({ t with pair := { t.pair with stepNo := n, open_ := t.pair.open_ ++ [(n, t.time / msec, upTo)] } } : State).pairLag
  else s

/-- PAIR_SENSE is released (R600). -/
def State.dropSense (s : State) : State :=
  if s.flag pgPAIR 0x054 4 then (s.setFld pgPAIR 0x054 3 2 0).send .pin "PAIR_SENSE" [0] else s

/-- PAIR_SENSE is asserted: the line then reads asserted here too (R608). -/
def State.raiseSense (s : State) : State :=
  if s.flag pgPAIR 0x054 4 then s else (s.setFld pgPAIR 0x054 3 2 3).send .pin "PAIR_SENSE" [1]

/-- The stream of a primary has lost its mirror's state: replies that waited for its ACK go out, and its steps are protected
again only after a RESYNC (R595, R599). -/
def State.unprotect (s : State) : State :=
  let t := s.pair.held.foldl (fun (u : State) h => { u with outbox := u.outbox ++ [h.2] }) s
  ({ t with pair := { t.pair with held := [], need := t.pair.stepNo + 1 } } : State).setPairSt 2

/-- A gap in the stream makes a mirror UNSYNCED: what it holds apart is dropped until a RESYNC (R599). -/
def State.unsync (s : State) : State :=
  (({ s with pair := { s.pair with gap := true, complete := false, steps := [], deltas := [] } } : State).setPairSt 4).raise
    pgPAIR 9 clsUnc .unc false []

/-- A change of a pair port: with both DOWN, LINK is set, a primary serves UNPROTECTED, and a mirror that reads PAIR_SENSE
asserted has a gap (Table 21.2). -/
def State.pairLinks (s : State) (was : Bool) : State :=
  if s.pairSt ≠ 0 ∧ was ∧ s.pairPort.isNone then
    let t := s.raise pgPAIR 8 clsInfo .none false []
    if t.pairSt = 1 then t.unprotect
    else if (t.pairSt = 3 ∨ t.pairSt = 4) ∧ t.flag pgPAIR 0x054 3 then t.unsync
    else t
  else s

/-- The state a module of a pair takes when its page is enabled and a job with pair mode is loaded (R594, R595). -/
def State.pairEnter (s : State) : State :=
  let role := s.fld pgPAIR 0x040 0 2
  let ok := s.enabled pgPAIR && s.flag (pgGLB 1) 0x048 6 && (s.job.any fun j => j.cfg.pair) &&
    s.fld pgPAIR 0x040 3 5 != s.fld pgPAIR 0x040 8 5 && (role == 1 || role == 2)
  if !ok then (s.setPairSt 0).dropSense
  else if s.pairSt ≠ 0 then s
  else
    let t : State := { s with pair := { Pair.init with senseSince := s.time } }
    if role = 1 then (t.setPairSt 2).raiseSense else t.setPairSt 4

/-- A reply that a primary sends only once the mirror's ACK covers its step (R597); others send it at once. -/
def State.sendCovered (s : State) (ch : Chan) (kind : String) (words : List Nat) : State :=
  if s.pairSt = 1 ∧ s.pair.acked < s.pair.stepNo then { s with pair := { s.pair with held := s.pair.held ++ [(s.pair.stepNo, ⟨ch, kind, words⟩)] } }
  else s.send ch kind words

/-! ### Requests -/

/-- Fields of a SUBMIT (Table 19.4). -/
def Req.reqid (r : Req) : Nat := pfield r.sub 0x00 16
def Req.seq (r : Req) : Nat := pfield r.sub 0x10 8
def Req.flags (r : Req) : Nat := pfield r.sub 0x26 2
def Req.maxtok (r : Req) : Nat := pfield r.sub 0x28 4
def Req.nsh (r : Req) : Nat := pfield r.sub 0x2C 1
def Req.ngen (r : Req) : Nat := pfield r.sub 0x2D 1
def Req.stops (r : Req) : List Nat := (List.range (pfield r.sub 0x2E 2)).map fun i => pfield r.sub (0x150 + 4 * i) 4 % 2 ^ 18
def Req.key (r : Req) : List Nat := (List.range 4).map fun i => pfield r.sub (0x30 + 4 * i) 4
def Req.shard (r : Req) (i : Nat) : Nat := pfield r.sub (0x50 + 8 * i) 8
def Req.gen (r : Req) (i : Nat) : Nat := pfield r.sub (0xD0 + 8 * i) 8
def Req.nprompt (r : Req) : Nat := pfield r.sub 0x190 4

/-- A prompt token by index. -/
def Req.promptAt (r : Req) (i : Nat) : Option Nat := (r.prompt.find? fun e => e.1 == i).map (·.2)

/-- Whether a request is live on the module. -/
def Req.isLive (r : Req) : Bool := r.endCode.isNone

/-- The live request of a slot. -/
def State.reqAt (s : State) (slot : Nat) : Option Req := s.reqs.find? fun r => r.slot == slot && r.isLive

/-- Changes a live request. -/
def State.setReq (s : State) (slot : Nat) (f : Req → Req) : State :=
  { s with reqs := s.reqs.map fun r => if r.slot == slot && r.isLive then f r else r }

/-- The CSLOT of a shard, once it has answered. -/
def Req.cslot (r : Req) (j : Nat) : Nat := (((r.answers[j]?).getD none).map (·.2)).getD 0

/-- A message that awaits a reply, sent with a tag of its own (R339). -/
def State.sendMsg (s : State) (kind dest slot a layer hg : Nat) (name : String) (mk : Nat → List Nat) : State :=
  let tag := s.tagCtr
  let ws := mk tag
  ({ s with
    tagCtr := (s.tagCtr + 1) % 2 ^ 32
    msgs := s.msgs ++ [⟨tag, kind, dest, slot, a, layer, hg, ws, 1, s.time⟩] } : State).send (.fabric dest) name ws

/-- SEQ_CTL payload. -/
def seqCtl (seq hash op status j ns cslot mtag : Nat) : List Nat :=
  layout 0x1C [(0, 8, seq), (8, 8, hash), (0x10, 1, op), (0x11, 1, status), (0x12, 1, j), (0x13, 1, ns), (0x14, 4, cslot),
    (0x18, 4, mtag)]

/-- CLOSE to one shard. -/
def State.sendClose (s : State) (r : Req) (j : Nat) : State :=
  s.sendMsg 3 (r.shard j) r.slot j 0 0 "SEQ_CTL" fun tag => seqCtl r.seq s.jobHash 3 0 j r.nsh (r.cslot j) tag

/-- OUTCOME of an end code (Table 19.5). -/
def outcomeOf (code : Nat) : Nat :=
  if code = 0x00 ∨ code = 0x01 ∨ code = 0x11 then 0 else if code = 0x10 ∨ code = 0x15 ∨ code = 0x18 then 2 else 1

/-- The metering interval of a device time. -/
def intervalOf (t : Nat) : Nat := t / msec

/-- A TOKENS message (R553): first index, result words, END. -/
def tokensMsg (r : Req) (first : Nat) (ws : List Nat) (end_ : Nat) : List Nat :=
  layout 35 [(0, 16, r.reqid), (16, 8, r.seq), (24, 8, first), (32, 2, ws.length), (34, 1, end_)] ++ ws

/-- The index after the last token streamed. -/
def Req.nextIdx (r : Req) : Nat := ((r.tokens.getLast?).map fun e => e.1 + 1).getD r.t

/-- The end of a request is reported on its stream connection with END set, with the tokens not yet streamed (R553). -/
def State.sendEnd (s : State) (r : Req) (code : Nat) : State :=
  match r.conn with
  | some c =>
    if !s.serving then s
    else
      let ts := r.tokens.drop r.sent
      let first := (ts.head?.map (·.1)).getD r.nextIdx
      let t := { (if ts.isEmpty then s else s.waitTime r.holdTo) with streamed := s.streamed + ts.length }
      t.send (.mgmt c) "TOKENS" (tokensMsg r first (ts.map (·.2)) code)
  | none => s

/-- Receipt flags at this moment: seal loop open, TAI not locked (Table 17.3 key 19). -/
def State.rcptFlags (s : State) : Nat :=
  b2n (!s.flag pgSEAL 0x040 0) + (if s.flag pgSEAL 0x040 7 then 2 else 0) + (if s.taiState = 1 then 0 else 8)

/-- The receipt of a request waits for its last interval (R491); a mirror issues none (R603). -/
def State.queueReceipt (s : State) (p : Pending) : State :=
  if !s.serving then s else { s with rcp := { s.rcp with waiting := s.rcp.waiting ++ [p] } }

/-! ### Replies on the management port (R549) -/

/-- Replies that may go out, and those that wait: an unanswered one holds those behind it on its connection. -/
def flushReplies : List Reply → List Nat → List Reply × List Reply
  | [], _ => ([], [])
  | r :: l, b =>
    if b.contains r.conn || r.answer.isNone then
      let (a, k) := flushReplies l (r.conn :: b)
      (a, r :: k)
    else
      let (a, k) := flushReplies l b
      (r :: a, k)

/-- Sends the replies that may go out: TAG, status, payload. -/
def State.flush (s : State) : State :=
  let (a, k) := flushReplies s.replies []
  a.foldl (fun (t : State) r => match r.answer with
    | some (st, p) => t.send (.mgmt r.conn) "REPLY" (r.tag :: st :: p)
    | none => t) { s with replies := k }

/-- A reply owed to a message whose outcome is not known yet. -/
def State.ask (s : State) (conn tag why slot : Nat) : State := { s with replies := s.replies ++ [⟨conn, tag, why, slot, none⟩] }

/-- Answers what waits for an outcome. -/
def State.answer (s : State) (why slot st : Nat) (payload : List Nat) : State :=
  ({ s with replies := s.replies.map fun (r : Reply) =>
    if r.why == why && r.slot == slot && r.answer.isNone then { r with answer := some (st, payload) } else r } : State).flush

/-- Whether something waits for an outcome. -/
def State.asked (s : State) (why slot : Nat) : Bool := s.replies.any fun r => r.why == why && r.slot == slot && r.answer.isNone

/-- A reply known at once. -/
def State.reply (s : State) (conn tag st : Nat) (payload : List Nat) : State :=
  ({ s with replies := s.replies ++ [⟨conn, tag, 0, 0, some (st, payload)⟩] } : State).flush

/-- Status codes of Table 19.3. -/
def stOK : Nat := 0x00
def stBADMSG : Nat := 0x01
def stUNKNOWN : Nat := 0x02
def stBUSY : Nat := 0x03
def stREFUSED : Nat := 0x04
def stNOTFOUND : Nat := 0x05
def stEXISTS : Nat := 0x06
def stFULL : Nat := 0x07
def stHELD : Nat := 0x08
def stMISMATCH : Nat := 0x09

/-- Payload of the reply to a SUBMIT: slot, end code (R551). -/
def submitReply (slot code : Nat) : List Nat := layout 5 [(0, 4, slot), (4, 1, code)]

/-- Payload of the reply to a CANCEL: index after the last token streamed, end code (R555). -/
def cancelReply (idx code : Nat) : List Nat := layout 9 [(0, 8, idx), (8, 1, code)]

/-- Pair role of Table 13.2. -/
def State.pairRole (s : State) : Nat := if s.pairSt = 0 then 0 else if s.pairSt ≤ 2 then 1 else 2

/-- MODE of a receipt. -/
def State.rcptMode (s : State) : Nat := b2n ((s.job.map fun j => j.cfg.solo).getD false) + 2 * s.pairRole

/-- A receipt for a request of a Prompt or Generation module that ends with a code. -/
def State.reqReceipt (s : State) (r : Req) (code : Nat) : State :=
  let pt := if s.role = 1 then r.chunk else if bitOf r.flags 0 then min r.nprompt r.t else 0
  s.queueReceipt ⟨r.slot, intervalOf s.time, r.reqid, r.seq, outcomeOf code, if 2 ≤ code then some code else none,
    (pt, r.tokens.length, 0), r.energy, r.start, s.taiPair s.time, r.epoch, r.firstIv,
    r.rflags ||| s.rcptFlags, max r.taiErr (s.reg pgTIM 0x098), s.role, s.rcptMode, s.jobHash⟩

/-- A request is released with an end code (R316, R491): its step is dropped, its receipt is queued, the pair's mirror is told,
and the shards that opened are closed: on a Generation module, and on a Prompt module whose admission is refused (R317). A shard
that has not answered yet is closed when its OPEN_ACK comes. -/
def State.releaseReq (s : State) (r : Req) (code : Nat) : State :=
  let s := (s.reqReceipt r code).dropAllLocal r
  let s := if outcomeOf code = 1 && s.serving then s.fwRecord fwFailed clsUnc [r.slot, code, r.seq % 2 ^ 32, r.seq / 2 ^ 32] else s
  let opened := (List.range r.nsh).filter fun j => ((r.answers[j]?).getD none).any fun a => a.1 == 0
  let closes := s.serving && (s.role == 2 || (s.role == 1 && code == 0x18))
  let s := if closes then opened.foldl (fun (t : State) j => t.sendClose r j) s else s
  let stays := fun (m : Msg) => m.kind == 3 || (closes && m.kind == 1)
  let closing := closes && s.msgs.any fun m => m.slot == r.slot && stays m
  let mine := fun (x : Req) => x.slot == r.slot && x.isLive
  let s : State := { s with
    reqs := s.reqs.map fun x => if mine x then
      { x with endCode := some code, released := some s.time, step := none, local_ := [], sent := x.tokens.length, st := if closing then .closing else .done } else x
    attns := s.attns.filter fun a => a.slot != r.slot
    msgs := s.msgs.filter fun m => m.slot != r.slot || stays m }
  let s := s.answer 1 r.slot (if code = 0x18 then stREFUSED else stOK) (submitReply (if code = 0x18 then 0xFFFF_FFFF else r.slot) code)
  let s := s.answer 2 r.slot stOK (cancelReply r.nextIdx code)
  if s.streams then s.pairSend "RELEASE" (layout 5 [(0, 4, r.slot), (4, 1, code)]) else s

/-- A request fails or ends without a token of its own to carry END. -/
def State.endReq (s : State) (slot code : Nat) : State :=
  match s.reqAt slot with
  | none => s
  | some r => (s.releaseReq r code).sendEnd r code

end Sys2Proof.Machine
end

