-- ==== Sys2Proof/Machine/Roles.lean ====
section
/-! DEFINITION. Sequences and distributed attention (chapter 11): sequence and page tables of a Cache module, the messages
of Table 11.6, steps of a Generation module, chunks of a Prompt module; and the scheduler's test against the power budget
(R467, R468). -/

namespace Sys2Proof.Machine

open Sys2Proof

/-! ### The job's configuration -/

/-- A layer of the job, by its global number. -/
def JobCfg.layer (c : JobCfg) (l : Nat) : LayerCfg := nthD ⟨0, 1, 1, 0, [], [], [], [], 0, []⟩ c.layers l

/-- Head groups of a layer. -/
def JobCfg.groups (c : JobCfg) (l : Nat) : Nat := headGroups c.hkv (c.layer l).fmt

/-- NPL, and base(ℓ) (R333). -/
def JobCfg.base (c : JobCfg) (l : Nat) : Nat := ((List.range l).map c.groups).sum
def JobCfg.npl (c : JobCfg) : Nat := c.base c.layers.length

/-- Whether FMT, NH and LEN of a PAGE are those of the configuration. -/
def JobCfg.pageFits (c : JobCfg) (layer hg fmt nh len : Nat) : Bool :=
  decide (layer < c.layers.length) && decide (hg < c.groups layer) && fmt == (c.layer layer).fmt &&
    nh == headsIn c.hkv fmt hg && len == pageLen fmt

/-- The shard of span k, and its local ordinal (R321, R333). -/
def shardOf (k ns : Nat) : Nat := k / 16 % ns
def ordinalOf (k ns : Nat) : Nat := k / (16 * ns) * 16 + k % 16

/-! ### The sequence table of a Cache module (R332) -/

/-- A sequence table entry. -/
structure SeqEnt where
  seq : Nat
  st : Nat
  j : Nat
  ns : Nat
  dirLen : Nat
  dir : Nat
  deriving DecidableEq, Repr

/-- Address of an entry. -/
def JobCfg.seqEnt (c : JobCfg) (cslot : Nat) : Nat := c.seqTab + 64 * cslot

/-- Reads the entry of a CSLOT. -/
def State.seqEnt (s : State) (c : JobCfg) (cslot : Nat) : SeqEnt :=
  let ws := (s.memGetN (c.seqEnt cslot) 6).map (·.v)
  ⟨pfield ws 0 8, pfield ws 8 1, pfield ws 9 1, pfield ws 10 1, pfield ws 12 4, pfield ws 16 8⟩

/-- Words of an entry. -/
def SeqEnt.words (e : SeqEnt) : List Nat :=
  layout 64 [(0, 8, e.seq), (8, 1, e.st), (9, 1, e.j), (10, 1, e.ns), (12, 4, e.dirLen), (16, 8, e.dir)]

/-- Writes the entry of a CSLOT. -/
def State.setSeqEnt (s : State) (c : JobCfg) (cslot : Nat) (e : SeqEnt) : State := s.memSet (c.seqEnt cslot) e.words

/-- Slots of a Cache module (Table 11.1). -/
def cacheSlots : Nat := 65536

/-- The slot that holds an open SEQ, and the lowest free slot. -/
def State.openSlot (s : State) (c : JobCfg) (seq : Nat) : Option Nat :=
  (List.range cacheSlots).find? fun n => let e := s.seqEnt c n; e.st == 1 && e.seq == seq
def State.freeSeqSlot (s : State) (c : JobCfg) : Option Nat :=
  (List.range cacheSlots).find? fun n => (s.seqEnt c n).st == 0

/-- Whether a message names the open sequence of its slot. -/
def State.seqOpen (s : State) (c : JobCfg) (cslot seq : Nat) : Bool :=
  let e := s.seqEnt c cslot
  decide (cslot < cacheSlots) && e.st == 1 && e.seq == seq

/-! ### Pools and the page table (R299, R333 to R335) -/

/-- Lowest free run of `n` units of 1 KiB in the table pool. -/
def State.allocTab (s : State) (c : JobCfg) (n : Nat) : Option Nat :=
  ((List.range (c.tabPool.2 / 1024 + 1 - n)).map fun i => c.tabPool.1 + 1024 * i).find? fun a =>
    (List.range n).all fun k => !s.chunks.contains (a + 1024 * k)

/-- Takes units of the table pool, cleared. -/
def State.takeTab (s : State) (a n : Nat) : State :=
  { s with chunks := s.chunks ++ (List.range n).map fun k => a + 1024 * k }.memSet a (List.replicate (256 * n) 0)

/-- Lowest free page of the pool. -/
def State.allocPage (s : State) (c : JobCfg) : Option Nat :=
  ((List.range (c.pagePool.2 / 65536)).map fun i => c.pagePool.1 + 65536 * i).find? fun a => !s.pages.contains a

/-- The last non-zero generation of a page; 0 before its first. -/
def State.lastGen (s : State) (a : Nat) : Nat := tblGet (fun _ => 0) s.gens a

/-- The successor of a generation: modulo 2^16, without 0. -/
def nextGen (g : Nat) : Nat := if g + 1 < 2 ^ 16 then g + 1 else 1

/-- Takes a page and writes its new header with its next generation (R299 step 1). -/
def State.takePage (s : State) (a fmt hg layer nh seq span : Nat) : State :=
  let g := nextGen (s.lastGen a)
  ({ s with
    pages := s.pages ++ [a]
    gens := tblSet (fun _ => 0) s.gens a g } : State).memSet a (pageHeader g fmt hg layer nh seq span)

/-- Address of directory entry `i`, and of a page-table entry of a chunk. -/
def SeqEnt.dirAt (e : SeqEnt) (i : Nat) : Nat := e.dir + 8 * i

/-- The pages of a Cache module's slot: those its directory's chunks name. -/
def State.seqPages (s : State) (c : JobCfg) (cslot : Nat) : List Nat :=
  let e := s.seqEnt c cslot
  ((List.range e.dirLen).flatMap fun i =>
    let a := s.mem64 (e.dirAt i) % 2 ^ 48
    if a = 0 then [] else (List.range 128).map fun k => s.mem64 (a + 8 * k) % 2 ^ 48).filter (· != 0)

/-- Makes a directory long enough for entry `i`: it moves to a longer run of units when it must, and the old run stays until
every QUERY that waits is answered (R335). -/
def State.growDir (s : State) (c : JobCfg) (cslot i : Nat) : Option State :=
  let e := s.seqEnt c cslot
  if i < e.dirLen then some s
  else
    let n := (i + 128) / 128
    (s.allocTab c n).map fun a =>
      let old := s.memGetN e.dir (2 * e.dirLen)
      let t := (s.takeTab a n).memSetP a old
      let gone := t.chunks.filter fun x => e.dirLen != 0 && e.dir ≤ x && decide (x < e.dir + 8 * e.dirLen)
      let u := if t.heldQ.any fun (h : HeldQuery) => h.query.cslot == cslot then { t with oldDirs := t.oldDirs ++ [(cslot, gone)] }
        else { t with chunks := t.chunks.filter fun x => !gone.contains x }
      u.setSeqEnt c cslot { e with dirLen := 128 * n, dir := a }

/-- Once no QUERY of a slot waits for its answer, the directories it moved from are freed (R335). -/
def State.freeOldDirs (s : State) (cslot : Nat) : State :=
  if s.heldQ.any fun (h : HeldQuery) => h.query.cslot == cslot then s
  else
    let gone := (s.oldDirs.filter fun e => e.1 == cslot).flatMap (·.2)
    { s with
      oldDirs := s.oldDirs.filter fun e => e.1 != cslot
      chunks := s.chunks.filter fun x => !gone.contains x }

/-- The page-table entry of a span: its address, once directory and chunk exist. -/
def State.ptEnt (s : State) (c : JobCfg) (cslot layer hg span : Nat) : Option Nat :=
  let e := s.seqEnt c cslot
  let o := ordinalOf span e.ns
  let i := o / 128 * c.npl + c.base layer + hg
  if i < e.dirLen then
    let a := s.mem64 (e.dirAt i) % 2 ^ 48
    if a = 0 then none else some (a + 8 * (o % 128))
  else none

/-- Makes the page-table entry of a span exist; none when the table pool is full. -/
def State.makePtEnt (s : State) (c : JobCfg) (cslot layer hg span : Nat) : Option (Nat × State) :=
  let o := ordinalOf span (s.seqEnt c cslot).ns
  let i := o / 128 * c.npl + c.base layer + hg
  match s.growDir c cslot i with
  | none => none
  | some t =>
    match t.ptEnt c cslot layer hg span with
    | some a => some (a, t)
    | none =>
      (t.allocTab c 1).map fun a =>
        let u := t.takeTab a 1
        (a + 8 * (o % 128), u.memSet ((u.seqEnt c cslot).dirAt i) (wordsN 2 a))

/-- The page of a span: address and expected generation; none when its entry is empty. -/
def State.pageOf (s : State) (c : JobCfg) (cslot layer hg span : Nat) : Option (Nat × Nat) :=
  match s.ptEnt c cslot layer hg span with
  | none => none
  | some a => let v := s.mem64 a; if v % 2 ^ 48 = 0 then none else some (v % 2 ^ 48, v / 2 ^ 48)

/-! ### Replies -/

/-- A reply of a Cache module to a QUERY: header of PARTIAL (Table 11.6) and its records. -/
def partialMsg (q : Query) (status j : Nat) (recs : List (List Nat × Bool)) : List Nat :=
  layout 32 [(0, 8, q.seq), (8, 8, q.token), (0x10, 4, q.mtag), (0x14, 2, q.layer), (0x16, 1, q.nq - 1), (0x17, 1, status),
    (0x18, 2, q.hq), (0x1A, 1, j)] ++
    recs.flatMap fun r => layout 264 (((List.range 130).map fun i => (2 * i, 2, nthD 0 r.1 i)) ++ [(260, 4, b2n r.2)])

/-- PAGE_ACK. -/
def pageAck (seq span ptag layer hg status : Nat) : List Nat :=
  layout 24 [(0, 8, seq), (8, 8, span), (0x10, 4, ptag), (0x14, 2, layer), (0x16, 1, hg), (0x17, 1, status)]

/-- A message that the module's role does not accept: discarded and logged (R312). -/
def State.wrongRole (s : State) (mtype src : Nat) : State :=
  s.fwRecord fwWrongRole clsUnc [mtype, s.role, src % 2 ^ 32, src / 2 ^ 32 % 2 ^ 32]

/-! ### OPEN, CLOSE -/

/-- OPEN at a Cache module (R313, R317, R332). -/
def execOpen (src seq hash j ns mtag : Nat) (s : State) : Out :=
  let ack := fun (t : State) (status cslot : Nat) =>
    t.sendCovered (.fabric src) "SEQ_CTL" (seqCtl seq hash 2 status j ns cslot mtag)
  match s.job with
  | none => .next (ack (s.wrongRole 0x40 src) 5 0)
  | some job =>
    let c := job.cfg
    .next (if !s.serving then s
      else if c.role ≠ 3 then ack (s.wrongRole 0x40 src) 5 0
      else if hash ≠ c.hash then ack s 6 0
      else match s.openSlot c seq with
        | some n => ack s 9 n
        | none =>
          match s.freeSeqSlot c with
          | none => ack s 3 0
          | some n =>
            let t := s.setSeqEnt c n ⟨seq, 1, j, ns, 0, 0⟩
            let u := (t.pairDelta n 0 3 (t.seqEnt c n).words).pairStep [(n, 0)] [] []
            let old := u.binds.find? fun b => b.seq == seq
            let b : Bind := old.getD ⟨seq, 0, u.time, true, (0, 0, 0, 0), (0, 0), 0, 0, 0, 0, false, 0⟩
            let b := { b with
              opened := true
              start := u.taiPair u.time
              epoch := u.nv.epoch
              firstIv := intervalOf u.time
              taiErr := u.reg pgTIM 0x098 }
            ack { u with binds := (u.binds.filter fun x => x.seq != seq) ++ [b] } 0 n)

/-- Stages that let work start: none halted, none lost. -/
def State.stagesRun (s : State) : Bool := (s.job.map fun j => j.stages.all (· == .running)).getD false

/-- A refusal at admission (R317): the shards that opened are closed, the request ends with REFUSED. -/
def State.refuseAdmission (s : State) (slot : Nat) : State :=
  match s.reqAt slot with
  | none => s
  | some r =>
    let t := s.fwRecord fwRefused clsInfo [slot, r.seq % 2 ^ 32, r.seq / 2 ^ 32]
    if t.asked 1 slot then t.releaseReq r 0x18 else t.endReq slot 0x18

/-- The sampler seed of a request. -/
def Req.seed (r : Req) : List Nat := (List.range 4).map fun i => pfield r.sub (0x40 + 4 * i) 4

/-- The keys and seed of a slot are bound in every tile of the module that is in service (R315): dither key at the slot, seed at
4,096 + slot. -/
def State.bindSlot (s : State) (r : Req) : State :=
  (List.range 1296).foldl (fun (t : State) x =>
    if t.siteClass x == .out then t
    else (t.setKey x r.slot ⟨r.key, true, 0xFF⟩).setKey x (4096 + r.slot) ⟨r.seed, true, 0xFF⟩) s

/-- A request is admitted (R316, R326): its keys are bound; on a Generation module its shards are asked to open. -/
def State.takeIn (s : State) (slot : Nat) : State :=
  match s.reqAt slot, s.job with
  | some r, some job =>
    let s := s.bindSlot r
    let t := s.setReq slot fun x => { x with
      st := .opening
      start := s.taiPair s.time
      epoch := s.nv.epoch
      firstIv := intervalOf s.time
      taiErr := s.reg pgTIM 0x098
      answers := List.replicate r.nsh none }
    (List.range r.nsh).foldl (fun (u : State) j =>
      u.sendMsg 1 (r.shard j) slot j 0 0 "SEQ_CTL" fun tag => seqCtl r.seq job.cfg.hash 1 0 j r.nsh 0 tag) t
  | _, _ => s

/-- A Generation module's spans that its HANDOFF and window PAGEs bring: spans max(0, Ns − W) to Ns − 1 of its layers. -/
def JobCfg.windowWanted (c : JobCfg) (ns : Nat) : List (Nat × Nat × Nat) :=
  (List.range (min ns c.window)).flatMap fun i => (List.range c.count).flatMap fun l =>
    (List.range (c.groups (c.first + l))).map fun g => (ns - min ns c.window + i, c.first + l, g)

/-- Whether a request may take its first step: every shard open, and what its entry needs has arrived (R316, R327). -/
def Req.ready (r : Req) (c : JobCfg) : Bool :=
  r.answers.all (fun a => a.any fun x => x.1 == 0) && r.answers.length == r.nsh &&
    (bitOf r.flags 0 || (r.handoff && (c.windowWanted r.ns).all fun w =>
      r.local_.any fun e => (e.1, e.2.1, e.2.2.1) == w))

/-- Whether a shard's answer opens it: OK and nothing else, on either role (R317). -/
def answerOk (st : Nat) : Bool := st == 0

/-- An ADMIT: slot, SUBMIT payload with every prompt token, CSLOTs (Table 21.1). -/
def State.pairAdmit (s : State) (slot : Nat) : State :=
  match s.reqAt slot with
  | none => s
  | some r =>
    if s.streams then
      s.pairSend "ADMIT" (layout 4 [(0, 4, slot)] ++ r.sub.take 101 ++
        ((List.range r.nprompt).map fun i => (r.promptAt i).getD 0) ++ (List.range r.nsh).map r.cslot)
    else s

/-- A word with its poison in bit 32. -/
def PWord.packed (w : PWord) : Nat := w.v + b2n w.p * 2 ^ 32

/-- The whole state of a live sequence of a Generation module as DELTA messages of the next step: its tail, with T, NS, the
tail index of the first row and tokens so far, and its local pages, each with its header. -/
def State.pairState (s : State) (c : JobCfg) (slot : Nat) : State :=
  match s.reqAt slot with
  | none => s
  | some r =>
    let t := s.pairDelta slot c.first 0 ([r.t % 2 ^ 32, r.t / 2 ^ 32, r.ns % 2 ^ 32, r.ns / 2 ^ 32, 0, r.tokens.length] ++
      r.tokens.map (·.2) ++ r.tail.flatten)
    r.local_.foldl (fun (u : State) (_, l, _, a) =>
      u.pairDelta slot l 1 ([a % 2 ^ 32, a / 2 ^ 32] ++
        (u.memGetN a (64 + pageLen (c.layer l).fmt / 4)).map PWord.packed)) t

/-- The entry of a sequence that a HANDOFF brought is a step of the stream: its state and first token. -/
def State.pairEntry (s : State) (slot : Nat) : State :=
  match s.reqAt slot, s.job with
  | some r, some job =>
    if s.streams ∧ job.cfg.role = 2 ∧ r.handoff then
      (s.pairState job.cfg slot).pairStep [(slot, r.t - 1)] (r.tokens.map (·.2)) [(slot, r.tokens.length)]
    else s
  | _, _ => s

/-- Moves a request on when its shards are open and its entry is complete. -/
def State.enter (s : State) (slot : Nat) : State :=
  match s.reqAt slot, s.job with
  | some r, some job =>
    if r.answers.all (fun a => a.any fun x => answerOk x.1) ∧ (r.st = .opening ∨ r.st = .entering) then
      let live := job.cfg.role == 1 || r.ready job.cfg
      let t := s.setReq slot fun x => { x with
        st := if live then .live else .entering
        last := if live && job.cfg.role == 2 && bitOf r.flags 0 then (r.promptAt 0).getD 0 else x.last }
      if live then (t.pairAdmit slot).pairEntry slot else t
    else s
  | _, _ => s

/-- Once every shard has answered, or its OPEN has gone unanswered, the request enters or is refused (R316, R317). -/
def State.decideOpen (s : State) (slot : Nat) : State :=
  match s.reqAt slot with
  | none => s
  | some r =>
    if r.answers.all Option.isSome then
      if r.answers.all (fun a => a.any fun x => answerOk x.1) then (s.answer 1 slot stOK (submitReply slot 0xFF)).enter slot
      else s.refuseAdmission slot
    else s

/-- A slot whose shards have all closed, with no OPEN left unanswered, is free (R316). -/
def State.slotClosed (s : State) (slot : Nat) : State :=
  if s.msgs.any fun m => m.slot == slot && (m.kind == 3 || m.kind == 1) then s
  else { s with reqs := s.reqs.map fun r => if r.slot == slot && r.st == .closing then { r with st := .done } else r }

/-- A shard answers the OPEN of a request that was released meanwhile: one that opened is closed. -/
def State.lateOpen (s : State) (slot j status cslot : Nat) : State :=
  match s.reqs.find? fun r => r.slot == slot && r.st == .closing with
  | none => s
  | some r =>
    if answerOk status then s.sendClose { r with answers := r.answers.set j (some (status, cslot)) } j else s.slotClosed slot

/-- OPEN_ACK (R316, R317). -/
def execOpenAck (mtag status cslot : Nat) (s : State) : Out :=
  if s.role = 1 ∨ s.role = 2 then
    match s.msgs.find? fun m => m.tag == mtag && m.kind == 1 with
    | none => .next s
    | some m =>
      let t := { s with msgs := s.msgs.filter fun x => x.tag != mtag || x.kind != 1 }
      .next (if (t.reqAt m.slot).isSome then
          (t.setReq m.slot fun r => { r with answers := r.answers.set m.a (some (status, cslot)) }).decideOpen m.slot
        else t.lateOpen m.slot m.a status cslot)
  else .next (s.wrongRole 0x40 0)

/-- CLOSE at a Cache module (R336). -/
def execClose (src seq cslot mtag j ns : Nat) (s : State) : Out :=
  let ack := fun (t : State) (status : Nat) =>
    t.send (.fabric src) "SEQ_CTL" (seqCtl seq t.jobHash 4 status j ns cslot mtag)
  match s.job with
  | none => .next (ack (s.wrongRole 0x40 src) 5)
  | some job =>
    let c := job.cfg
    let e := s.seqEnt c cslot
    .next (if !s.serving then s
      else if c.role ≠ 3 then ack (s.wrongRole 0x40 src) 5
      else if s.seqOpen c cslot seq then
        let t := s.setSeqEnt c cslot { e with st := 2 }
        let u := (t.pairDelta cslot 0 3 (t.seqEnt c cslot).words).pairStep [(cslot, 0)] [] []
        { u with closes := u.closes ++ [(cslot, src, mtag)] }
      else if e.st = 2 ∧ e.seq = seq ∧ cslot < cacheSlots then s
      else ack s 2)

/-- Frees the pages of one chunk, and the chunk. -/
def State.freeChunk (s : State) (a : Nat) : State :=
  let t := (List.range 128).foldl (fun (u : State) i =>
    let p := u.mem64 (a + 8 * i) % 2 ^ 48
    if p = 0 then u else u.freePage p) s
  { t with chunks := t.chunks.filter (· != a) }

/-- The receipt of a sequence that a Cache module served (R491). -/
def State.bindReceipt (s : State) (slot : Nat) (b : Bind) : State :=
  s.queueReceipt ⟨slot, intervalOf s.time, b.reqid, b.seq, if b.failed then 1 else 0,
    if b.failed then some 0x12 else none, (0, 0, b.served), b.energy, b.start, s.taiPair s.time, b.epoch, b.firstIv,
    b.rflags ||| s.rcptFlags, max b.taiErr (s.reg pgTIM 0x098), s.role, s.rcptMode, s.jobHash⟩

/-- A closing sequence with no QUERY left is freed and CLOSE_ACK sent (R336). -/
def execCloseComplete (cslot : Nat) (s : State) : Out :=
  match s.job, s.closes.find? fun x => x.1 == cslot with
  | some job, some (_, src, mtag) =>
    let c := job.cfg
    let e := s.seqEnt c cslot
    if s.heldQ.any (fun h => h.query.cslot == cslot) then .next s
    else
      let t := (List.range e.dirLen).foldl (fun (u : State) i =>
        let a := u.mem64 (e.dirAt i) % 2 ^ 48
        if a = 0 then u else u.freeChunk a) s
      let t := { t with chunks := t.chunks.filter fun x => e.dirLen == 0 || x < e.dir || e.dir + 8 * e.dirLen ≤ x }
      let t := t.setSeqEnt c cslot ⟨0, 0, 0, 0, 0, 0⟩
      let t := match t.binds.find? fun b => b.seq == e.seq with
        | some b => { t.bindReceipt cslot b with binds := t.binds.filter fun x => x.seq != e.seq }
        | none => t
      let t := { t with closes := t.closes.filter fun x => x.1 != cslot }
      .next (t.send (.fabric src) "SEQ_CTL" (seqCtl e.seq c.hash 4 0 e.j e.ns cslot mtag))
  | _, _ => .next s

/-- CLOSE_ACK at a Prompt or Generation module (R312, R316). -/
def execCloseAck (mtag : Nat) (s : State) : Out :=
  if s.role = 1 ∨ s.role = 2 then
    match s.msgs.find? fun m => m.tag == mtag && m.kind == 3 with
    | none => .next s
    | some m => .next ({ s with msgs := s.msgs.filter fun x => x.tag != mtag || x.kind != 3 }.slotClosed m.slot)
  else .next (s.wrongRole 0x40 0)

/-! ### PAGE and PAGE_ACK -/

/-- The 30 ms of R299 step 3. -/
def genWait : Nat := 30 * msec

/-- PAGE: at a Cache module stores a page and its table entry (R335), at a Generation module a local copy of the window
(R326). -/
def execPage (src seq span slot layer hg fmt nh ptag len : Nat) (data : List PWord) (s : State) : Out :=
  let ack := fun (t : State) (status : Nat) =>
    t.sendCovered (.fabric src) "PAGE_ACK" (pageAck seq span ptag layer hg status)
  match s.job with
  | none => .next (ack (s.wrongRole 0x41 src) 5)
  | some job =>
    let c := job.cfg
    .next (if !s.serving then s
      else if c.role = 3 then
        if !s.seqOpen c slot seq then ack s 2
        else if !c.pageFits layer hg fmt nh len then ack s 4
        else if (s.pageOf c slot layer hg span).isSome then ack s 1
        else match s.makePtEnt c slot layer hg span with
          | none => ack s 3
          | some (ent, t) =>
            match t.allocPage c with
            | none => ack t 3
            | some a =>
              let t := t.takePage a fmt hg layer nh seq span
              let t := t.waitTime (t.time + genWait)
              let t := t.memSetP (a + 0x100) (pageBody data)
              let t := t.memSet ent (wordsN 2 (a + t.lastGen a * 2 ^ 48))
              let t := t.pairDelta slot layer 2 ([a % 2 ^ 32, a / 2 ^ 32] ++ (t.memGetN a (64 + data.length)).map PWord.packed)
              ack (t.pairStep [(slot, span)] [] []) 0
      else if c.role = 2 then
        match s.reqAt slot with
        | none => ack s 2
        | some r =>
          if r.seq ≠ seq then ack s 2
          else if !c.pageFits layer hg fmt nh len || layer < c.first || c.first + c.count ≤ layer then ack s 4
          else if r.local_.any fun e => (e.1, e.2.1, e.2.2.1) == (span, layer, hg) then ack s 1
          else match s.allocPage c with
            | none => ack s 3
            | some a =>
              let t := s.takePage a fmt hg layer nh seq span
              let t := (t.waitTime (t.time + genWait)).memSetP (a + 0x100) (pageBody data)
              let t := t.setReq slot fun x => { x with local_ := x.local_ ++ [(span, layer, hg, a)] }
              ack (t.enter slot) 0
      else ack (s.wrongRole 0x41 src) 5)

/-- Drops the local copies of spans that left the window and are acknowledged (R323 step 5); a Prompt module keeps its own
until prefill ends (R326). -/
def State.dropLocal (s : State) (slot : Nat) : State :=
  match s.reqAt slot, s.job with
  | some r, some job =>
    if job.cfg.role ≠ 2 then s
    else
      let old := r.local_.filter fun e => e.1 + job.cfg.window < r.ns && !r.missing.contains (e.1, e.2.1, e.2.2.1)
      (old.foldl (fun (t : State) e => t.freePage e.2.2.2) s).setReq slot fun x =>
        { x with local_ := x.local_.filter fun e => !old.contains e }
  | _, _ => s

/-- A Prompt module's sequence whose pages are all acknowledged and whose HANDOFF went out is released (R316, R326). -/
def State.promptDone (s : State) (slot : Nat) : State :=
  match s.reqAt slot with
  | none => s
  | some r =>
    if s.role = 1 ∧ r.handoff ∧ !s.msgs.any (fun m => m.slot == slot && (m.kind == 5 || m.kind == 6)) then s.releaseReq r 0x00 else s

/-- A Prompt module's HANDOFF to each Generation module of a sequence: the first token and the tail (R327), once every shard has
acknowledged its PAGEs, so that no step of a Generation module names a span that is not (R324). -/
def State.sendHandoff (s : State) (slot : Nat) : State :=
  match s.reqAt slot, s.job with
  | some r, some job =>
    match r.hand with
    | none => s
    | some (w, gslots) =>
      let c := job.cfg
      if s.msgs.any fun m => m.slot == slot && m.kind == 5 then s
      else
        let t := (List.range r.ngen).foldl (fun (u : State) i =>
          let (fl, nl) : Nat × Nat := nthD (0, 0) c.gens i
          u.send (.fabric (r.gen i)) "HANDOFF"
            (layout 32 [(0, 8, r.seq), (8, 8, r.nprompt), (0x10, 4, nthD 0 gslots i), (0x14, 4, w), (0x18, 2, fl), (0x1A, 2, nl),
              (0x1C, 2, r.tail.length), (0x1E, 2, c.hkv)] ++
              (List.range nl).flatMap fun l => (List.range r.tail.length).flatMap fun v => (List.range c.hkv).flatMap fun h =>
                layout 512 ((List.range 256).map fun x => (2 * x, 2, nthD 0 (nthD [] r.tail v) (((fl + l) * c.hkv + h) * 256 + x)))))
          s
        let t := t.pairStep [(slot, r.nprompt - 1)] [w] []
        (t.setReq slot fun x => { x with handoff := true, hand := none }).promptDone slot
  | _, _ => s

/-- PAGE_ACK (R323, R324, Table 11.8). -/
def execPageAck (ptag status : Nat) (s : State) : Out :=
  if s.role = 1 ∨ s.role = 2 then
    match s.msgs.find? fun m => m.tag == ptag && (m.kind == 5 || m.kind == 6) with
    | none => .next s
    | some m =>
      let t := { s with msgs := s.msgs.filter fun x => x.tag != ptag || (x.kind != 5 && x.kind != 6) }
      if status = 0 ∨ status = 1 then
        let u := t.setReq m.slot fun r => { r with
          missing := r.missing.filter fun e => m.kind != 5 || e != (m.a, m.layer, m.hg) }
        .next (((u.dropLocal m.slot).sendHandoff m.slot).promptDone m.slot)
      else .next (t.endReq m.slot (if status = 3 then 0x11 else 0x12))
  else .next (s.wrongRole 0x42 0)

/-! ### QUERY and PARTIAL -/

/-- Spans of a shard below SPAN_END, ascending. -/
def spansOf (j ns spanEnd : Nat) : List Nat := (List.range spanEnd).filter fun k => shardOf k ns == j

/-- The page words of each span of a query for one head group; a status when one is missing or stale (Table 11.8). -/
def State.querySpans (s : State) (c : JobCfg) (cslot layer g : Nat) : List Nat → Except Nat (List (Nat × List PWord))
  | [] => .ok []
  | k :: l =>
    match s.pageOf c cslot layer g k with
    | none => .error 7
    | some (a, gen) =>
      if (s.memGet a).v % 2 ^ 16 ≠ gen ∨ gen = 0 then .error 8
      else
        match s.querySpans c cslot layer g l with
        | .error e => .error e
        | .ok r => .ok ((k, s.memGetN (a + 0x100) (pageLen (c.layer layer).fmt / 4)) :: r)

/-- Every head group's spans. -/
def State.queryGroups (s : State) (c : JobCfg) (cslot layer : Nat) (spans : List Nat) :
    List Nat → Except Nat (List (List (Nat × List PWord)))
  | [] => .ok []
  | g :: l =>
    match s.querySpans c cslot layer g spans with
    | .error e => .error e
    | .ok x =>
      match s.queryGroups c cslot layer spans l with
      | .error e => .error e
      | .ok r => .ok (x :: r)

/-- The attention key as a lane's tile has it bound: at index 0 of its key store (R344; log entry 201). -/
def State.laneKey (s : State) (ltn : Nat) : KeyEntry := s.key (s.ltnSite ltn) 0

/-- Whether the attention key is bound in every tile that forms a lane of a layer; elsewhere no reduction starts (R82). -/
def State.attnBound (s : State) (lc : LayerCfg) : Bool := (List.range lc.lanesC).all fun a => (s.laneKey (lc.laneLtn a)).bound

/-- The records of a QUERY (R340, R341) and the engines that overflow, or the status it fails with. `begun` is a QUERY that began
before the sequence was closed (R336). A generation that does not match is read again at once, and does not match then (R346). -/
def State.queryRecords (s : State) (c : JobCfg) (q : Query) (begun : Bool) : Except Nat (List (List Nat × Bool) × Ovfs) :=
  let e := s.seqEnt c q.cslot
  if !s.seqOpen c q.cslot q.seq && !(begun && e.st == 2 && e.seq == q.seq) then .error 2
  else if q.hq ≠ c.hq ∨ c.layers.length ≤ q.layer then .error 4
  else
    let lc := c.layer q.layer
    match s.queryGroups c q.cslot q.layer (spansOf e.j e.ns q.spanEnd) (List.range (c.groups q.layer)) with
    | .error x => .error x
    | .ok gs =>
      let ps := (List.range (q.nq * q.hq)).map fun n =>
        let h := n % q.hq
        let (els, scs, bad) : List Nat × List Nat × Bool := nthD ([], [], false) q.qs n
        let kv := nthD 0 c.kvOf h
        let blocks := (nthD [] gs (kv / pageG lc.fmt)).map fun (b : Nat × List PWord) => (b.1, fun (j : Nat) => pageKv lc.fmt j b.2)
        spansPart (s.laneKey (lc.laneLtn 0)).words lc lc.lanesC lc.treeC e.ns (q.token + n / q.hq) h kv (queryVals (els, scs)) bad
          blocks
      .ok (ps.map fun (x : Part × Ovfs) => x.1.record, ps.flatMap fun (x : Part × Ovfs) => x.2)

/-- Runs a QUERY and sends its PARTIAL, 20 µs after it ends (R517); one with a POISON record is held. Without its attention key
a QUERY stays unanswered. -/
def State.runQuery (s : State) (c : JobCfg) (q : Query) (begun : Bool) : State :=
  let j := (s.seqEnt c q.cslot).j
  match s.queryRecords c q begun with
  | .error st => s.send (.fabric q.src) "PARTIAL" (partialMsg q st j [])
  | .ok (recs, os) =>
    if !s.attnBound (c.layer q.layer) then s else
    let t := { s.ovfAt os with binds := s.binds.map fun (b : Bind) =>
      if b.seq == q.seq then { b with served := b.served + q.nq } else b }
    if recs.any (·.2) then { t with heldQ := (t.heldQ.filter fun (h : HeldQuery) => h.query != q) ++ [⟨q, s.time⟩] }
    else
      let u := t.waitTime (t.time + 20 * usec)
      (({ u with heldQ := u.heldQ.filter fun (h : HeldQuery) => h.query != q } : State).freeOldDirs q.cslot).send (.fabric q.src)
        "PARTIAL" (partialMsg q 0 j recs)

/-- QUERY (R336, R340, Table 11.8). -/
def execQuery (q : Query) (s : State) : Out :=
  match s.job with
  | none => .next ((s.wrongRole 0x43 q.src).send (.fabric q.src) "PARTIAL" (partialMsg q 5 0 []))
  | some job =>
    .next (if !s.serving then s
      else if job.cfg.role = 3 then s.runQuery job.cfg q false
      else (s.wrongRole 0x43 q.src).send (.fabric q.src) "PARTIAL" (partialMsg q 5 0 []))

/-- The parts of an attention step in the order of R343: shards, local part (16), tail part (17). -/
def Attn.inOrder (a : Attn) : List (List (List Nat × Bool)) :=
  (List.range 18).filterMap fun j => (a.parts.find? fun p => p.1 == j).map (·.2)

/-- The attention output, once every part is there (R343), and whether an operation of it overflowed. -/
def Attn.finish (a : Attn) (key : List Nat) (stream hq : Nat) : Attn × Bool :=
  if a.want.isEmpty then
    let ps := a.inOrder
    let os := (List.range (a.nq * hq)).map fun n =>
      attnOutput key stream (a.pos + n / hq) a.layer (ps.map fun p => nthD ([], false) p n)
    ({ a with out := some (os.map (·.1)) }, os.any (·.2))
  else (a, false)

/-- PARTIAL (R339, R343, R347). -/
def execPartial_ (mtag status : Nat) (records : List (List Nat × Bool)) (s : State) : Out :=
  match s.job with
  | none => .next (s.wrongRole 0x44 0)
  | some job =>
    if job.cfg.role ≠ 2 then .next (s.wrongRole 0x44 0)
    else match s.msgs.find? fun m => m.tag == mtag && m.kind == 7 with
      | none => .next s
      | some m =>
        let t := { s with msgs := s.msgs.filter fun x => x.tag != mtag || x.kind != 7 }
        if status ≠ 0 then .next (t.endReq m.slot 0x12)
        else
          let key := ((t.reqAt m.slot).map (·.key)).getD []
          let lc := job.cfg.layer m.layer
          let got : Attn → Attn × Bool := fun a =>
            if a.slot == m.slot && a.layer == m.layer then
              Attn.finish { a with want := a.want.filter (· != m.a), parts := a.parts ++ [(m.a, records)] } key lc.merge job.cfg.hq
            else (a, false)
          let as := t.attns.map got
          .next ({ t with attns := as.map Prod.fst }.ovfAt (if as.any Prod.snd then [(1, lc.laneLtn 0)] else []))

/-! ### Tokens of a request -/

/-- The token of a sampler result word, and whether it is INVALID (R156). -/
def tokenOf (w : Nat) : Nat := w % 2 ^ 18
def invalidTok (w : Nat) : Bool := bitOf w 31

/-- The end code that a request's newest tokens give: a stop token, MAXTOK, or the index bound of R348. -/
def Req.endOf (r : Req) : Option Nat :=
  match r.tokens.getLast? with
  | none => none
  | some (i, w) =>
    if r.stops.contains (tokenOf w) && !invalidTok w then some 0x00
    else if r.maxtok ≤ r.tokens.length then some 0x01
    else if 2 ^ 40 ≤ i + 1 then some 0x11
    else none

/-- Appends emitted tokens up to the one that ends the request. -/
def Req.emit (r : Req) : List (Nat × Nat) → Req
  | [] => r
  | x :: l =>
    let r2 := { r with tokens := r.tokens ++ [x] }
    if r2.endOf.isSome then r2 else r2.emit l

/-- HANDOFF at a Generation module (R327): its first token counts as the request's token of index P. -/
def execHandoff (h : Handoff) (s : State) : Out :=
  match s.job with
  | none => .next (s.wrongRole 0x45 0)
  | some job =>
    if job.cfg.role ≠ 2 then .next (s.wrongRole 0x45 0)
    else match s.reqAt h.slot with
      | none => .next s
      | some r =>
        if r.seq ≠ h.seq ∨ r.handoff ∨ r.st = .live ∨ bitOf r.flags 0 then .next s
        else
          let t := s.setReq h.slot fun x =>
            Req.emit { x with handoff := true, t := h.p, last := tokenOf h.first, ns := h.p / 64, tail := h.tail } [(h.p, h.first)]
          .next (t.enter h.slot)

/-- A message with no reply for the job's timeout: sent again, up to 3 times; then its sequence fails, its admission is
refused, or its CLOSE is logged (R339). -/
def execReplyTimeout (tag : Nat) (s : State) : Out :=
  match s.job, s.msgs.find? fun m => m.tag == tag with
  | some job, some m =>
    let s := s.waitTime (m.at_ + job.cfg.timeout.getD (50 * msec))
    if m.sends < 4 then
      let name := if m.kind = 5 ∨ m.kind = 6 then "PAGE" else if m.kind = 7 then "QUERY" else "SEQ_CTL"
      let t : State := { s with msgs := s.msgs.map fun (x : Msg) =>
        if x.tag == tag then { x with sends := x.sends + 1, at_ := s.time } else x }
      .next (t.send (.fabric m.dest) name m.words)
    else
      let t := { s with msgs := s.msgs.filter fun x => x.tag != tag }
      if m.kind = 5 ∨ m.kind = 6 ∨ m.kind = 7 then .next (t.endReq m.slot 0x13)
      else if m.kind = 1 then
        .next (((t.setReq m.slot fun r => { r with answers := r.answers.set m.a (some (0xFF, 0)) }).decideOpen m.slot).slotClosed m.slot)
      else .next ((t.fwRecord fwNoReply clsInfo [m.slot, m.a]).slotClosed m.slot)
  | _, _ => .next s

/-! ### The scheduler (R466 to R468) -/

/-- The sequence-length bucket of R464. -/
def bucketOf (len : Nat) : Nat := ((List.range 31).find? fun b => decide (len ≤ 256 * 2 ^ b)).getD 31

/-- The signature of a phase on a module of the job (R464). -/
def JobCfg.sigOf (c : JobCfg) (p : PhaseUse) : Nat := p.phase % 2 ^ 24 + bucketOf p.len * 2 ^ 24 + c.role % 8 * 2 ^ 29

/-- OCC cycles of a phase by region: the compile-time estimate's (R466). -/
def JobCfg.occOf (c : JobCfg) (p : PhaseUse) : List (Nat × Nat) :=
  (c.phases.filter fun x => x.1 == p.phase % 2 ^ 24).map fun x => (x.2.1, x.2.2.1)

/-- E in fJ per OCC cycle and peak current in mA that the model predicts for a signature in a region at a step (R466). -/
def State.predict (s : State) (c : JobCfg) (sig step region : Nat) : Nat × Nat :=
  let at_ := s.ctl.model.filter fun (_, st, r, _) => st == step && r == region
  let own := at_.find? fun (g, _) => g == sig
  let higher := at_.filter fun (g, _) => g % 2 ^ 24 == sig % 2 ^ 24 && bitsOf sig 24 5 < bitsOf g 24 5
  match own with
  | some (_, _, _, e, i, n) =>
    if 16 ≤ n then (e, i)
    else higher.foldl (fun (a : Nat × Nat) (_, _, _, e, i, _) => (max a.1 e, max a.2 i)) (e, i)
  | none =>
    if higher.isEmpty then
      ((c.phases.find? fun (p, r, _) => p == sig % 2 ^ 24 && r == region).map fun (_, _, _, e, i) => (e, i)).getD (0, 0)
    else higher.foldl (fun (a : Nat × Nat) (_, _, _, e, i, _) => (max a.1 e, max a.2 i)) (0, 0)

/-- ILIM_EFF of a region in mA (Table 15.6); 0 with 5 or fewer phases. -/
def State.ilimEff (s : State) (r : Nat) : Nat :=
  let ilim := 2 * s.fld (pgPRG r) 0x040 8 8
  let n := ((List.range 8).filter fun p => bitOf (s.fld (pgPRG r) 0x05C 0 8) p).length
  1000 * (if n = 8 then min ilim 260 else if n = 7 then min ilim 227 else if n = 6 then min ilim 165 else 0)

/-- Input power in mW that phases draw: dynamic energy over the duration, by the efficiency of the converters (0.975 × 0.91),
for `rows` of `total` rows of the work, and the static, memory, optical and service power of the last 1 ms interval. -/
def State.predPower (s : State) (c : JobCfg) (step : Nat) (ps : List PhaseUse) (duration rows total : Nat) : Nat :=
  let fj := (ps.map fun p => ((c.occOf p).map fun o => (s.predict c (c.sigOf p) step o.1).1 * o.2).sum).sum
  fj * 16 * 100000 / (1000 * max 1 duration * 88725) * rows / max 1 total + s.mtr.lastBase

/-- The sums of I_pk by region are at or below ILIM_EFF. -/
def State.peaksOk (s : State) (c : JobCfg) (step : Nat) (ps : List PhaseUse) : Bool :=
  (List.range 72).all fun r =>
    (ps.map fun p => ((c.occOf p).map fun o => if o.1 = r then (s.predict c (c.sigOf p) step r).2 else 0).sum).sum ≤ s.ilimEff r

/-- CAP_EFF in W. -/
def State.capEff (s : State) : Nat := s.fld pgPWR 0x054 0 14

/-- The test of R467 at a step. -/
def State.fitsAt (s : State) (step : Nat) (c : JobCfg) (ps : List PhaseUse) (duration rows total : Nat) : Bool :=
  decide (s.predPower c step ps duration rows total ≤ s.capEff * (1000 - c.margin)) && s.peaksOk c step ps

/-- The test of R467 at the current step. -/
def State.fits (s : State) (c : JobCfg) (ps : List PhaseUse) (duration rows total : Nat) : Bool :=
  s.fitsAt s.step c ps duration rows total

/-- Rows of the parts of a microbatch. -/
def SeqWork.rows (w : SeqWork) : Nat := 1 + w.drafts.length
def workRows (ws : List SeqWork) : Nat := (ws.map SeqWork.rows).sum

/-- Removes the last forced draft of the last part that ends with one; none when there is none. -/
def dropForced : List SeqWork → Option (List SeqWork)
  | [] => none
  | w :: l =>
    match dropForced l with
    | some l2 => some (w :: l2)
    | none =>
      if (w.drafts.getLast?).any (·.2) then
        some ({ w with drafts := w.drafts.dropLast, kv := w.kv.dropLast } :: l)
      else none

/-- One reduction of a microbatch (R468 steps 2 and 3): a forced-draft row, else the part admitted last. -/
def reduceOnce (ws : List SeqWork) : List SeqWork := (dropForced ws).getD ws.dropLast

/-- Reduces a microbatch until the test passes; fuel, the rows at first. -/
def State.reduceWork (s : State) (c : JobCfg) (ps : List PhaseUse) (duration total : Nat) :
    Nat → List SeqWork → List SeqWork
  | 0, _ => []
  | n + 1, ws =>
    if ws.isEmpty ∨ s.fits c ps duration (workRows ws) total then ws
    else s.reduceWork c ps duration total n (reduceOnce ws)

/-- Whether a live sequence may be issued now: no step in flight, its Cache part acknowledged (R318, R324). -/
def Req.canStep (r : Req) (c : JobCfg) : Bool :=
  r.st == .live && r.step.isNone && !r.cancel && r.endOf.isNone && r.missing.all fun e => r.ns ≤ e.1 + c.window

/-- The attention of one layer of a step: local and tail parts computed, a QUERY to each shard that holds a span (R322,
R338, R340). -/
def State.startAttn (s : State) (c : JobCfg) (r : Req) (rows : List (List Nat)) (l : Nat) (qs : List (List Nat)) : State :=
  let lc := c.layer l
  let nq := rows.length
  let key := r.key
  let bad := fun (n : Nat) => (nthD [] qs n).any fun x => bitOf x 16
  let mq := (List.range (nq * c.hq)).map fun n => queryMx lc.scale (nthD [] qs n)
  let mx := mq.map (·.1)
  let lo := r.ns - c.window
  let locals := (List.range (r.ns - lo)).map (lo + ·)
  let pageAt := fun (k g : Nat) =>
    ((r.local_.find? fun e => (e.1, e.2.1, e.2.2.1) == (k, l, g)).map fun e =>
      s.memGetN (e.2.2.2 + 0x100) (pageLen lc.fmt / 4)).getD []
  let localParts := (List.range (nq * c.hq)).map fun n =>
    let h := n % c.hq
    let kv := nthD 0 c.kvOf h
    let blocks := locals.map fun k => (k, fun (j : Nat) => pageKv lc.fmt j (pageAt k (kv / pageG lc.fmt)))
    spansPart key lc lc.lanesG lc.treeG 1 (r.t + n / c.hq) h kv (queryVals (nthD ([], []) mx n)) (bad n) blocks
  let localRecs := localParts.map (·.1.record)
  let tailParts := (List.range (nq * c.hq)).map fun n =>
    let h := n % c.hq
    let q := (nthD [] qs n).map fun x => decodeElem 0xC (toBF16 .rne (decodeAF16 (afMul (x % 2 ^ 16) lc.scale).1)).1
    tailPart key lc c.hkv (l - c.first) r.ns (r.t + n / c.hq) (nthD 0 c.kvOf h) q (bad n) (r.tail ++ rows)
  let tailRecs := tailParts.map Part.record
  let shards := (List.range r.nsh).filter fun j => !(spansOf j r.nsh lo).isEmpty
  let a : Attn := ⟨r.slot, l, r.t, nq, r.ns, mx, shards,
    (if locals.isEmpty then [] else [(16, localRecs)]) ++ [(17, tailRecs)], none⟩
  let (done, ov) := a.finish key lc.merge c.hq
  let ovs := (if locals.isEmpty then [] else localParts.flatMap (·.2)) ++ tailParts.flatMap (Part.ovfs · (lc.laneLtn 0)) ++
    if ov || mq.any (·.2) then [(1, lc.laneLtn 0)] else []
  let t := { s with attns := s.attns ++ [done] }.ovfAt ovs
  shards.foldl (fun (u : State) j =>
    u.sendMsg 7 (r.shard j) r.slot j l 0 "QUERY" fun tag =>
      layout 40 [(0, 8, r.seq), (8, 8, r.t), (0x10, 8, lo), (0x18, 4, r.cslot j), (0x1C, 4, tag), (0x20, 2, l),
        (0x22, 1, nq - 1), (0x24, 2, c.hq)] ++
        mx.flatMap fun q => layout 132 ((List.range 128).map (fun i => (i, 1, nthD 0 q.1 i)) ++
          (List.range 4).map fun i => (128 + i, 1, nthD 0 q.2 i))) t

/-- The row-metadata records of rows from a position: TOKEN is the position, the key index the slot (R319, R101). -/
def Req.rowMeta (r : Req) (pos n : Nat) : List Nat := (List.range n).map fun i => (pos + i) % 2 ^ 40 + r.slot % 2 ^ 12 * 2 ^ 40

/-- Issues one sequence's rows. -/
def State.issueSeq (s : State) (c : JobCfg) (w : SeqWork) : State :=
  match s.reqAt w.slot with
  | none => s
  | some r =>
    let step : SeqStep := ⟨r.t, w.drafts, w.kv, r.rowMeta r.t w.kv.length, s.time, false, false, 0⟩
    let t := s.setReq w.slot fun x => { x with step := some step }
    w.qs.foldl (fun (u : State) e =>
      if c.first ≤ e.1 ∧ e.1 < c.first + c.count then u.startAttn c r w.kv e.1 e.2 else u) t

/-- Parts of a microbatch that may run: live, waited for nothing, 1 to 16 rows with their K and V, once each, and 256 rows
in all (R318, R320, R324). -/
def State.workOk (s : State) (c : JobCfg) (ws : List SeqWork) : List SeqWork :=
  (ws.foldl (fun (a : List SeqWork × Nat) w =>
    let ok := (s.reqAt w.slot).any (fun r => r.canStep c) && decide (w.drafts.length ≤ 15) && w.kv.length == w.rows &&
      !a.1.any (fun x => x.slot == w.slot) && decide (a.2 + w.rows ≤ 256)
    if ok then (a.1 ++ [w], a.2 + w.rows) else a) ([], 0)).1

/-- WORK_ISSUE (R318, R467, R468): 0 a microbatch, 1 a prefill chunk, 2 admission of the requests that wait for it. -/
def execWorkIssue (kind : Nat) (works : List SeqWork) (phases : List PhaseUse) (duration : Nat) (s : State) : Out :=
  match s.job with
  | none => .next s
  | some job =>
    let c := job.cfg
    if !s.serving then .next s
    else if kind = 2 then
      if s.fits c phases duration 1 1 ∧ s.ctl.floorStep = 0 then
        let t := { s with ctl := { s.ctl with deferAdm := false } }
        .next ((t.reqs.filter fun r => r.isLive && r.st == .prompt && r.prompt.length == r.nprompt).foldl
          (fun (u : State) r => u.takeIn r.slot) t)
      else .next { s with ctl := { s.ctl with deferAdm := true } }
    else if !s.stagesRun then .next s
    else if kind = 0 ∧ c.role = 2 then
      let ws := s.workOk c works
      let total := workRows ws
      let fit := s.reduceWork c phases duration total (total + 1) ws
      let s := if fit.length = ws.length then s else { s with ctl := { s.ctl with deferAdm := true } }
      if fit.isEmpty then .next s
      else
        .next (fit.foldl (fun (u : State) w => u.issueSeq c w) s)
    else if kind = 1 ∧ c.role = 1 then
      match works with
      | w :: _ =>
        match s.reqAt w.slot with
        | none => .next s
        | some r =>
          let n := min w.kv.length (min 8192 (r.nprompt - r.chunk))
          let n := if r.chunk + n = r.nprompt then n else n / 64 * 64
          let ms := n :: ((List.range ((n + 63) / 64)).reverse.map (64 * ·))
          match ms.find? fun m => m ≠ 0 && s.fits c phases duration m n with
          | none => .next { s with ctl := { s.ctl with deferAdm := true } }
          | some m =>
            if r.st = .live ∧ r.step.isNone ∧ !r.cancel then
              .next (s.setReq w.slot fun x =>
                { x with step := some ⟨r.chunk, [], w.kv.take m, r.rowMeta r.chunk m, s.time, false, false, 0⟩ })
            else .next s
      | [] => .next s
    else .next s

/-! ### Sealing, STEP_END, PREFILL_CHUNK -/

/-- The page of one span, layer and head group goes to its shard (kind 5) or, of a Prompt module's window, to a Generation
module (kind 6), with the sequence's slot at the receiver. -/
def State.sendPage (s : State) (r : Req) (kind dest rslot span layer g fmt nh : Nat) (ws : List PWord) : State :=
  s.sendMsg kind dest r.slot span layer g "PAGE" fun tag =>
    layout 40 [(0, 8, r.seq), (8, 8, span), (0x10, 4, rslot), (0x14, 2, layer), (0x16, 1, g), (0x17, 1, fmt), (0x18, 1, nh),
      (0x1C, 4, tag), (0x20, 4, pageLen fmt)] ++ ws.map (·.v)

/-- The pages of one span on this module: layer, head group and words. -/
def JobCfg.spanPages (c : JobCfg) (rows : List (List Nat)) : List (Nat × Nat × List PWord) :=
  (List.range c.count).flatMap fun i =>
    let l := c.first + i
    (List.range (c.groups l)).map fun g => (l, g, pageWords (c.layer l).fmt c.hkv i g rows)

/-- Headers of new local pages (R299 step 1); none when the pool is full. -/
def State.takeLocal (s : State) (c : JobCfg) (r : Req) (span : Nat) :
    List (Nat × Nat × List PWord) → Option (State × List (Nat × Nat × Nat × List PWord))
  | [] => some (s, [])
  | (l, g, ws) :: rest =>
    match s.allocPage c with
    | none => none
    | some a =>
      let fmt := (c.layer l).fmt
      match (s.takePage a fmt g l (headsIn c.hkv fmt g) r.seq span).takeLocal c r span rest with
      | none => none
      | some (t, xs) => some (t, (l, g, a, ws) :: xs)

/-- Seals one span (R323 steps 1 to 5, R326): local copies, a PAGE to its shard; `toGens` sends it to Generation modules
too. None when no page is free. -/
def State.seal (s : State) (c : JobCfg) (slot span : Nat) (rows : List (List Nat)) : Option State :=
  match s.reqAt slot with
  | none => none
  | some r =>
    match s.takeLocal c r span (c.spanPages rows) with
    | none => none
    | some (t, xs) =>
      let t := t.waitTime (t.time + genWait)
      let j := shardOf span r.nsh
      let t := xs.foldl (fun (u : State) (l, g, a, ws) =>
        let u := u.memSetP (a + 0x100) (pageBody ws)
        let u := u.ovfAt (if pageOvf (c.layer l).fmt c.hkv (l - c.first) g rows then
          [(1, (c.layer l).laneLtn (laneOf span 1 (max 1 (c.layer l).lanesG)))] else [])
        let u := if c.role = 2 then
            u.pairDelta slot l 1 ([a % 2 ^ 32, a / 2 ^ 32] ++ (u.memGetN a (64 + ws.length)).map PWord.packed)
          else u
        let fmt := (c.layer l).fmt
        u.sendPage r 5 (r.shard j) (r.cslot j) span l g fmt (headsIn c.hkv fmt g) ws) t
      some ((t.setReq slot fun x => { x with
        ns := span + 1
        local_ := x.local_ ++ xs.map fun (l, g, a, _) => (span, l, g, a)
        missing := x.missing ++ xs.map fun (l, g, _, _) => (span, l, g) }).dropLocal slot)

/-- Seals while the tail holds 64 tokens; fuel. A pool without a free page ends the request (Table 11.8). -/
def State.sealAll (s : State) (c : JobCfg) (slot : Nat) : Nat → State
  | 0 => s
  | n + 1 =>
    match s.reqAt slot with
    | none => s
    | some r =>
      if r.tail.length < 64 then s
      else match s.seal c slot r.ns (r.tail.take 64) with
        | none => s.endReq slot 0x11
        | some t => (t.setReq slot fun x => { x with tail := x.tail.drop 64 }).sealAll c slot n

/-- Verification of drafts (R325): rows kept, and tokens emitted by row; `forced` rows whose prompt goes on emit none. -/
def verify (res : List Nat) (feeds : Nat → Bool) : Nat → List (Nat × Bool) → Nat × List (Nat × Nat)
  | i, [] => (1, if feeds i then [] else [(i, nthD 0 res i)])
  | i, (d, forced) :: l =>
    let mine := if feeds i || forced then [] else [(i, nthD 0 res i)]
    if forced || (tokenOf (nthD 0 res i) == d && !invalidTok (nthD 0 res i)) then
      let (k, es) := verify res feeds (i + 1) l
      (k + 1, mine ++ es)
    else (1, mine)

/-- What a sequence contributes to a STEP message: slot, position of row 0, rows, tokens emitted, rows kept. -/
structure SeqEnd where
  slot : Nat
  pos : Nat
  n : Nat
  toks : List Nat
  kept : List (List Nat)

/-- The result word of a row's sample and whether it overflows (R154 to R156, R325): temperature, top-k and min-p of the SUBMIT,
the request's key and seed. -/
def Req.sample (r : Req) (x : Logits) (tok draw : Nat) : PWord × Bool :=
  let d : Draw := ⟨pfield r.sub 0x22 2, pfield r.sub 0x20 2, pfield r.sub 0x24 2, tok, draw⟩
  let (w, o) := sampleBy d (fun kblock domain => seedOf r.key ⟨x.stream, tok, kblock, draw, domain⟩) r.seed (x.ls.map (· % 2 ^ 16))
  let bad := x.ls.any fun l => bitOf l 16
  (⟨if bad then 0 else w, bad⟩, o)

/-- The samples of a step's rows from position T: row i with TOK = T + 1 + i and DRAW = i (R325). -/
def Req.samples (r : Req) (rows : List Logits) : List (PWord × Bool) :=
  ((List.range rows.length).zip rows).map fun e => r.sample e.2 (r.t + 1 + e.1) e.1

/-- One sequence's part of a step ends: drafts verified, tokens emitted, kept rows in the tail (R325); a poisoned token is
held (R517). -/
def State.endSeq (s : State) (slot : Nat) (rows : List Logits) : State × Option SeqEnd :=
  match s.reqAt slot with
  | none => (s, none)
  | some r =>
    match r.step with
    | none => (s, none)
    | some st =>
      let samples := r.samples rows
      let results := samples.map (·.1)
      let s := s.ovfAt (((samples.zip rows).filter (·.1.2)).map fun e => (1, e.2.ltn))
      if st.bad ∨ st.again ∨ rows.length ≠ st.kv.length ∨ s.attns.any (fun a => a.slot == slot && a.out.isNone) then (s, none)
      else
        let feeds := fun (i : Nat) => bitOf r.flags 0 && decide (st.pos + i + 1 < r.nprompt)
        let (kept, es) := verify (results.map (·.v)) feeds 0 st.drafts
        let spoilt := s.attns.any fun a => a.slot == slot && (a.out.getD []).any (·.2)
        if spoilt ∨ (es.any fun e => (nthD ⟨0, false⟩ results e.1).p) = true then
          (s.setReq slot fun x => { x with step := some { st with bad := true, fin := s.time } }, none)
        else
          let next := if feeds (kept - 1) then (r.promptAt (st.pos + kept)).getD 0
            else tokenOf (nthD 0 (results.map (·.v)) (kept - 1))
          let rows := st.kv.take kept
          let t := s.setReq slot fun x => Req.emit { x with
            step := none
            t := st.pos + kept
            last := next
            tail := x.tail ++ rows
            served := x.served + st.kv.length
            holdTo := s.time + 20 * usec } (es.map fun (e : Nat × Nat) => (st.pos + e.1 + 1, e.2))
          ({ t with attns := t.attns.filter fun a => a.slot != slot },
            some ⟨slot, st.pos, st.kv.length, es.map (·.2), rows⟩)

/-- The DELTA of the rows that a step added to a sequence's tail. -/
def State.endDelta (s : State) (c : JobCfg) (x : SeqEnd) : State :=
  match s.reqAt x.slot with
  | none => s
  | some r =>
    s.pairDelta x.slot c.first 0 ([r.t % 2 ^ 32, r.t / 2 ^ 32, r.ns % 2 ^ 32, r.ns / 2 ^ 32, r.tail.length - x.kept.length, 0] ++
      x.kept.flatten)

/-- STEP_END: the logits of the rows of a microbatch whose step ends, by slot (R323, R325, R347, R517, R596). -/
def execStepEnd (results : List (Nat × List Logits)) (s : State) : Out :=
  match s.job with
  | none => .next s
  | some job =>
    let c := job.cfg
    if c.role ≠ 2 ∨ !s.serving then .next s
    else
      let (t, es) := results.foldl (fun (a : State × List SeqEnd) e =>
        let (u, x) := a.1.endSeq e.1 e.2
        (u, a.2 ++ x.toList)) (s, [])
      if es.isEmpty then .next t
      else
        let t := es.foldl (fun (u : State) x => u.endDelta c x) t
        let t := es.foldl (fun (u : State) x => u.sealAll c x.slot 2) t
        let rows := es.flatMap fun x => (List.range x.n).map fun i => (x.slot, x.pos + i)
        .next (t.pairStep rows (es.flatMap (·.toks))
          (es.map fun x => (x.slot, ((t.reqAt x.slot).map fun r => r.tokens.length).getD 0)))

/-- Whether a page that a Prompt module keeps of a sequence holds a poisoned word. -/
def State.pagesBad (s : State) (c : JobCfg) (r : Req) : Bool :=
  r.local_.any fun e => (s.memGetN (e.2.2.2 + 0x100) (pageLen (c.layer e.2.1).fmt / 4)).any (·.p)

/-- The PAGEs of one span of the window to the Generation modules that hold its layers (R326); `gslots` are the sequence's slots
there. -/
def State.sendWindow (s : State) (c : JobCfg) (r : Req) (gslots : List Nat) (span : Nat) (rows : List (List Nat)) : State :=
  (c.spanPages rows).foldl (fun (w : State) (l, g, ws) =>
    match (List.range r.ngen).find? fun i => (nthD (0, 0) c.gens i).1 ≤ l &&
        decide (l < (nthD (0, 0) c.gens i).1 + (nthD (0, 0) c.gens i).2) with
    | none => w
    | some i =>
      let fmt := (c.layer l).fmt
      w.sendPage r 6 (r.gen i) (nthD 0 gslots i) span l g fmt (headsIn c.hkv fmt g) ws) s

/-- PREFILL_CHUNK: a chunk ends (R326, R327). Its complete spans are sealed and, in the window, go to the Generation modules;
after the last chunk the first token, sampled with TOK = P and DRAW 0, and the tail are handed off. A poisoned word of the chunk,
or of a page that its attention reads, holds it. The slots of the sequence on the Generation modules are firmware's, which no
message of the spec carries (log entry 202). -/
def execPrefillChunk (slot : BitVec 8) (logits : Logits) (gslots : List (BitVec 12)) (s : State) : Out :=
  match s.job, s.reqAt slot.toNat with
  | some job, some r =>
    match r.step with
    | none => .next s
    | some st =>
      let c := job.cfg
      let last := r.chunk + st.kv.length == r.nprompt
      let (sample, o) := r.sample logits r.nprompt 0
      let gs := gslots.map (·.toNat)
      if c.role ≠ 1 ∨ st.bad ∨ st.again then .next s
      else if (st.kv.any fun row => row.any fun x => bitOf x 16) ∨ s.pagesBad c r ∨ (last ∧ sample.p) then
        .next (s.setReq r.slot fun x => { x with step := some { st with bad := true, fin := s.time } })
      else
        let t := s.waitTime (s.time + 20 * usec)
        let t := if last && o then t.ovfAt [(1, logits.ltn)] else t
        let t := t.setReq r.slot fun x => { x with step := none, chunk := x.chunk + st.kv.length, served := x.served + st.kv.length }
        let ns := r.nprompt / 64
        let t := (List.range (st.kv.length / 64)).foldl (fun (u : State) i =>
          let span := r.chunk / 64 + i
          let rows := (st.kv.drop (64 * i)).take 64
          match u.seal c r.slot span rows with
          | none => u.endReq r.slot 0x11
          | some v => if ns ≤ span + c.window then v.sendWindow c r gs span rows else v) t
        if !last ∨ (t.reqAt r.slot).isNone then .next t
        else if invalidTok sample.v then .next (t.endReq r.slot 0x12)
        else
          let t := match t.reqAt r.slot with
            | some x => t.dropAllLocal x
            | none => t
          .next ((t.setReq r.slot fun x => { x with
            local_ := []
            tail := st.kv.drop (st.kv.length / 64 * 64)
            hand := some (sample.v, gs) }).sendHandoff r.slot)
  | _, _ => .next s

end Sys2Proof.Machine
end

