-- ==== Sys2Proof/Machine/Placement.lean ====
section
/-! DEFINITION. Placement, substitution of logical tiles, golden copies, variants, re-placement (chapter 12). -/

namespace Sys2Proof.Machine

open Sys2Proof

/-! ### Sites -/

/-- Sets HALT_REQ on the block of a page and waits for RUN 0; an MXA is then at level zero (R128). -/
def State.holdBlk (s : State) (pg : Nat) : State :=
  let t := s.setBlk (blkOf pg) { s.blk (blkOf pg) with haltReq := true, run := false }
  if pgTy pg == tyMXA then
    t.setMxa (siteOfPg pg) { t.mxa (siteOfPg pg) with level := 0, ramp := none, ready := false }
  else t

/-- Sets HALT_REQ on the block of a page; it halts at its safe point. -/
def State.askHalt (s : State) (pg : Nat) : State := s.setBlk (blkOf pg) { s.blk (blkOf pg) with haltReq := true }

/-- Clears HALT_REQ on the block of a page; a router's waits of R250 begin anew. -/
def State.freeBlk (s : State) (pg : Nat) : State :=
  let c := s.blk (blkOf pg)
  let t := s.setBlk (blkOf pg) { c with haltReq := false, run := c.enable && !c.retired }
  if pgTy pg == tyRTR && t.runs pg && !s.runs pg then t.orderRestart (siteOfPg pg) else t

/-- The blocks of a site that a retirement stops (R365 step 1). -/
def engineBlks (site : Nat) : List Nat :=
  [blkId tySEQ site, blkId tyMXA site, blkId tyVXE site, blkId tyDMX (2 * site), blkId tyDMX (2 * site + 1),
   blkId tySYN site, blkId tySPD site]

/-- Records a site as retired; its tile engines show RETIRED and stop (R53, R365). -/
def State.retireSite (s : State) (site : Nat) : State :=
  let t := { s with nv := { s.nv with retired := if s.nv.retired.contains site then s.nv.retired else s.nv.retired ++ [site] } }
  (engineBlks site).foldl (fun (u : State) b => u.setBlk b { u.blk b with retired := true, run := false }) t

/-- Changes the loaded job. -/
def State.mapJob (s : State) (f : Job → Job) : State := { s with job := s.job.map f }

/-- Raises replace-requested when SPARES + IDLE is below 8 (R374). -/
def State.checkSpares (s : State) : State := if s.spareCount < 8 then s.replace causeSpares else s

/-- Strikes a site from every substitution record (R363). -/
def State.strike (s : State) (site : Nat) : State :=
  s.mapJob fun j => { j with
    repair := j.repair ++ ((j.records.filter fun r => r.cands.any fun c => c.site == site).map (·.ltn)).filter
      fun n => !j.repair.contains n
    records := j.records.map fun r => { r with cands := r.cands.filter fun c => c.site != site } }

/-- A spare or idle site goes out of service (R364). -/
def State.dropSite (s : State) (site : Nat) : State := ((s.retireSite site).strike site).checkSpares

/-- A stage, and the sites of its LTNs. -/
def State.stage (s : State) (n : Nat) : Stage := ((s.job.bind fun j => j.place.base.stages[n]?)).getD ⟨[], 0, []⟩
def State.stageSites (s : State) (n : Nat) : List Nat := (s.stage n).ltns.map s.ltnSite

/-- Sets a stage's status. -/
def State.setStage (s : State) (n : Nat) (v : StageSt) : State := s.mapJob fun j => { j with stages := j.stages.set n v }

/-! ### Restore (R360) -/

/-- The bytes' words of one restore entry: copy A, or copy B where A is poisoned; none when both are. -/
def State.restWords (s : State) (e : RestEnt) : Option (List Nat) :=
  (List.range (e.len / 4)).mapM fun i =>
    let a := s.memGet (e.a + 4 * i)
    let b := s.memGet (s.goldB (e.b + 4 * i))
    if !a.p then some a.v else if !b.p then some b.v else none

/-- Copies restore entries into a site's scratchpad; none is WEIGHTS_LOST. -/
def State.restore (s : State) (site : Nat) : List RestEnt → Option State
  | [] => some s
  | e :: l =>
    match s.restWords e with
    | none => none
    | some ws =>
      (((List.range ws.length).zip ws).foldl (fun (t : State) (x : Nat × Nat) =>
        t.spadStore site (e.off / 4 + x.1) ⟨x.2, false⟩) s).restore site l

/-- The weight origins of an LTN up to now are mended: their refetch joins the restore of its substitution (R520, Table 18.5). -/
def State.originsDone (s : State) (ltn : Nat) : State :=
  { s with origins := s.origins.map fun o => if o.ltn == some ltn then { o with done := some (o.done.getD s.time) } else o }

/-- Every tile image, of the base and the variants. -/
def Placement.images (p : Placement) : List TileImg := p.base.tiles ++ p.variants.flatMap fun v => v.2.tiles

/-- The tile image of an LTN. -/
def State.tileImg (s : State) (n : Nat) : Option TileImg := s.job.bind fun j => j.place.base.tiles.find? fun t => t.ltn == n

/-- Installs a sequencer image in a site's instruction memory, zero beyond its length. -/
def State.installImage (s : State) (site : Nat) (ws : List Nat) : State :=
  let t := { s with imem := memSetBytes (memClear s.imem (site * 2 ^ 18) ((site + 1) * 2 ^ 18)) (site * 2 ^ 18) (bytesOf ws) }
  t.setFld (pgSEQ site 0) 0x050 0 1 1

/-- A key as firmware's own records hold it (R365 step 2): KEY of the live request of a slot at its index, SEED at 4096 above,
the attention key of a Cache job at 0. -/
def State.fwKey (s : State) (k : Nat) : Option (List Nat) :=
  if s.role = 3 then (if k = 0 then s.job.map fun j => j.cfg.attnKey else none)
  else if k < 4096 then (s.reqAt k).map Req.key
  else (s.reqAt (k - 4096)).map Req.seed

/-- Makes a site ready for a tile image (R365 step 2): scratchpad initialised, keys bound by the image's plan and for the live
slots, from firmware's records or, where they hold none, as at site `x`; sync objects, sequencer image. -/
def State.prepare (s : State) (img : TileImg) (x y : Nat) : State :=
  let t := if s.flag (pgSPD y 0) 0x048 1 then s else (s.spadFill y false).setFld (pgSPD y 0) 0x048 0 2 2
  let slots := (t.reqs.filter Req.isLive).flatMap fun r => [(r.slot, 0xFF), (4096 + r.slot, 0xFF)]
  let t := (img.keys ++ slots).foldl (fun (u : State) k =>
    u.setKey y k.1 ⟨(u.fwKey k.1).getD (u.key x k.1).words, true, k.2⟩) t
  let t := img.sync.foldl (fun (u : State) o =>
    if h : o.1 < 128 ∧ y < 1296 then (execSobjBind ⟨y, h.2⟩ ⟨o.1, h.1⟩ (BitVec.ofNat 32 o.2) u).stateOr u else u) t
  if img.seqImg.isEmpty then t else t.installImage y img.seqImg

/-! ### The substitution sequence (R365) -/

/-- The first candidate of a record that is available. -/
def State.spareFor (s : State) (ltn : Nat) : Option Cand :=
  match s.job with
  | none => none
  | some j => (j.records.find? fun r => r.ltn == ltn).bind fun r => r.cands.find? fun c =>
    (s.siteClass c.site == .spare || s.siteClass c.site == .idle) && !j.substs.any fun x => x.y.any fun y => y.site == c.site

/-- Every live request of the module ends with a code. -/
def State.endAll (s : State) (code : Nat) : State :=
  (s.reqs.filter Req.isLive).foldl (fun (t : State) r => t.endReq r.slot code) s

/-- WEIGHTS_LOST (R360): the stage stays halted, and live requests end. -/
def State.weightsLost (s : State) (stage : Nat) : State := (s.setStage stage .lost).endAll 0x16

/-- Starts the restore into a candidate, or leaves the stage halted for urgent re-placement (R365 step 2, R368, R372). A
restore with both copies poisoned loses the stage (R360). -/
def State.begin (s : State) (ltn x stage : Nat) (screen : Bool) (cand : Option Cand) : State :=
  let put := fun (t : State) (z : Subst) => t.mapJob fun j => { j with substs := (j.substs.filter fun w => w.ltn != ltn) ++ [z] }
  match cand with
  | none => (put s ⟨ltn, x, none, stage, none, false, false, screen⟩).setStage stage .halted
  | some c =>
    let u := if s.siteClass c.site == .idle then s.ltnOfSite c.site else none
    match s.tileImg ltn with
    | none => s
    | some img =>
      let t := (s.prepare img x c.site).strike c.site
      match t.restore c.site img.rlist with
      | some r => ((put (r.originsDone ltn) ⟨ltn, x, some c, stage, u, true, false, screen⟩).setStage stage .draining).checkSpares
      | none => (put t ⟨ltn, x, some c, stage, u, false, false, screen⟩).weightsLost stage

/-- Steps 1 to 3 of a substitution of LTN n at site X. -/
def State.substitute (s : State) (n x : Nat) (screen : Bool) : State :=
  match s.job.bind fun j => j.records.find? fun r => r.ltn == n with
  | none => s
  | some r =>
    let t := if screen then s else (s.retireSite x).strike x
    let t := (t.stageSites r.stage).foldl (fun (u : State) y => u.askHalt (pgSEQ y 0)) t
    t.begin n x r.stage screen (t.spareFor n)

/-- SUBSTITUTION_TRIGGER (R364, R368): at a site, or of an LTN that an operator names. -/
def execSubstitutionTrigger (byLtn : Bool) (n : BitVec 11) (s : State) : Out :=
  let x := if byLtn then s.ltnSite n.toNat else n.toNat
  if 1296 ≤ x then .next s
  else if s.outOfService x then .next (s.fwRecord fwSubst clsInfo [x])
  else
    match s.job.bind fun j => j.substs.find? fun z => z.y.any (fun c => c.site == x) && !z.switched with
    | some z => let t := s.dropSite x; .next (t.begin z.ltn z.x z.stage z.screen (t.spareFor z.ltn))
    | none =>
      match s.siteClass x with
      | .bound =>
        match s.ltnOfSite x with
        | some l => .next ((s.fwRecord fwSubst clsRetire [x, l]).substitute l x false)
        | none => .next s
      | .out => .next s
      | _ => .next ((s.fwRecord fwSubst clsRetire [x]).dropSite x)

/-- Writes a table entry of a stopped router; slots restart at count 0 (R271). -/
def State.writeEntry (s : State) (e : RouteEnt) : State :=
  let t := { s with rtrTbl := tblSet (fun _ => [0, 0, 0, 0]) s.rtrTbl (tblKey e.site e.sel e.idx) e.ws }
  if e.sel = 0 then (t.setSlotK e.site 0 e.idx 0).setSlotK e.site 2 e.idx 0 else if e.sel = 1 then t.setSlotK e.site 1 e.idx 0 else t

/-- Routers that switch maps: those that forward. -/
def State.liveRouters (s : State) : List Nat := (List.range 1296).filter s.forwards

/-- Every router stages the map with pairs applied and gives its verdict (R264). -/
def State.stageMaps (s : State) (pairs : List (Nat × Nat)) : State :=
  s.liveRouters.foldl (fun (t : State) x =>
    let m := t.map x
    let e := (m.epoch + 1) % 2 ^ 32
    let new := stageMap m.sites t.ltns pairs
    let v := mapVerdictOf m e new (crc32c (mapBytes new))
    ((t.setMap x { m with staged := some (e, new, v), commit := none }).setReg (pgRTR x 1) 0x044 (1 + v * 2)).setReg (pgRTR x 1) 0x048 e) s

/-- A router whose verdict on the staged map is not 0, if any. -/
def State.badVerdict (s : State) : Option Nat := s.liveRouters.find? fun x => (s.map x).staged.any fun m => m.2.2 != 0

/-- Stages a map, once more where a verdict is not 0, and the router whose second verdict is not 0 (Table 12.6). -/
def State.tryMap (s : State) (pairs : List (Nat × Nat)) : State × Option Nat :=
  let t := s.stageMaps pairs
  if t.badVerdict.isNone then (t, none)
  else
    let u := t.stageMaps pairs
    (u, u.badVerdict)

/-- Changes every router's map (R264). -/
def State.changeMap (s : State) (pairs : List (Nat × Nat)) : State :=
  s.liveRouters.foldl State.mapSwitch (s.stageMaps pairs)

/-- Successive maps of at most 16 pairs (R265, R369, R371): fuel, pairs left. -/
def changeMaps : Nat → List (Nat × Nat) → State → State
  | 0, _, s => s
  | _, [], s => s
  | n + 1, ps, s => changeMaps n (ps.drop 16) (s.changeMap (ps.take 16))

/-- The same while every verdict is 0; else the router whose second verdict was not. -/
def tryMaps : Nat → List (Nat × Nat) → State → State × Option Nat
  | 0, _, s => (s, none)
  | _, [], s => (s, none)
  | n + 1, ps, s =>
    match s.tryMap (ps.take 16) with
    | (t, some x) => (t, some x)
    | (t, none) => tryMaps n (ps.drop 16) (t.liveRouters.foldl State.mapSwitch t)

/-- Restarts a stage's contexts at its boundary entry points (R132, R365 step 6). -/
def State.restartStage (s : State) (n : Nat) : State :=
  let t := (s.stageSites n).foldl (fun (u : State) y => u.freeBlk (pgSEQ y 0)) s
  (s.stage n).entries.foldl (fun (u : State) e =>
    let y := u.ltnSite e.1
    let u := (u.stopCtx y e.2.1).setReg (pgSEQ y 0) (0x060 + 4 * e.2.1) e.2.2
    u.startCtx y e.2.1) t

/-- MXA_CFG.FLOW of every tile of a stage, each MXA halted meanwhile. -/
def State.stageFlow (s : State) (n v : Nat) : State :=
  (s.stageSites n).foldl (fun (t : State) y =>
    if (t.blk (blkOf (pgMXA y 0))).retired then t
    else ((t.holdBlk (pgMXA y 0)).setFld (pgMXA y 0) 0x040 0 1 v).freeBlk (pgMXA y 0)) s

/-- A site goes out of service whose router failed a map change (Table 12.6): a bound LTN waits for its place. -/
def State.dropRouter (s : State) (x : Nat) : State :=
  match s.siteClass x, s.ltnOfSite x with
  | .bound, some n => s.substitute n x false
  | .out, _ => s
  | _, _ => s.dropSite x

/-- Whether drain and restore of a stage's substitutions are complete (R365 step 4). -/
def State.switchReady (s : State) (n : Nat) : Bool :=
  match s.job with
  | none => false
  | some j =>
    let zs := j.substs.filter fun z => z.stage == n && !z.switched
    zs.all (fun z => z.restored && z.y.isSome) && !zs.isEmpty && (s.stageSites n).all fun y => !s.runs (pgSEQ y 0)

/-- SUBST_SWITCH (R365 steps 4 to 6): drain and restore of a stage are complete, and of the stages of `others`, which became
ready within 100 µs of it and share its map change (Table 12.6). -/
def execSubstSwitch (stage : BitVec 16) (others : List (BitVec 16)) (s : State) : Out :=
  match s.job with
  | none => .next s
  | some j =>
    let ns := (stage.toNat :: others.map (·.toNat)).dedup.filter s.switchReady
    if !s.switchReady stage.toNat then .next s
    else
      let zs := j.substs.filter fun z => ns.contains z.stage && !z.switched
      let cands := zs.filterMap (·.y)
      let routes := cands.flatMap (·.routes)
      let routers := (routes.map (·.site)).dedup
      let t := routers.foldl (fun (u : State) x => u.holdBlk (pgRTR x 0)) s
      let t := ns.foldl (fun (u : State) n => u.stageFlow n 1) (routes.foldl State.writeEntry t)
      let pairs := zs.flatMap fun z => (z.y.toList.map fun c => (z.ltn, c.site)) ++ (z.unused.toList.map fun u => (u, z.x))
      let (t, bad) := tryMaps (pairs.length + 1) pairs t
      let t := routers.foldl (fun (u : State) x => u.freeBlk (pgRTR x 0)) t
      match bad with
      | some x =>
        let t := ns.foldl (fun (u : State) n => u.setStage n .halted) (t.mapJob fun j => { j with
          substs := j.substs.map fun z => if ns.contains z.stage && !z.switched then { z with y := none, restored := false } else z })
        .next (t.dropRouter x)
      | none =>
        let t := zs.foldl (fun (u : State) z =>
          u.event 0x03 (cborMap [(1, cborUint z.ltn), (2, cborUint z.x), (3, cborUint ((z.y.map (·.site)).getD 0))])) t
        let t := if zs.all (·.screen) then t else
          (cands.flatMap (·.replay)).foldl (fun (u : State) (l, off, ws) =>
            ((List.range ws.length).zip ws).foldl (fun (v : State) (x : Nat × Nat) =>
              v.spadStore (v.ltnSite l) (off / 4 + x.1) ⟨x.2, false⟩) u) t
        let regs := zs.flatMap fun z => regionOf z.x :: (z.y.toList.map fun c => regionOf c.site)
        let t := { t with ctl := { t.ctl with model := t.ctl.model.map fun (g, k, r, e, i, n) => (g, k, r, e, i, if regs.contains r then 0 else n) } }
        let t := t.mapJob fun j => { j with
          substs := j.substs.map fun z => if ns.contains z.stage then { z with switched := true } else z }
        .next (ns.foldl (fun (u : State) n => (u.setStage n .replaying).restartStage n) t)

/-- SUBST_REPLAY_END (R365 step 7). -/
def execSubstReplayEnd (stage : BitVec 16) (s : State) : Out :=
  let n := stage.toNat
  match s.job with
  | none => .next s
  | some j =>
    if j.stages[n]? = some StageSt.replaying then
      .next (((s.stageFlow n 0).setStage n .running).mapJob fun j => { j with substs := j.substs.filter fun z => z.stage != n })
    else .next s

/-! ### Golden copies (R357 to R359) -/

/-- Bytes of one copy of a restore entry; none if a word is poisoned. -/
def copyBytes (ws : List PWord) : Option (List Nat) :=
  if ws.any (·.p) then none else some (bytesOf (ws.map (·.v)))

/-- One restore entry's copies checked; a copy that fails is rewritten from the other. -/
def State.checkCopy (s : State) (ltn : Nat) (e : RestEnt) (h : List Nat) : State :=
  let a := s.memGetN e.a (e.len / 4)
  let b := s.goldGetB e.b (e.len / 4)
  let ok := fun (ws : List PWord) => (copyBytes ws).any fun x => sha256 x == h
  match ok a, ok b with
  | true, true => s
  | true, false => (s.goldSetB e.b a).fwRecord fwGolden clsUnc [ltn, e.off, 1]
  | false, true => (s.memSetP e.a b).fwRecord fwGolden clsUnc [ltn, e.off, 0]
  | false, false => s.fwRecord fwGolden clsUnc [ltn, e.off, 2]

/-- Every golden copy checked. -/
def State.checkGolden (s : State) : State :=
  match s.job with
  | none => s
  | some j => j.place.base.tiles.foldl (fun (t : State) i =>
      (i.rlist.zip i.hashes).foldl (fun (u : State) (e : RestEnt × List Nat) => u.checkCopy i.ltn e.1 e.2) t) s

/-- GOLDEN_CHECK (R359): once in every GOLDEN_HRS hours. -/
def execGoldenCheck (s : State) : Out :=
  match s.job with
  | none => .next s
  | some j =>
    let t := s.waitTime (j.goldenAt + j.cfg.goldenHrs * 3600 * second)
    .next (t.checkGolden.mapJob fun j => { j with goldenAt := t.time })

/-- Whether both of two addresses are backed by subchannels of one facet. -/
def State.sameFacet (s : State) (a b : Nat) : Bool :=
  let n := (s.placeOf a).1
  let m := (s.placeOf b).1
  n < 384 && m < 384 && facetOf (siteOfMc n) == facetOf (siteOfMc m)

/-- The granules of the golden copies: addresses of copies A and B as placed, words. -/
def State.goldGranules (s : State) : List (Nat × Nat × Nat) :=
  match s.job with
  | none => []
  | some j => j.place.base.tiles.flatMap fun i => i.rlist.flatMap fun e =>
      (List.range ((e.len + 255) / 256)).map fun k => (e.a + 256 * k, e.b + 256 * k, min 64 (e.len / 4 - 64 * k))

/-- Granules of copy B that share a facet with copy A are rewritten, in order, at the addresses that firmware takes for them;
an address that is not a granule's, not backed, in that facet or on the channel to be left is passed over (R358). -/
def splitGolden : List (Nat × Nat × Nat) → List Nat → State → State
  | [], _, s => s
  | _, [], s => s
  | g :: l, p :: ps, s =>
    let cur := s.goldB g.2.1
    if s.sameFacet g.1 cur then
      if p % 256 = 0 ∧ g.2.1 % 256 = 0 ∧ (s.placeOf p).1 < 384 ∧ !s.sameFacet g.1 p ∧ (lchOf p).1 ≠ (lchOf cur).1 then
        let t := s.memSetP p (mendWords (s.goldGetB g.2.1 g.2.2) (s.memGetN g.1 g.2.2))
        splitGolden l ps (t.mapJob fun j => { j with moved := (j.moved.filter fun m => m.1 != g.2.1 / 256) ++ [(g.2.1 / 256, p)] })
      else splitGolden l ps s
    else splitGolden l (p :: ps) s

/-- COPY_COMPLETE (R307, R358): the copy ends; golden granules whose copies it put in one facet are rewritten at the addresses
of `place`. -/
def execCopyComplete (mc : Mc) (bad place : List Nat) (s : State) : Out :=
  let t := s.copyComplete mc bad
  .next (if t.mcSt mc.val = stFORWARD ∧ s.mcSt mc.val = stSRC then splitGolden t.goldGranules place t else t)

/-! ### Variants, re-placement, screening (R369 to R375) -/

/-- The initial scratchpad contents of a tile image. -/
def State.initSpad (s : State) (img : TileImg) (site : Nat) : State :=
  img.init.foldl (fun (u : State) (e : Nat × List Nat) =>
    ((List.range e.2.length).zip e.2).foldl (fun (v : State) (x : Nat × Nat) =>
      v.spadStore site (e.1 / 4 + x.1) ⟨x.2, false⟩) u) s

/-- Installs one LTN of a layout: its tile image, and, where its site changes, its restore list; true where a word of it is
poisoned in both copies. -/
def State.placeLtn (s : State) (img : TileImg) (site : Nat) : State × Bool :=
  let old := s.ltnSite img.ltn
  let t := (s.prepare img old site).initSpad img site
  if old = site then (t, false)
  else match t.restore site img.rlist with
    | some u => (u, false)
    | none => (t, true)

/-- VARIANT_SWITCH (R371): every stage is drained, tile images and router tables loaded, the LTNs whose sites change restored,
the map changed, and each stage restarted at its boundary. A restore that fails loses its stage (R360). -/
def execVariantSwitch (facet : Facet) (s : State) : Out :=
  match s.job with
  | none => .next s
  | some j =>
    match j.place.variants.find? fun v => v.1 == facet.val with
    | none => .next s
    | some (_, v) =>
      let t := ((List.range j.place.base.stages.length).flatMap s.stageSites).foldl (fun (u : State) y => u.holdBlk (pgSEQ y 0)) s
      let (t, bad) := v.tiles.foldl (fun (a : State × List Nat) i =>
        let (u, lost) := a.1.placeLtn i (nthD 1296 v.map i.ltn)
        (u, if lost then a.2 ++ [i.ltn] else a.2)) (t, [])
      let routers := (v.tables.map (·.site)).dedup
      let t := routers.foldl (fun (u : State) x => u.holdBlk (pgRTR x 0)) t
      let t := v.tables.foldl State.writeEntry t
      let cur := t.gridMap
      let pairs := ((List.range v.map.length).zip v.map).filter fun p => cur[p.1]? != some p.2
      let t := changeMaps (pairs.length + 1) pairs t
      let t := routers.foldl (fun (u : State) x => u.freeBlk (pgRTR x 0)) t
      let t := t.mapJob fun j => { j with
        variant := some facet.val
        place := { j.place with base := v }
        stages := v.stages.map fun _ => .running
        substs := [] }
      .next ((List.range v.stages.length).foldl (fun (u : State) n =>
        if (u.stage n).ltns.any bad.contains then u.weightsLost n else u.restartStage n) t)

/-- URGENT_REPLACEMENT (R372, R373): the placement found for an LTN that waits for one, or none; for an LTN that lost a
candidate, a new candidate of its record. -/
def execUrgentReplacement (ltn : BitVec 11) (cand : Option Cand) (s : State) : Out :=
  let n := ltn.toNat
  match s.job with
  | none => .next s
  | some j =>
    match j.substs.find? fun z => z.ltn == n && z.y.isNone with
    | some z =>
      match cand with
      | some c => .next (s.begin n z.x z.stage z.screen (some c))
      | none => .next (((s.setStage z.stage .lost).replace causePlacement).endAll 0x17)
    | none =>
      match cand with
      | some c =>
        if j.repair.contains n then
          .next (s.mapJob fun j => { j with
            repair := j.repair.filter (· != n)
            records := j.records.map fun r => if r.ltn == n then { r with cands := (r.cands ++ [c]).take 4 } else r })
        else .next s
      | none => .next s

/-- SCREENING_SWAP (R375): a substitution made at a boundary that firmware chooses, while SPARES + IDLE is above 8. -/
def execScreeningSwap (ltn : BitVec 11) (s : State) : Out :=
  let x := s.ltnSite ltn.toNat
  if 8 < s.spareCount ∧ s.siteClass x = .bound ∧ (s.spareFor ltn.toNat).isSome then .next (s.substitute ltn.toNat x true)
  else .next s

/-- The stub of R360 as a weight refetch or an in-place restart uses it: the ranges of an LTN that meet scratchpad bytes
`lo` up to, not with, `hi`; true where a word is lost in both copies. -/
def State.refetch (s : State) (n lo hi : Nat) : State × Bool :=
  match s.tileImg n with
  | none => (s, false)
  | some img =>
    match s.restore (s.ltnSite n) (img.rlist.filter fun e => e.off < hi && lo < e.off + e.len) with
    | some t => (t, false)
    | none => (s, true)

end Sys2Proof.Machine
end

