-- ==== Sys2Proof/Machine/Optical.lean ====
section
/-! DEFINITION. The optical fabric (chapter 13): training, frames and replay, lanes and lasers, egress, ingress, mailbox. -/

namespace Sys2Proof.Machine

open Sys2Proof

/-! ### A port and its engine -/

def portReset (_ : Nat) : PortSt := PortSt.init

/-- A port beyond its registers. -/
def State.port (s : State) (p : Nat) : PortSt := tblGet portReset s.ports p
def State.setPort (s : State) (p : Nat) (x : PortSt) : State := { s with ports := tblSet portReset s.ports p x }

/-- OPT_STATUS.STATE. -/
def optDOWN : Nat := 0
def optTRAINING : Nat := 1
def optUP : Nat := 2
def optDEGRADED : Nat := 3
def optRETRAIN : Nat := 4

/-- Fields of OPT_STATUS. -/
def State.optState (s : State) (p : Nat) : Nat := s.fld (pgOPT p) 0x044 0 3
def State.optMask (s : State) (p : Nat) : Nat := s.fld (pgOPT p) 0x044 8 8

/-- A state change of a port, with event 0x07 (R560). -/
def State.setOptState (s : State) (p v : Nat) : State :=
  if s.optState p = v then s
  else ((s.setFld (pgOPT p) 0x044 0 3 v).event 0x07 (cborMap [(1, cborUint p), (2, cborUint v)])).pairLinks s.pairPort.isSome

/-- The engine page and half of a port. -/
def optEng (p : Nat) : Nat := pgOEN (engineOfPort p)
def halfOf (p : Nat) : Nat := p % 2

/-- Engine lane that a port lane is mapped to (OPT_LMAP). -/
def State.laneEl (s : State) (p l : Nat) : Nat := s.fld (pgOPT p) (0x058 + 4 * (l / 4)) (8 * (l % 4)) 5
def State.setLmap (s : State) (p l el act : Nat) : State :=
  s.setFld (pgOPT p) (0x058 + 4 * (l / 4)) (8 * (l % 4)) 6 (el + 32 * act)

/-- LSTATE of an engine lane; sets it with its HALF and PLANE. -/
def State.lstate (s : State) (p el : Nat) : Nat := s.fld (optEng p) (0x060 + 4 * el) 0 2
def State.setLane (s : State) (p el st l : Nat) : State :=
  s.setFld (optEng p) (0x060 + 4 * el) 0 6 (st + 4 * halfOf p + 8 * l)
def State.setLstate (s : State) (p el st : Nat) : State := s.setFld (optEng p) (0x060 + 4 * el) 0 2 st

/-- Whether the wavelength of an engine lane is lost. -/
def State.wlLost (s : State) (p el : Nat) : Bool := s.flag (optEng p) 0x044 (8 + el % 4)

/-- Free working spare lanes of an engine. -/
def State.freeSpares (s : State) (p : Nat) : List Nat :=
  [16, 17, 18, 19].filter fun el => s.lstate p el == 0 && !s.wlLost p el

/-- OEN_STATUS.SPARE_USED and SPARE_FREE follow the lanes; an engine with no free spare sets NOSPARE (R402). -/
def State.spareStatus (s : State) (p : Nat) : State :=
  let used := ((List.range 4).filter fun i => s.lstate p (16 + i) == 1).foldl (fun a i => a + 2 ^ i) 0
  let n := (s.freeSpares p).length
  let had := s.fld (optEng p) 0x044 12 3
  let t := (s.setFld (optEng p) 0x044 0 4 used).setFld (optEng p) 0x044 12 3 n
  if (n == 0 && had != 0) || t.injPend (optEng p) 10 then (t.raise (optEng p) 10 clsReplace .none false []).replace causeOptical else t

/-- The spare for a lane (R400): EL 16 + w, else the lowest free. -/
def State.pickSpare (s : State) (p l : Nat) : Option Nat :=
  let fs := s.freeSpares p
  let w := 16 + s.laneEl p l % 4
  if fs.contains w then some w else fs.head?

/-- Frame rate in Gbit/s (R392). -/
def State.setRate (s : State) (p : Nat) : State :=
  let w := s.fld (pgOPT p) 0x044 3 4
  s.setReg (pgOPT p) 0x050 (min (200 * w) (458752000 / (139000 + 98 * s.fld (pgOPT p) 0x048 0 16)))

/-- Active lanes of a port: mask, width, rate and, of a port that is up, UP or DEGRADED. -/
def State.setMask (s : State) (p m : Nat) : State :=
  let w := ((List.range 8).filter fun l => bitOf m l).length
  let t := ((s.setFld (pgOPT p) 0x044 8 8 m).setFld (pgOPT p) 0x044 3 4 w).setRate p
  if t.portUp p then t.setOptState p (if w = 8 then optUP else optDEGRADED) else t

/-! ### Frames (Tables 13.3 and 13.4) -/

/-- FTYPE codes. -/
def ftIDLE : Nat := 0
def ftDATA : Nat := 1
def ftNAK : Nat := 2
def ftCTRL : Nat := 3

/-- A frame as words: header, payload, poison bits, CRC. -/
def frameWords (ty : Nat) (f : Frame) (ack cvc ccount : Nat) : List Nat :=
  let h := ty + f.vc * 2 ^ 4 + b2n f.som * 2 ^ 6 + b2n f.eom * 2 ^ 7 + f.seq % 2 ^ 20 * 2 ^ 8 + ack % 2 ^ 20 * 2 ^ 28 +
    cvc * 2 ^ 48 + ccount % 2 ^ 10 * 2 ^ 50
  let ws := (f.words ++ List.replicate 64 (PWord.mk 0 false)).take 64
  let pois := ((List.range 64).zip ws).foldl (fun a (e : Nat × PWord) => a + b2n e.2.p * 2 ^ e.1) 0
  let body := wordsN 2 h ++ ws.map (·.v) ++ wordsN 2 pois
  body ++ [crc32c (bytesOf body), 0]

/-- ACK of a port: the last sequence number received in order. -/
def PortSt.ack (x : PortSt) : Nat := (x.rxNext + 2 ^ 20 - 1) % 2 ^ 20

/-- Whether the lasers of a port's engine emit (R382). -/
def State.lit (s : State) (p : Nat) : Bool := s.enabled (optEng p) && s.fld pgPWR 0x068 0 2 != 0

/-- Sends one frame, with acknowledgement and the next credit return (R387, R390); a halting port returns no credit (R403), and a
dark engine sends nothing. -/
def State.sendFrame (s : State) (p ty : Nat) (f : Frame) : State :=
  if !s.lit p then s else
  let x := s.port p
  let x := if s.halting (pgOPT p) then x else { x with shown := x.shown.set x.nextCvc (nthD 0 x.rxFreed x.nextCvc) }
  let name := if ty = ftDATA then "DATA" else if ty = ftNAK then "NAK" else if ty = ftCTRL then "CTRL" else "IDLE"
  (s.setPort p { x with nextCvc := (x.nextCvc + 1) % 4 }).send (.optical p) name
    (frameWords ty f x.ack x.nextCvc (nthD 0 x.shown x.nextCvc))

/-- An IDLE frame: it carries the acknowledgement and a credit where no DATA frame does. -/
def State.sendIdle (s : State) (p : Nat) : State := s.sendFrame p ftIDLE ⟨0, false, false, 0, [], 0⟩

/-- A CTRL frame: code and arguments from its first payload bytes. -/
def State.sendCtrl (s : State) (p code : Nat) (args : List (Nat × Nat × Nat)) : State :=
  s.sendFrame p ftCTRL ⟨0, false, false, 0, (layout 64 ((0, 1, code) :: args)).map fun w => PWord.mk w false, 0⟩

/-- A port's own discovery record (Table 13.2). -/
def State.sendDiscovery (s : State) (p : Nat) : State :=
  s.sendCtrl p 1 [(1, 8, s.modid), (9, 1, p), (10, 1, s.fld (pgOPT p) 0x080 8 8), (11, 1, s.fld (pgOPT p) 0x080 16 8),
    (12, 1, s.optMask p), (13, 8, s.reg64 (pgOPT p) 0x084)]

/-- Receive buffers of a VC in frames (R390). -/
def vcFrames (vc : Nat) : Nat := if vc = 0 then 128 else 640

/-- First transmissions that credits and the replay window allow: fuel (R388 to R390). -/
def pump : Nat → State → Nat → State
  | 0, s, _ => s
  | n + 1, s, p =>
    let x := s.port p
    if !s.portUp p || s.optMask p == 0 || 2048 ≤ x.unacked.length then s
    else match x.waiting.find? fun f => decide (nthD 0 x.sent f.vc < nthD 0 x.freed f.vc + vcFrames f.vc) with
      | none => s
      | some f =>
        let g := { f with seq := x.txSeq, resent := 0 }
        let t := s.setPort p { x with
          waiting := dropFirst (fun (y : Frame) => y.vc == f.vc) x.waiting
          unacked := x.unacked ++ [g]
          sent := x.sent.set f.vc (nthD 0 x.sent f.vc + 1)
          txSeq := (x.txSeq + 1) % 2 ^ 20
          progress := if x.unacked.isEmpty then s.time else x.progress }
        pump n ((t.sendFrame p ftDATA g).bump (pgOPT p) 0x0A0 1) p

/-- Sends what can be sent. -/
def State.pumpPort (s : State) (p : Nat) : State := pump ((s.port p).waiting.length + 1) s p

/-- A message enters the transmit queue as frames of its VC, its header filled by the port (R393); JOBOK and the port's state
may discard it (R386, R391). -/
def State.queueMsg (s : State) (p vc : Nat) (words : List PWord) : State :=
  if !s.portUp p ∧ s.optState p ≠ optRETRAIN then s.bump (pgOPT p) 0x0C0 1
  else if (vc != 0 && !s.jobOk p) || s.injPend (pgOPT p) 12 then s.dropMsg p 12
  else
    let hw := [⟨s.modid % 2 ^ 32, false⟩, ⟨s.modid / 2 ^ 32, false⟩, ⟨p, false⟩]
    let ws := words.take 2 ++ hw ++ words.drop 5
    let n := (ws.length + 63) / 64
    let x := s.port p
    let fs : List Frame := (List.range n).map fun i =>
      ⟨vc, i == 0, i + 1 == n, 0, ((ws.drop (64 * i)).take 64 ++ List.replicate 64 (PWord.mk 0 false)).take 64, 0⟩
    (s.setPort p { x with waiting := x.waiting ++ fs }).pumpPort p

/-! ### Going down, retraining -/

/-- Frames of a VC up to its last complete message. -/
def completeFrames (fs : List Frame) : List Frame :=
  (List.range 4).flatMap fun v =>
    let mine := fs.filter fun f => f.vc == v
    mine.take (mine.length - (mine.reverse.takeWhile fun f => !f.eom).length)

/-- A port goes DOWN (R391): its frames sent or waiting to be sent go, and partial messages received (log entry 207). -/
def State.portDown (s : State) (p reason : Nat) : State :=
  let x := s.port p
  let t := s.setPort p { x with
    unacked := []
    waiting := []
    since := s.time
    rx := completeFrames x.rx
    parts := []
    moves := []
    echo := [] }
  let t := ((t.setFld (pgOPT p) 0x044 3 4 0).setFld (pgOPT p) 0x044 8 8 0).setFld (pgOPT p) 0x044 16 4 reason
  (t.setOptState p optDOWN).raise (pgOPT p) 11 clsUnc .unc false []

/-- A port retrains (R389): moves are abandoned (Table 13.7). -/
def State.retrainPort (s : State) (p : Nat) : State :=
  (s.setPort p { s.port p with moves := [], echo := [], since := s.time }).setOptState p optRETRAIN

/-- Width too small for a port with no spare to take (R400). -/
def State.narrow (s : State) (p : Nat) : State :=
  let w := s.fld (pgOPT p) 0x044 3 4
  let t := s.raise (pgOPT p) 10 clsUnc .unc false []
  if !s.flag (pgOPT p) 0x040 9 || w < s.fld (pgOPT p) 0x040 16 3 + 1 then t.portDown p 4 else t

/-! ### Lanes (R399, R400) -/

/-- Chooses a spare for a retired lane and starts the move, or runs narrower. -/
def State.startMove (s : State) (p l : Nat) : State :=
  if s.flag (pgOPT p) 0x040 8 then
    match s.pickSpare p l with
    | some el =>
      if s.injPend (pgOPT p) 10 then s.narrow p else
      let x := s.port p
      let t := (s.setLane p el 1 l).setPort p { x with moves := (x.moves.filter fun m => m.lane != l) ++ [⟨l, el, false, true⟩] }
      (t.spareStatus p).sendCtrl p 3 [(1, 1, l), (2, 1, el)]
    | none => s.narrow p
  else s.narrow p

/-- A lane stops carrying frames and its engine lane is retired, in both directions (R378, R399). -/
def State.stopLane (s : State) (p l : Nat) : State :=
  let el := s.laneEl p l
  let t := (s.setLstate p el 2).setLmap p l el 0
  ((t.setMask p (t.optMask p - (if bitOf (t.optMask p) l then 2 ^ l else 0))).spareStatus p).raise (pgOPT p) 9 clsRetire .corr false [l, el]

/-- A lane is retired and replaced (R399). -/
def State.retireLane (s : State) (p l : Nat) : State :=
  if bitOf (s.optMask p) l then (s.stopLane p l).startMove p l else s

/-! ### PORT_TRAINING, TRAINING_RETRY, PORT_UP, DISCOVERY, ECHO -/

/-- Training starts (R383). -/
def State.trainPort (s : State) (p : Nat) : State :=
  let x := s.port p
  ((s.setPort p { x with echo := [], moves := [], since := s.time }).setFld (pgOPT p) 0x044 16 4 0).setOptState p optTRAINING

/-- PORT_TRAINING: ENABLE is set (R383). -/
def execPortTraining (port : Port) (s : State) : Out :=
  let b := blkOf (pgOPT port.val)
  let c := s.blk b
  if c.retired then .next s
  else .next ((s.setBlk b { c with enable := true, run := !c.haltReq }).trainPort port.val)

/-- TRAINING_RETRY: no partner answered for 1 s (R383); a port that went DOWN trains again, unless by its length (R384; log
entry 206). -/
def execTrainingRetry (port : Port) (s : State) : Out :=
  let p := port.val
  let t := s.waitTime ((s.port p).since + second)
  if s.optState p = optTRAINING then .next ((t.trainPort p).setFld (pgOPT p) 0x044 16 4 1)
  else if s.optState p = optDOWN ∧ s.enabled (pgOPT p) ∧ s.fld (pgOPT p) 0x044 16 4 ≠ 2 then .next (t.trainPort p)
  else .next s

/-- Sorts round trips. -/
def insertNat (a : Nat) : List Nat → List Nat
  | [] => [a]
  | b :: l => if a ≤ b then a :: b :: l else b :: insertNat a l

def sortNat (l : List Nat) : List Nat := l.foldr insertNat []

/-- The port's fixed delay in ns (R392). -/
def fixedDelay : Nat := 1390

/-- ECHO (R384): a request is answered; a return ends one of 64 exchanges, whose request went out `trip` before, and the last
sets round trip and length. `trip` and `hold` are in units of device time. -/
def execEcho (port : Port) (request : Bool) (trip hold : Nat) (s : State) : Out :=
  let p := port.val
  if request then .next (s.sendCtrl p 2 [(21, 4, hold)])
  else if s.optState p = optTRAINING ∨ s.optState p = optRETRAIN then
    let x := s.port p
    let l := x.echo ++ [trip - hold]
    let t := (s.sendCtrl p 2 []).setPort p { (s.sendCtrl p 2 []).port p with echo := l }
    if l.length = 64 then
      let o := sortNat l
      let rtt := (nthD 0 o 31 + nthD 0 o 32) / 32
      let range := (rtt - fixedDelay) * 100 / 98
      let t := (t.setReg (pgOPT p) 0x04C (min rtt (2 ^ 20 - 1))).setReg (pgOPT p) 0x048 (min range (2 ^ 16 - 1))
      .next (if 20000 < range then t.portDown p 2 else t)
    else .next t
  else .next s

/-- JOBOK: both ends advertise the same JOBHASH, not 0 (R385). -/
def State.refreshJobOk (s : State) (p : Nat) : State :=
  let a := s.reg64 (pgOPT p) 0x084
  s.setFld (pgOPT p) 0x044 7 1 (b2n (a != 0 && a == s.reg64 (pgOPT p) 0x070))

/-- DISCOVERY (R385): the partner's record of Table 13.2, as words. -/
def execDiscovery (port : Port) (rec : List Nat) (s : State) : Out :=
  let p := port.val
  let t := s.setReg64 (pgOPT p) 0x060 (pfield rec 0 8)
  let t := t.setReg (pgOPT p) 0x068 (pfield rec 8 4)
  .next ((t.setReg64 (pgOPT p) 0x070 (pfield rec 12 8)).refreshJobOk p)

/-- PORT_UP (R383): the lanes good at both ends and, of the spare lanes, those that passed their test; a port lane that is
not good takes a spare. -/
def execPortUp (port : Port) (good : BitVec 8) (spareOk : BitVec 4) (s : State) : Out :=
  let p := port.val
  let st := s.optState p
  let x := s.port p
  if (st = optTRAINING ∨ st = optRETRAIN) ∧ x.echo.length = 64 ∧ s.enabled (optEng p) then
    let s := [16, 17, 18, 19].foldl (fun (t : State) el =>
      if t.lstate p el = 0 && !bitOf spareOk.toNat (el - 16) then t.setLstate p el 3 else t) s
    let (m, t) := (List.range 8).foldl (fun (a : Nat × State) l =>
      let (m, t) := a
      let el := t.laneEl p l
      let ok := bitOf good.toNat l && (t.lstate p el == 1) && !t.wlLost p el
      if ok then (m + 2 ^ l, (t.setLane p el 1 l).setLmap p l el 1)
      else
        let t := if t.lstate p el = 1 then (t.setLstate p el 2).raise (pgOPT p) 9 clsRetire .corr false [l, el] else t
        match (if t.flag (pgOPT p) 0x040 8 then t.pickSpare p l else none) with
        | some sp => (m + 2 ^ l, (t.setLane p sp 1 l).setLmap p l sp 1)
        | none => (m, t.setLmap p l el 0)) (0, s)
    let fresh : PortSt := { PortSt.init with mbxTx := x.mbxTx, mbxRx := x.mbxRx, rx := x.rx, ing := x.ing, egr := x.egr }
    let y : PortSt := if st = optTRAINING then fresh else { x with
      unacked := x.unacked.map fun f => { f with resent := 0 }
      progress := s.time
      moves := [] }
    let t := (t.setPort p y).spareStatus p
    let t := ((t.setFld (pgOPT p) 0x044 16 4 0).setOptState p optDEGRADED).setMask p m
    let t := if t.fld (pgOPT p) 0x044 3 4 < 8 then t.narrow p else t
    .next (if t.portUp p then (t.sendDiscovery p).pumpPort p else t)
  else .next s

/-! ### Receiving -/

/-- The site of an ingress or egress channel's half, and the outward port of an optical-edge site. -/
def siteOfHalf (p h : Nat) : Nat := leftSiteOfPort p + h
def outwardOf (p : Nat) : Nat := if p < 16 then 0 else 2

/-- The ingress channel of a DCHAN, if its entry is valid: site, RID, FLITS. -/
def State.ingChan (s : State) (p c : Nat) : Option (Nat × Nat × Nat) :=
  let v := s.reg (pgOPT p) (0x280 + 4 * c)
  if c < 32 ∧ bitOf v 0 ∧ v < 2 ^ 19 then some (siteOfHalf p (bitsOf v 1 1), bitsOf v 2 9, bitsOf v 11 8 + 1) else none

/-- Gives ingress transfers to the grid in order, per VC, while their site's input has room; frames are freed with them. -/
def giveIngress (p : Nat) : List (Nat × Nat × Xfer × Nat) → List Nat → State → List (Nat × Nat × Xfer × Nat) × State
  | [], _, s => ([], s)
  | (v, site, x, k) :: l, stuck, s =>
    let d := outwardOf p
    if !stuck.contains v && s.forwards site && s.portRoom site d x.flits then
      let t := s.setBuf site d (s.buf site d ++ [x])
      let y := t.port p
      giveIngress p l stuck (t.setPort p { y with rxFreed := y.rxFreed.set v (nthD 0 y.rxFreed v + k) })
    else
      let (r, t) := giveIngress p l (stuck ++ [v]) s
      ((v, site, x, k) :: r, t)

/-- Ingress transfers of a port move into the grid. -/
def State.moveIngress (s : State) (p : Nat) : State :=
  let (r, t) := giveIngress p (s.port p).ing [] s
  t.setPort p { t.port p with ing := r }

/-- Cuts words into transfers of a channel: words of a transfer, words held; a message's last transfer is padded. -/
def cutTransfers (rid n : Nat) (done : Bool) : Nat → List PWord → List Xfer × List PWord
  | 0, ws => ([], ws)
  | k + 1, ws =>
    let mk := fun (l : List PWord) => (Xfer.mk 0 0 0 rid ((l ++ List.replicate n (PWord.mk 0 false)).take n) false 0)
    if n ≤ ws.length then
      let (xs, r) := cutTransfers rid n done k (ws.drop n)
      (mk (ws.take n) :: xs, r)
    else if done && !ws.isEmpty then ([mk ws], [])
    else ([], ws)

/-- Takes one received frame of a VC into its message (R397, R398). -/
def State.takeFrame (s : State) (p : Nat) (f : Frame) : State :=
  let x := s.port p
  let v := f.vc
  let len := pfield (f.words.map (·.v)) 4 3
  let total := if v = 0 then 16 + (len + 3) / 4 else 16 * (1 + (len + 63) / 64)
  let dch := pfield (f.words.map (·.v)) 2 2
  let (part, s) : RxPart × State :=
    if f.som then
      if v = 0 then (⟨none, total, []⟩, s)
      else if !s.jobOk p || s.injPend (pgOPT p) 12 then (⟨none, total, []⟩, s.dropMsg p 12)
      else if (s.ingChan p dch).isSome && !s.injPend (pgOPT p) 13 then (⟨some dch, total, []⟩, s)
      else (⟨none, total, []⟩, s.dropMsg p 13)
    else (((x.parts.find? fun e => e.1 == v).map (·.2)).getD ⟨none, 0, []⟩, s)
  let new := f.words.take part.left
  let held := part.words ++ new
  let left := part.left - new.length
  let rest := x.parts.filter fun e => e.1 != v
  let y := s.port p
  let freed := { y with rxFreed := y.rxFreed.set v (nthD 0 y.rxFreed v + 1) }
  let s := s.bump (pgOPT p) 0x0A8 1
  if v = 0 then
    if f.eom then
      let long := decide (1024 < held.length) || s.injPend (pgOPT p) 14
      let u := s.setPort p { freed with parts := rest, mbxRx := if long then freed.mbxRx else freed.mbxRx ++ [held.map (·.v)] }
      if long then u.dropMsg p 14 else u
    else s.setPort p { freed with parts := rest ++ [(v, ⟨none, left, held.take 1025⟩)] }
  else match part.chan.bind fun c => (s.ingChan p c).map fun e => (c, e) with
    | none => s.setPort p { freed with parts := if f.eom then rest else rest ++ [(v, ⟨none, left, []⟩)] }
    | some (c, site, rid, fl) =>
      let (xs, r) := cutTransfers rid (16 * fl) f.eom 70 held
      let keep := if f.eom then rest else rest ++ [(v, ⟨some c, left, r⟩)]
      if xs.isEmpty then s.setPort p { freed with parts := keep }
      else
        let tagged := ((List.range xs.length).zip xs).map fun e => (v, site, e.2, if e.1 + 1 = xs.length then 1 else 0)
        s.setPort p { y with parts := keep, ing := y.ing ++ tagged }

/-- Delivers received frames in order within each VC (R394): fuel. A VC waits for its ingress transfers, a full mailbox, and
at a message boundary while HALT_REQ is 1 (R403). -/
def deliver : Nat → State → Nat → State
  | 0, s, _ => s
  | n + 1, s, p =>
    let t := s.moveIngress p
    let x := t.port p
    match x.rx.find? fun f =>
        !x.ing.any (fun e => e.1 == f.vc) && !(f.vc == 0 && decide (16 ≤ x.mbxRx.length)) && !(f.som && t.halting (pgOPT p)) &&
          (x.rx.find? fun g => g.vc == f.vc) == some f with
    | none => t
    | some f => deliver n ((t.setPort p { x with rx := dropFirst (fun (y : Frame) => y.vc == f.vc) x.rx }).takeFrame p f) p

/-- MBX_RX_STATUS and MBX_TX_STATUS follow the queues. -/
def State.mbxStatus (s : State) (p : Nat) : State :=
  let x := s.port p
  (s.setReg (pgOPT p) 0x318 (x.mbxRx.length + (x.mbxRx.head?.map List.length).getD 0 * 2 ^ 5)).setReg (pgOPT p) 0x308
    (min x.mbxTx.length (2 ^ 11 - 1))

/-- Everything that can be delivered is. -/
def State.deliverPort (s : State) (p : Nat) : State := (deliver ((s.port p).rx.length + 1) s p).mbxStatus p

/-- What every good frame brings (R387): frames acknowledged leave the replay buffer, credits return. -/
def State.takeAck (s : State) (p ack cvc ccount : Nat) : State :=
  let x := s.port p
  let done := fun (f : Frame) => (ack + 2 ^ 20 - f.seq) % 2 ^ 20 < 2 ^ 19
  let left := x.unacked.filter fun f => !done f
  let old := nthD 0 x.freed cvc
  let y := { x with
    unacked := left
    progress := if left.length < x.unacked.length then s.time else x.progress
    freed := x.freed.set cvc (old + (ccount + 1024 - old % 1024) % 1024) }
  (s.setPort p y).pumpPort p

/-- Counts an uncorrectable codeword on a lane; more than UCW_THR within 1 s retires it (R399). -/
def State.codeword (s : State) (p l : Nat) : State :=
  let x := s.port p
  let mine := (x.ucw.filter fun e => s.time < e.2 + second) ++ [(l, s.time)]
  let t := (s.setPort p { x with ucw := mine }).bump (pgOPT p) 0x0B8 1
  if s.fld (pgOPT p) 0x040 0 8 < (mine.filter fun e => e.1 == l).length || s.injPend (pgOPT p) 9 then t.retireLane p l else t

/-- A frame whose CRC fails: REPLAY, NAK (R388). -/
def State.badFrame (s : State) (p : Nat) (inj : Bool) (ucw : Option Nat) : State :=
  let t := s.raise (pgOPT p) 8 clsCorr .corr inj []
  let t := match ucw with
    | some l => t.codeword p (l % 8)
    | none => t
  if t.portUp p then t.sendFrame p ftNAK ⟨0, false, false, 0, [], 0⟩ else t

/-- DATA_FRAME (R388): its fields of Table 13.4, payload, whether its CRC holds, the lane of an uncorrectable codeword. Every
SEQ that is not ACK + 1 brings a NAK, an older one too; one taken in order is acknowledged by the next frame that goes out. -/
def execDataFrame (port : Port) (f : Frame) (ack : BitVec 20) (cvc : Fin 4) (ccount : BitVec 10) (crcOk : Bool)
    (ucw : Option (Fin 8)) (s : State) : Out :=
  let p := port.val
  if !s.portUp p then .next s
  else
    let (inj, s) := s.injected (pgOPT p) 8
    if inj || !crcOk then .next (s.badFrame p inj (ucw.map Fin.val))
    else
      let t := s.takeAck p ack.toNat cvc.val ccount.toNat
      let x := t.port p
      if f.seq = x.rxNext then
        .next (((t.setPort p { x with rxNext := (x.rxNext + 1) % 2 ^ 20, rx := x.rx ++ [{ f with vc := f.vc % 4 }] }).deliverPort p).sendIdle p)
      else .next (t.sendFrame p ftNAK ⟨0, false, false, 0, [], 0⟩)

/-- IDLE_FRAME (R387). -/
def execIdleFrame (port : Port) (ack : BitVec 20) (cvc : Fin 4) (ccount : BitVec 10) (crcOk : Bool) (s : State) : Out :=
  let p := port.val
  if !s.portUp p then .next s
  else
    let (inj, s) := s.injected (pgOPT p) 8
    if inj || !crcOk then .next (s.badFrame p inj none)
    else .next ((s.takeAck p ack.toNat cvc.val ccount.toNat).deliverPort p)

/-- Every unacknowledged frame is resent in order; one resent 16 times retrains the port (R388, R389). -/
def State.resend (s : State) (p : Nat) : State :=
  let x := s.port p
  if x.unacked.isEmpty then s
  else
    let fs := x.unacked.map fun f => { f with resent := f.resent + 1 }
    let t := (s.setPort p { x with unacked := fs, progress := s.time }).bump (pgOPT p) 0x0B0 fs.length
    let t := t.raise (pgOPT p) 8 clsCorr .corr false []
    let t := fs.foldl (fun (u : State) f => u.sendFrame p ftDATA f) t
    if fs.any fun f => 16 ≤ f.resent then t.retrainPort p else t

/-- NAK (R388). -/
def execNak (port : Port) (ack : BitVec 20) (cvc : Fin 4) (ccount : BitVec 10) (s : State) : Out :=
  let p := port.val
  if s.portUp p then .next ((s.takeAck p ack.toNat cvc.val ccount.toNat).resend p) else .next s

/-- REPLAY_TIMEOUT (R388): no progress of ACK for 2 × RTT + 10 µs. -/
def execReplayTimeout (port : Port) (s : State) : Out :=
  let p := port.val
  let x := s.port p
  if s.portUp p && !x.unacked.isEmpty then
    .next ((s.waitTime (x.progress + 2 * 16 * s.fld (pgOPT p) 0x04C 0 20 + 10 * usec)).resend p)
  else .next s

/-- RETRAIN_TIMEOUT (R389): MIN_WIDTH lanes are not restored within 10 ms. -/
def execRetrainTimeout (port : Port) (s : State) : Out :=
  let p := port.val
  if s.optState p = optRETRAIN then .next ((s.waitTime ((s.port p).since + 10 * msec)).portDown p 3) else .next s

/-! ### Lane commands, lasers -/

/-- LANE_MOVE from the partner (R399, Table 13.7). -/
def execLaneMove (port : Port) (lane : Fin 8) (el : Fin 20) (s : State) : Out :=
  let p := port.val
  let l := lane.val
  let x := s.port p
  if !s.portUp p then .next s
  else if x.moves.any (fun m => m.lane == l && m.mine) && decide (s.modid < s.reg64 (pgOPT p) 0x060) then .next s
  else
    let t := x.moves.foldl (fun (u : State) m => if m.lane = l && m.mine then u.setLstate p m.el 0 else u) s
    let t := if bitOf (t.optMask p) l then t.stopLane p l else t
    let y := t.port p
    let t := (t.setLane p el.val 1 l).setPort p { y with moves := (y.moves.filter fun m => m.lane != l) ++ [⟨l, el.val, true, false⟩] }
    .next ((t.spareStatus p).sendCtrl p 5 [(1, 1, l)])

/-- LANE_ACK (R399). -/
def execLaneAck (port : Port) (lane : Fin 8) (s : State) : Out :=
  let p := port.val
  let x := s.port p
  .next (s.setPort p { x with moves := x.moves.map fun m => if m.lane == lane.val then { m with acked := true } else m })

/-- LANE_ON (R399): sent or received once the spare's test has passed; a spare that fails is dark and the next is chosen. -/
def execLaneOn (port : Port) (lane : Fin 8) (received pass : Bool) (s : State) : Out :=
  let p := port.val
  let l := lane.val
  let x := s.port p
  match x.moves.find? fun m => m.lane == l && m.acked with
  | none => .next s
  | some m =>
    let t := s.setPort p { x with moves := x.moves.filter fun y => y.lane != l }
    if pass && !t.wlLost p m.el then
      let t := ((t.setLane p m.el 1 l).setLmap p l m.el 1)
      let t := (t.setMask p (t.optMask p + (if bitOf (t.optMask p) l then 0 else 2 ^ l))).spareStatus p
      .next (if received then t else t.sendCtrl p 4 [(1, 1, l)])
    else
      let t := (t.setLstate p m.el 3).spareStatus p
      .next (if m.mine then t.startMove p l else t)

/-- RETIRE_LANE (R399). -/
def execRetireLane (port : Port) (lane : Fin 8) (s : State) : Out := .next (s.retireLane port.val lane.val)

/-- LASER_SWITCH (R401): the active laser of a wavelength is worn; `ok` is whether the spare works, `reading` the bias and
output of the laser then active (OEN_LASER_w). -/
def execLaserSwitch (engine : Engine) (w : Fin 4) (ok : Bool) (reading : Word) (s : State) : Out :=
  let e := engine.val
  let pg := pgOEN e
  if !s.flag pg 0x040 8 || s.flag pg 0x044 (8 + w.val) then .next s
  else
    let s := s.setReg pg (0x050 + 4 * w.val) reading.toNat
    if ok && !s.flag pg 0x044 (4 + w.val) && !s.injPend pg 9 then
      .next ((s.setFld pg 0x044 (4 + w.val) 1 1).raise pg 8 clsCorr .corr false [w.val])
    else
      let t := (s.setFld pg 0x044 (8 + w.val) 1 1).raise pg 9 clsUnc .unc false [w.val]
      let t := if t.lstate (2 * e) (16 + w.val) = 0 then t.setLstate (2 * e) (16 + w.val) 2 else t
      let t := t.spareStatus (2 * e)
      .next ([2 * e, 2 * e + 1].foldl (fun (u : State) p => (List.range 8).foldl (fun (v : State) l =>
        if v.laneEl p l % 4 = w.val then v.retireLane p l else v) u) t)

/-- OPT_ADV (R385): a write of OPT_ADV_INFO (0), or the low (1) or high (2) word of OPT_ADV_JOB. -/
def State.optAdv (s : State) (p which v : Nat) : State :=
  let t := if which = 0 then s.setReg (pgOPT p) 0x080 (bitsOf v 8 16 * 2 ^ 8)
    else s.setReg (pgOPT p) (if which = 1 then 0x084 else 0x088) v
  if s.optState p = optDOWN then t.refreshJobOk p else (t.refreshJobOk p).sendDiscovery p

def execOptAdv (port : Port) (which : Fin 3) (value : Word) (s : State) : Out := .next (s.optAdv port.val which.val value.toNat)

/-! ### Egress and mailbox (R395, R396, R398) -/

/-- Whether a message header is well formed: DCHAN below 32, reserved bytes 0. -/
def headerOk (ws : List Nat) : Bool :=
  decide (pfield ws 2 2 < 32) && pfield ws 7 1 == 0 && pfield ws 0x11 47 == 0

/-- EGRESS_TRANSFER (R395, R396): the oldest transfer at a site of a port reaches its channel. -/
def execEgressTransfer (port : Port) (half : Fin 2) (s : State) : Out :=
  let p := port.val
  let site := siteOfHalf p half.val
  match s.buf site 6 with
  | [] => .next s
  | x :: l =>
    let c := x.rid
    let y := s.port p
    let open_ := y.egr.find? fun e => e.1 == c
    if s.halting (pgOPT p) && open_.isNone then .next s
    else
      let t := s.setBuf site 6 l
      let v := t.reg (pgOPT p) (0x200 + 4 * c)
      let ok := decide (c < 32) && bitOf v 0 && decide (v < 16) && bitsOf v 1 2 != 0 && bitsOf v 3 1 == half.val
      if !ok || s.injPend (pgOPT p) 13 then .next (t.dropMsg p 13)
      else
        let (head, left, ws) : List PWord × Nat × List PWord := match open_ with
          | some (_, m) => (m.words, m.left, x.words)
          | none => (x.words.take 16, (pfield (x.words.map (·.v)) 4 3 + 63) / 64, x.words.drop 16)
        if open_.isNone && !headerOk (head.map (·.v)) then .next (t.dropMsg p 13)
        else
          let new := ws.take (16 * left)
          let left := left - new.length / 16
          let rest := y.egr.filter fun e => e.1 != c
          if left = 0 then .next ((t.setPort p { y with egr := rest }).queueMsg p (bitsOf v 1 2) (head ++ new))
          else .next (t.setPort p { y with egr := rest ++ [(c, ⟨left, head ++ new⟩)] })

/-- MBX_TX_DATA (R398). -/
def execMbxTxData (port : Port) (value : Word) (s : State) : Out :=
  let p := port.val
  let x := s.port p
  .next ((s.setPort p { x with mbxTx := x.mbxTx ++ [value.toNat] }).mbxStatus p)

/-- SEND (R398). -/
def execSend (port : Port) (s : State) : Out :=
  let p := port.val
  let x := s.port p
  if s.halting (pgOPT p) then .next s
  else
    let len := pfield x.mbxTx 4 4
    let t := s.setPort p { x with mbxTx := [] }
    let ok := !s.injPend (pgOPT p) 14 && decide (16 ≤ x.mbxTx.length) && x.mbxTx.length == 16 + (len + 3) / 4 && decide (x.mbxTx.length ≤ 1024)
    .next ((if ok then t.queueMsg p 0 (x.mbxTx.map fun w => PWord.mk w false) else t.dropMsg p 14).mbxStatus p)

/-- FLUSH (R398). -/
def execFlush (port : Port) (s : State) : Out :=
  .next ((s.setPort port.val { s.port port.val with mbxTx := [] }).mbxStatus port.val)

/-- MBX_RX_READ (R398): the next word of the head message is read and passed. -/
def execMbxRxRead (port : Port) (s : State) : Out :=
  let p := port.val
  let x := s.port p
  match x.mbxRx with
  | (w :: l) :: r => .next (((s.setPort p { x with mbxRx := l :: r }).setReg (pgOPT p) 0x310 w).mbxStatus p)
  | _ => .next (s.setReg (pgOPT p) 0x310 0)

/-- MBX_POP (R398): the head message is dropped; a message that waited on VC 0 may enter. -/
def execMbxPop (port : Port) (s : State) : Out :=
  let p := port.val
  let x := s.port p
  .next ((s.setPort p { x with mbxRx := x.mbxRx.drop 1 }).deliverPort p)

end Sys2Proof.Machine
end

