-- ==== Sys2Proof/Machine/PowerOps.lean ====
section
/-! DEFINITION. Operations that clocks, power delivery and the power budget share: step changes asked for by the controller,
rail targets, region states, local skip levels, throttle reasons, losses of regions and facets (chapters 14 to 16, R522,
R523). -/

namespace Sys2Proof.Machine

open Sys2Proof

/-! ### Regions -/

/-- Sites of a region; regions of a facet. -/
def sitesOf (r : Nat) : List Nat := (List.range 1296).filter fun x => regionOf x == r
def regionsOf (f : Nat) : List Nat := (List.range 72).filter fun r => r / 6 == f

/-- FTRIM_n in mV and SBIN_n (Table 20.3). -/
def State.ftrim (s : State) (r : Nat) : Int := 5 * sext 5 (bitsOf (s.fuse (0x020 + r / 4)).v (8 * (r % 4)) 5)
def State.sbin (s : State) (r : Nat) : Nat := bitsOf (s.fuse (0x020 + r / 4)).v (8 * (r % 4) + 5) 3

/-- VSTEP in mV (Table 15.3). -/
def vstep (step : Nat) : Int :=
  match step with
  | 0 => 780
  | 1 => 760
  | 2 => 740
  | 3 => 720
  | 4 => 700
  | 5 => 660
  | 6 => 620
  | _ => 580

/-- TRIM of a region in mV: its own in REGION mode, in FUNCTION mode the largest of any region not LOST (R434). -/
def State.trim (s : State) (r : Nat) : Int :=
  if s.flag (pgPRG r) 0x040 0 then s.ftrim r
  else (((List.range 72).filter fun x => s.region x != 5).map s.ftrim).foldl max (-80)

/-- The VLOG target of R434 before it is clamped. -/
def State.vlogRaw (s : State) (r step : Nat) : Int := vstep step + s.trim r + 5 * sext 5 (s.fld (pgPRG r) 0x044 0 5)

/-- Moves a region's VLOG to its target for a step: PRG_VTGT, VCLAMP, the time to settle at 10 mV per µs (R434, R435). -/
def State.setVlog (s : State) (r step : Nat) : State :=
  let v := s.vlogRaw r step
  let w := (max 500 (min 850 v)).toNat
  let old := s.fld (pgPRG r) 0x050 0 10
  let d := (w - old) + (old - w)
  let t := (s.setFld (pgPRG r) 0x050 0 10 w).setFld (pgPRG r) 0x050 20 5 ((s.ftrim r / 5) % 32).toNat
  let t := t.setRgn r { t.rgn r with settleAt := t.time + (d - 5) * usec / 10 }
  t.raiseIf (pgPRG r) 14 clsInfo .none (v != w) []

/-- Regions whose VLOG is at its target: ON. -/
def State.powered (s : State) : List Nat := (List.range 72).filter fun r => s.region r == 2

/-- Every powered region's target for a step. -/
def State.setTargets (s : State) (step : Nat) : State := s.powered.foldl (fun (t : State) r => t.setVlog r step) s

/-- STATE and RESULT of a region. -/
def State.setRegion (s : State) (r v : Nat) : State :=
  let varr := if v = 0 || v = 5 then 0 else if v = 1 then 600 else 750
  let t := (s.setFld (pgPRG r) 0x04C 0 3 v).setFld (pgPRG r) 0x050 10 10 varr
  if v = 0 || v = 1 || v = 5 then t.setFld (pgPRG r) 0x050 0 10 0 else t
def State.setResult (s : State) (r v : Nat) : State := s.setFld (pgPRG r) 0x04C 4 4 v

/-- RESULT codes. -/
def resDONE : Nat := 1
def resHEADROOM : Nat := 2
def resBUSY : Nat := 3
def resLOST : Nat := 4
def resTRIP : Nat := 5
def resPHASES : Nat := 6
def resCLOCK : Nat := 7
def resDISABLED : Nat := 8
def resINVALID : Nat := 9

/-- RUN of a PRG page follows its state (R453). -/
def State.prgRun (s : State) (r : Nat) : State :=
  let b := blkOf (pgPRG r)
  let c := s.blk b
  s.setBlk b { c with run := c.enable && !c.haltReq && s.region r != 5 }

/-- What a router keeps of its pages through a RESET and a wake from RETAIN: the map's words, and per link the spares in use and
the last wire retired (R270, R437). -/
def keepRouter : List (Nat × Nat × Nat × Nat) :=
  [(1, 0x040, 0, 32), (1, 0x044, 0, 32), (1, 0x048, 0, 32), (1, 0x058, 0, 32), (1, 0x05C, 0, 32)] ++
    (List.range 4).flatMap fun p => [(2, 0x040 + 16 * p, 8, 4), (2, 0x044 + 16 * p, 0, 32)]

/-- What a site's tile loses when VLOG goes: registers, threads, engines, sync objects, replay caches (R437). The state on
VARR stays: scratchpad with INIT_DONE, instruction memory with VALID, keys, router tables and maps, wire steering. The router
goes on with its order lists as it was (R22, R438); its pages return to their reset values with the wake. -/
def State.loseLogic (s : State) (site : Nat) : State :=
  let keep : Nat → List (Nat × Nat × Nat × Nat) := fun b =>
    if b = blkId tySPD site then [(0, 0x048, 0, 32)] else if b = blkId tySEQ site then [(0, 0x050, 0, 32)] else []
  let blks := (tileBlks site).filter fun b => b != blkId tyRTR site
  let t := blks.foldl (fun (u : State) b => u.resetCommon b (keep b)) s
  let t := blks.foldl (fun (u : State) b => u.setBlk b { u.blk b with enable := false, run := false }) t
  let t := t.setFld (pgSPD site 0) 0x048 0 1 0
  let t := t.setTile site { Tile.init with spd := { Spd.init with base := (t.spd site).base }, onSince := t.cyc site }
  { t with sync := tblDelRange t.sync (site * 128) (site * 128 + 128) }

/-- What a site loses besides when VARR goes: scratchpad, instruction memory, keys, tables, maps, wire steering (R437, R214). -/
def State.loseArrays (s : State) (site : Nat) : State :=
  let t := (s.spadFill site true).setFld (pgSPD site 0) 0x048 1 1 0
  let t : State := { t with
    imem := memClear t.imem (site * 2 ^ 18) ((site + 1) * 2 ^ 18)
    keys := tblDelRange t.keys (site * 8192) ((site + 1) * 8192)
    rtrTbl := tblDelRange t.rtrTbl (site * 8192) ((site + 1) * 8192)
    slotCtr := tblDelRange t.slotCtr (site * 8192) ((site + 1) * 8192)
    order := tblDelRange t.order (site * 8) ((site + 1) * 8)
    inbuf := tblDelRange t.inbuf (site * 8) ((site + 1) * 8)
    chanMaps := tblDelRange t.chanMaps site (site + 1)
    maps := tblDelRange t.maps site (site + 1) }
  let t := (List.range 4).foldl (fun (u : State) d => u.setLink site d { u.link site d with retired := [], steer := [] }) t
  let t := (t.resetCommon (blkId tyRTR site) []).setBlk (blkId tyRTR site) { t.blk (blkId tyRTR site) with
    enable := false
    haltReq := false
    run := false
    resetPend := false
    disabling := false
    commitAt := none }
  t.setFld (pgSEQ site 0) 0x050 0 1 0

/-- A region is ON: the router's pages are at their reset values but for what VARR kept, with ENABLE at 0 (R437). -/
def State.wakeRouter (s : State) (site : Nat) : State :=
  let b := blkId tyRTR site
  let t := s.resetCommon b keepRouter
  (t.setBlk b { t.blk b with enable := false, run := false }).setTile site { t.tile site with onSince := t.cyc site }

/-- A region leaves ON: its tiles' logic is lost. -/
def State.gateLogic (s : State) (r : Nat) : State := (sitesOf r).foldl State.loseLogic s

/-- A region goes to OFF from any state; a running request ends with `res`. -/
def State.regionOff (s : State) (r : Nat) : State :=
  let t := if s.region r = 2 ∨ s.region r = 3 ∨ s.region r = 4 then s.gateLogic r else s
  let t := ((sitesOf r).foldl State.loseArrays t).setRegion r 0
  t.setRgn r { t.rgn r with pend := none, trans := none, opened := false }

/-! ### Step changes (R409 to R412) -/

/-- RESULT of TIM_STEP_STATUS. -/
def State.stepResult (s : State) (v : Nat) : State := s.setFld pgTIM 0x05C 8 4 v

def stepDONE : Nat := 1
def stepLATE : Nat := 2
def stepBUSY : Nat := 3
def stepSUPPLY : Nat := 4
def stepCANCELLED : Nat := 5
def stepPREEMPTED : Nat := 6

/-- Shows a pending change: PSTEP, PENDING, SOURCE. -/
def State.showPend (s : State) : State :=
  match s.stepPend with
  | none => s.setFld pgTIM 0x05C 3 5 0
  | some p => s.setFld pgTIM 0x05C 3 5 (p.target + 8 + 16 * b2n p.ctrl)

/-- Removes a pending change with a result, in every facet; voltages already raised come back. -/
def State.dropStep (s : State) (res : Nat) : State :=
  match s.stepPend with
  | none => s
  | some p =>
    let t := (({ s with stepPend := none } : State).showPend).stepResult res
    let t := p.done.foldl (fun (u : State) f => u.setFld (pgCLK f) 0x044 2 3 p.old) t
    if p.raised then t.setTargets t.step else t

/-- Device time of the last switch. -/
def State.lastSwitch (s : State) : Nat := s.reg64 pgTIM 0x060

/-- The controller asks for a change to a slower step for a reason (R412, R460). -/
def State.ctrlStep (s : State) (target reason : Nat) : State :=
  let t0 := max (s.time + 50 * usec) (s.lastSwitch + 50 * usec)
  let s := s.setFld pgPWR 0x054 20 3 (max target (s.fld pgPWR 0x054 20 3))
  match s.stepPend with
  | none => ({ s with stepPend := some ⟨target, t0, true, [reason], false, [], s.step⟩ } : State).showPend
  | some p =>
    if p.target < s.step then
      let t := s.dropStep stepPREEMPTED
      ({ t with stepPend := some ⟨target, t0, true, [reason], false, [], t.step⟩ } : State).showPend
    else
      ({ s with stepPend := some { p with
        target := max p.target target
        t := max p.t t0
        ctrl := true
        reasons := p.reasons ++ [reason] } } : State).showPend

/-- A down-step of one step, never below 7, and none while a change is pending that already lowers (R460, R474). -/
def State.downStep (s : State) (reason : Nat) : State := if s.step < 7 then s.ctrlStep (s.step + 1) reason else s

/-! ### Skip levels (R459, R462, R471) -/

/-- G; SKIP_DN. -/
def State.gLevel (s : State) : Nat := s.fld pgPWR 0x054 14 4
def State.skipDn (s : State) : Nat := max 1 (s.fld pgPWR 0x040 4 4)

/-- L of a region. -/
def State.lskip (s : State) (r : Nat) : Nat := s.fld pgPWR (0x080 + 4 * (r / 8)) (4 * (r % 8)) 4

/-- The tiles of a region start to move to max(G, L). -/
def State.refreshSkip (s : State) (r : Nat) : State :=
  let x := s.rgn r
  let k := min 15 (max s.gLevel (s.lskip r))
  if x.skipTo = k then s else s.setRgn r { x with skipFrom := x.level s.time, skipTo := k, skipSince := s.time }

/-- Sets L of a region, and since when a thermal or droop cause has held it at SKIP_DN or more (R474, Table 16.1). -/
def State.setLskip (s : State) (r v : Nat) : State :=
  let t := s.setFld pgPWR (0x080 + 4 * (r / 8)) (4 * (r % 8)) 4 (min 15 v)
  let x := t.rgn r
  let high := t.skipDn ≤ min 15 v
  let since := fun (c : Nat) (old : Option Nat) =>
    if high ∧ x.causes.any (fun e => e.1 == c) then some (old.getD t.time) else none
  (t.setRgn r { x with hotSince := since 2 x.hotSince, droopSince := since 4 x.droopSince }).refreshSkip r

/-- Sets G. -/
def State.setG (s : State) (v : Nat) : State :=
  (List.range 72).foldl (fun (t : State) r => t.refreshSkip r) (s.setFld pgPWR 0x054 14 4 (min 15 v))

/-- Whether the controller acts (R480). -/
def State.ctrlActs (s : State) : Bool := s.enabled pgPWR && !s.halting pgPWR

/-- LOCAL_EN and the page let local skip levels move. -/
def State.localActs (s : State) : Bool := s.ctrlActs && s.flag pgPWR 0x040 2

/-- Every L is 0 and nothing holds one (R471, R480). -/
def State.clearLocal (s : State) : State :=
  (List.range 72).foldl (fun (t : State) r => (t.setRgn r { t.rgn r with causes := [] }).setLskip r 0) s

/-- A cause (reason code) raises L of a region by `n` (Table 16.1). -/
def State.raiseL (s : State) (r n cause : Nat) : State :=
  if s.localActs then
    let x := s.rgn r
    let t := s.setRgn r { x with causes := (x.causes.filter fun e => e.1 != cause) ++ [(cause, s.time)] }
    t.setLskip r (t.lskip r + n)
  else s

/-- A cause that already holds L of a region is still there. -/
def State.keepCause (s : State) (r cause : Nat) : State :=
  let x := s.rgn r
  s.setRgn r { x with causes := x.causes.map fun e => if e.1 == cause then (cause, s.time) else e }

/-! ### Throttle reasons (Table 16.2) -/

/-- Whether a step was lowered for a reason and not raised since (R479), or such a change is pending. -/
def State.stepReason (s : State) (c : Nat) : Bool :=
  s.ctl.lowered.any (fun m => bitOf m (c - 1)) || s.stepPend.any fun p => p.ctrl && p.reasons.contains c

/-- The input lies outside 44 V to 58 V as last measured (R472). -/
def State.inputOut (s : State) : Bool :=
  let v := s.fld pgPWR 0x064 0 16
  v != 0 && (decide (v < 44000) || decide (58000 < v))

/-- Whether any region's L is held by a cause. -/
def State.heldBy (s : State) (c : Nat) : Bool := s.regions.any fun e => e.2.causes.any fun x => x.1 == c

/-- Whether a domain runs on one converter (R473). -/
def State.domainSingle (s : State) : Bool := [0, 2, 4].any fun i => s.fld pgPWR 0x068 i 2 != 3

/-- Reasons active now. -/
def State.reasonOn (s : State) (c : Nat) : Bool :=
  match c with
  | 1 => s.gLevel != 0 || s.stepReason 1
  | 2 => s.heldBy 2 || s.stepReason 2 || (s.ctl.lastDn != 0 && decide (s.time < s.ctl.lastDn + 10 * msec))
  | 3 => s.heldBy 3
  | 4 => s.heldBy 4 || s.stepReason 4
  | 5 => s.flag pgPWR 0x05C 4
  | 6 => s.inputOut || s.ctl.supRule
  | 7 => s.heldBy 7 || s.domainSingle
  | 8 => s.flag pgPWR 0x05C 7
  | 9 => s.flag pgPWR 0x05C 8
  | _ => false

/-- Reasons as the mask of PWR_REASONS. -/
def State.reasonMask (s : State) : Nat :=
  ((List.range 9).filter fun i => s.reasonOn (i + 1)).foldl (fun a i => a + 2 ^ i) 0

/-- Counts the microseconds since the last count for the reasons shown, then shows the reasons active now, with event 0x0A
for each that becomes active (R478, R560). -/
def State.countReasons (s : State) : State :=
  let us := (s.time - s.ctl.counted) / usec
  let old := s.reg pgPWR 0x058
  let t := ((List.range 9).filter fun i => bitOf old i).foldl (fun (u : State) i => u.bump pgPWR (0x100 + 8 * i) us) s
  let new := t.reasonMask
  let t := { t with ctl := { t.ctl with
    counted := t.ctl.counted + us * usec
    lastActive := ((List.range 9).filter fun i => bitOf old i || bitOf new i).foldl
      (fun (l : List (Nat × Nat)) i => (l.filter fun (e : Nat × Nat) => e.1 != i + 1) ++ [(i + 1, t.time)]) t.ctl.lastActive } }
  let t := t.setReg pgPWR 0x058 new
  ((List.range 9).filter fun i => bitOf new i && !bitOf old i).foldl (fun (u : State) i =>
    u.event 0x0A (cborMap [(1, cborUint (i + 1))])) t

/-- The step whose targets are in force: a pending up-step's once they are raised (R411). -/
def State.targetStep (s : State) : Nat :=
  match s.stepPend with
  | some p => if p.raised then p.target else s.step
  | none => s.step

/-- The targets of regions in FUNCTION mode follow the largest FTRIM of the regions not LOST (R434). -/
def State.retrim (s : State) : State :=
  (s.powered.filter fun r => !s.flag (pgPRG r) 0x040 0).foldl (fun (t : State) r =>
    if t.fld (pgPRG r) 0x050 0 10 = (max 500 (min 850 (t.vlogRaw r t.targetStep))).toNat then t else t.setVlog r t.targetStep) s

/-! ### The end of a job (R523, R591) -/

/-- The sequences of a Cache module end with an end code. -/
def State.endBinds (s : State) (code : Nat) : State :=
  let t := (s.binds.filter fun (b : Bind) => b.opened).foldl (fun (u : State) b =>
    u.queueReceipt ⟨(u.job.bind fun j => u.openSlot j.cfg b.seq).getD 0, intervalOf u.time, b.reqid, b.seq, outcomeOf code, if 2 ≤ code then some code else none,
      (0, 0, b.served), b.energy, b.start, u.taiPair u.time, b.epoch, b.firstIv, b.rflags ||| u.rcptFlags,
      max b.taiErr (u.reg pgTIM 0x098), u.role, u.rcptMode, u.jobHash⟩) s
  { t with binds := t.binds.filter fun (b : Bind) => !b.opened, heldQ := [], closes := [] }

/-- No JOBHASH, role or flags are advertised. -/
def State.withdraw (s : State) : State :=
  (List.range 32).foldl (fun (t : State) p => ((t.optAdv p 1 0).optAdv p 2 0).optAdv p 0 0) s

/-- The job ends: its requests and sequences end with a code, nothing is advertised, and the module has no role. -/
def State.endJob (s : State) (code : Nat) : State :=
  let t := ((s.withdraw.endAll code).endBinds code)
  let t : State := { t with
    job := none
    msgs := []
    attns := []
    pages := []
    chunks := []
    ctl := { t.ctl with model := [], deferAdm := false } }
  (t.pairEnter).event 0x08 (cborMap [(1, cborUint 0)])

/-! ### Losses (R369, R448, R522, R523) -/

/-- Gives the logical channel of a lost subchannel to a spare of another facet, every burst poisoned, or leaves it
unbacked. -/
def State.rehome (s : State) (n : Nat) : State :=
  let f := facetOf (siteOfMc n)
  let lch := s.mcLch n
  let st := s.mcSt n
  if st == stDST then s.dstFails n else
  let t := s.mcRetired n
  if lch = 0x1FF ∨ !(st == stACTIVE || st == stSRC) then t
  else
    match (t.mcsIn stSPARE).find? fun m => facetOf (siteOfMc m) != f with
    | some m => ((t.blankDram m).setMcSt m stACTIVE).setMcLch m lch |>.castUpdate lch 0x1FF m
    | none => t.castUpdate lch 0x1FF 0x1FF

/-- Unbacked logical channels: those that no subchannel serves. -/
def State.unbacked (s : State) : List Nat :=
  (List.range 376).filter fun l => s.holderOf l == 0x1FF

/-- Rewrites golden words whose other copy was lost (R523). -/
def State.rebuildGolden (s : State) : State :=
  match s.job with
  | none => s
  | some j => j.place.images.foldl (fun (t : State) i => i.rlist.foldl (fun (u : State) e =>
      let n := e.len / 4
      let a := u.memGetN e.a n
      let b := u.goldGetB e.b n
      let u := if a.any (·.p) then u.memSetP e.a (mendWords a b) else u
      if b.any (·.p) then u.goldSetB e.b (mendWords b a) else u) t) s

/-- Subchannels and optical ports of lost sites, and the requests whose data lay there: `used` says that per-sequence data lay on
a lost site (R522, R523). -/
def State.loseEdges (s : State) (sites : List Nat) (used : Bool) : State :=
  let mcs := (List.range 384).filter fun n => sites.contains (siteOfMc n) && s.mcSt n != stDISABLED && s.mcSt n != stRETIRED
  let lchs := mcs.map s.mcLch
  let order := ((List.range 512).flatMap fun l => mcs.filter fun n => s.mcLch n == l)
  let t := (order.foldl State.rehome s).spareFell s
  let ports := (List.range 32).filter fun p => (sitesOfPort p).any sites.contains && s.optState p != optDOWN
  let t := ports.foldl (fun (u : State) p => u.portDown p 0) t
  let hit := fun (a : Nat) => lchs.contains (lchOf a).1 && (lchOf a).1 != 0x1FF
  let t := (t.reqs.filter Req.isLive).foldl (fun (u : State) r =>
    if used || r.local_.any (fun e => hit e.2.2.2) then u.endReq r.slot 0x12 else u) t
  let failing := match s.job with
    | some j => if j.cfg.role = 3 then ((List.range cacheSlots).filter fun n =>
        (used || (s.seqPages j.cfg n).any hit) && (s.seqEnt j.cfg n).st != 0).map fun n => (s.seqEnt j.cfg n).seq else []
    | none => []
  let t : State := { t with binds := t.binds.map fun (b : Bind) => { b with failed := b.failed || failing.contains b.seq } }
  let t := if mcs.isEmpty then t else t.rebuildGolden
  if t.unbacked.isEmpty || mcs.isEmpty then t
  else
    let t := t.replace causeMemory
    if t.job.any fun j => j.cfg.inter then t.endJob 0x12 else t

/-- Sites go out of service with a region or facet: LTNs are substituted one by one where the placement allows it, and wait
for a variant or re-placement otherwise (R369). -/
def State.loseSites (s : State) (sites : List Nat) (substOk : Bool) : State :=
  let used := sites.filter fun x => s.siteClass x == .bound
  let ltns := used.filterMap fun x => (s.ltnOfSite x).map fun n => (n, x)
  let t := sites.foldl (fun (u : State) x => (u.retireSite x).strike x) s
  let t := ltns.foldl (fun (u : State) (n, x) =>
    if substOk then u.substitute n x false
    else match u.job.bind fun j => j.records.find? fun r => r.ltn == n with
      | some r => ((u.stageSites r.stage).foldl (fun (w : State) y => w.askHalt (pgSEQ y 0)) u).begin n x r.stage false none
      | none => u) t
  t.loseEdges sites (!substOk && !used.isEmpty)

/-- A region becomes LOST (R447, R448): it is isolated, recorded in the always-on domain and reported; a request or
transition under way ends with `res`. The loss of a facet's last region is the loss of the facet (Table 18.3). -/
def State.regionDead (s : State) (r res : Nat) : State :=
  if s.region r == 5 then s
  else
    let busy := (s.rgn r).trans.isSome || (s.rgn r).pend.isSome
    let t := ((s.regionOff r).setRegion r 5).retrim
    let t := if busy then t.setResult r res else t
    let t := (t.setFld (pgPRG r) 0x04C 3 1 0).prgRun r
    let t := { t with nv := { t.nv with lost := if t.nv.lost.contains r then t.nv.lost else t.nv.lost ++ [r] } }
    let (inj, t) : Bool × State := t.injected (pgPRG r) 10
    let t := (t.raise (pgPRG r) 10 clsUnc .unc inj []).replace causeRegion
    let lost := (List.range 4).filter fun i => regionOf (nthD 0 corners i) == r && t.flag pgSVC 0x048 (10 + i)
    let t := lost.foldl (fun (u : State) i => (u.setFld pgSVC 0x048 (10 + i) 1 0).replace causeCorner) t
    if (regionsOf (r / 6)).all fun x => t.region x == 5 then t.replace causeFacet else t

/-- A region becomes LOST and its sites go out of service (R447, R448, R369). -/
def State.regionLost (s : State) (r res : Nat) : State :=
  if s.region r == 5 then s
  else (s.regionDead r res).loseSites (sitesOf r) (bitOf ((s.job.map fun j => j.place.substOk).getD 0) r)

/-- A facet is lost: it is dark, or has no bus (R428, R449). -/
def State.facetLost (s : State) (f : Nat) : State :=
  (s.replace causeFacet).loseSites ((regionsOf f).flatMap sitesOf) false

end Sys2Proof.Machine
end

