-- ==== Sys2Proof/Machine/Clocks.lean ====
section
/-! DEFINITION. Clocks, step changes, stretching, device time, the reference, IEEE 1588 timestamps (chapter 14). -/

namespace Sys2Proof.Machine

open Sys2Proof

/-! ### Step changes -/

/-- GO (R409); while a change of the controller is pending it is BUSY whatever T (R412). -/
def execGo (s : State) : Out :=
  let t0 := s.reg64 pgTIM 0x050
  let target := s.fld pgTIM 0x048 0 3
  if s.stepPend.any (·.ctrl) then .next (s.stepResult stepBUSY)
  else if t0 < s.time + 50 * usec ∨ (s.lastSwitch ≠ 0 ∧ t0 < s.lastSwitch + 50 * usec) then .next (s.stepResult stepLATE)
  else if s.stepPend.isSome then .next (s.stepResult stepBUSY)
  else if target = s.step then .next (s.stepResult 0)
  else .next (({ s with stepPend := some ⟨target, t0, false, [], false, [], s.step⟩ } : State).showPend)

/-- STEP_CANCEL (R412). -/
def execStepCancel (s : State) : Out :=
  match s.stepPend with
  | none => .next s
  | some p => if s.time + 40 * usec < p.t then .next (s.dropStep stepCANCELLED) else .next s

/-- STEP_VOLTAGE_RAISE (R411): at T − 40 µs. -/
def execStepVoltageRaise (s : State) : Out :=
  match s.stepPend with
  | none => .next s
  | some p =>
    if p.target < s.step ∧ !p.raised then
      let t := s.waitTime (p.t - 40 * usec)
      .next (({ t with stepPend := some { p with raised := true } } : State).setTargets p.target)
    else .next s

/-- STEP_SETTLE_CHECK (R411): at T − 2 µs; `late` names regions whose regulator has not reported settled. -/
def execStepSettleCheck (late : List (Fin 72)) (s : State) : Out :=
  match s.stepPend with
  | none => .next s
  | some p =>
    if p.target < s.step ∧ p.raised then
      let t := s.waitTime (p.t - 2 * usec)
      let (hit, inj, t) := t.arises pgTIM 9
        (t.powered.any fun r => decide (t.time < (t.rgn r).settleAt) || late.any fun x => x.val == r)
      if hit then .next ((t.dropStep stepSUPPLY).raise pgTIM 9 clsInfo .none inj []) else .next t
    else .next s

/-- Facets whose generator takes part in a step change: running, not dark (R408). -/
def State.liveFacets (s : State) : List Nat := (List.range 12).filter fun f => (s.facet f).running && !s.flag (pgCLK f) 0x044 6

/-- The bookkeeping of a completed switch: CUR, RESULT, TIM_LAST_SW, the reasons of lowered steps (R479), pacing. -/
def State.switched (s : State) (p : StepPend) : State :=
  let t := ({ s with stepPend := none } : State).showPend
  let t := ((t.setFld pgTIM 0x05C 0 3 p.target).stepResult stepDONE).setReg64 pgTIM 0x060 s.time
  let mask := p.reasons.foldl (fun a c => a ||| 2 ^ (c - 1)) 0
  let low := if p.old < p.target then t.ctl.lowered ++ List.replicate (p.target - p.old) mask
    else t.ctl.lowered.take (t.ctl.lowered.length - (p.old - p.target))
  let t := { t with ctl := { t.ctl with lowered := low, dnSince := none } }
  if p.target < p.old then t.setFld pgPWR 0x054 20 3 0 else t

/-- Whether an up-step finds a region that is not settled when the first facet would switch (R411). -/
def State.unsettled (s : State) (p : StepPend) : Bool :=
  decide (p.target < s.step) && p.done.isEmpty && s.powered.any fun r => decide (p.t < (s.rgn r).settleAt + 2 * usec)

/-- STEP_SWITCH (R410): a facet switches at the first edge at or after T; an up-step with a region not settled by T − 2 µs has
been cancelled by then (R411). -/
def execStepSwitch (facet : Facet) (s : State) : Out :=
  let f := facet.val
  match s.stepPend with
  | none => .next s
  | some p =>
    if !s.liveFacets.contains f || p.done.contains f || (decide (p.target < s.step) && !p.raised) then .next s
    else if s.unsettled p then .next (((s.waitTime (p.t - 2 * usec)).dropStep stepSUPPLY).raise pgTIM 9 clsInfo .none false [])
    else
      let t := s.waitTime p.t
      let t := (t.setFld (pgCLK f) 0x044 2 3 p.target).setFacet f { t.facet f with phase := 0 }
      let q := { p with done := p.done ++ [f] }
      if t.liveFacets.all q.done.contains then .next (t.switched q) else .next { t with stepPend := some q }

/-- STEP_VOLTAGE_LOWER (R411): from T + 1 µs after a down-step the targets are those of the current step. -/
def execStepVoltageLower (s : State) : Out :=
  if s.stepPend.any (·.raised) then .next s
  else
    let t := s.waitTime (s.lastSwitch + usec)
    .next (t.setTargets t.step)

/-! ### Stretching (R414 to R419) -/

/-- One withheld edge moves σ of every running seam link of the facet; READY falls where the FIFO keeps 5 entries (R418). -/
def State.slip (s : State) (f : Nat) : State :=
  s.links.foldl (fun (t : State) e =>
    let site := e.1 / 4
    let dir := e.1 % 4
    let l := e.2
    match neighbour site dir with
    | none => t
    | some n =>
      if l.running && isSeam site dir && (facetOf site == f || facetOf n == f) then
        let up : Int := l.sigma + 1
        let full := decide (3 < up)
        let sg : Int := if facetOf site = f then (if full then 3 else up) else l.sigma - 1
        let k := seamIdx site dir
        let pg := pgCLK (facetOf site)
        let occ := 2 + (max (0 : Int) sg).toNat
        let t := t.setLink site dir { l with sigma := sg }
        let t := t.setFld pg (0x104 + 8 * k) 2 4 (max occ (t.fld pg (0x104 + 8 * k) 2 4))
        if facetOf site = f && full then t.setFld pg (0x104 + 8 * k) 6 1 1 else t
      else t) s

/-- The generator withholds one edge: a period of wall time passes with no cycle, and INC is added once more (R414, R424). -/
def State.withhold (s : State) (f w : Nat) : State :=
  let t := s.elapse ((16000 + stepMHz (s.facetStep f) - 1) / stepMHz (s.facetStep f))
  let c := t.facet f
  (t.setFacet f { c with
    cycles := c.cycles - 1
    stretches := c.stretches + 1
    msStretches := c.msStretches + 1
    lastWithheld := some w }).slip f

/-- DROOP_EVENT (R414): counted; the next edge is withheld, or the one 4 periods after the last; events inside are merged. -/
def execDroopEvent (site : Site) (s : State) : Out :=
  let st := site.val
  let f := facetOf st
  let t := if s.siteOn st then s.bump (pgTEL st 1) 0x050 1 else s
  let c := t.facet f
  if !c.running || !t.flag (pgCLK f) 0x040 0 || !s.siteOn st then .next t
  else
    let p := c.cycles + c.stretches
    match c.lastWithheld with
    | none => .next (t.withhold f p)
    | some w => if w + 4 ≤ p then .next (t.withhold f p) else if w ≤ p then .next (t.withhold f (w + 4)) else .next t

/-- STRETCH_RATE_CHECK (R416): at each 1 ms; the report to the controller raises L of the facet's regions, and a region at
SKIP_DN for 3 ms asks for a down-step (Table 16.1). -/
def execStretchRateCheck (facet : Facet) (s : State) : Out :=
  let f := facet.val
  let t := s.waitTime (nextMs (s.facet f).msAt)
  let c := t.facet f
  let t := (t.setFacet f { c with msStretches := 0, msAt := t.time }).setReg (pgCLK f) 0x060 (min c.msStretches (2 ^ 32 - 1))
  let (hit, inj, t) := t.arises (pgCLK f) 11 (decide (t.fld (pgCLK f) 0x040 8 8 * 1024 < c.msStretches))
  if hit then
    let t := t.raise (pgCLK f) 11 clsInfo .none inj []
    let t := (regionsOf f).foldl (fun (u : State) r => u.raiseL r 1 4) t
    let long := (regionsOf f).any fun r => (t.rgn r).droopSince.any fun d => decide (d + 3 * msec ≤ t.time)
    .next (if long && t.ctrlActs then t.downStep 4 else t)
  else .next t

/-- TAP_MOVE (R422): a FIFO moves its tap of the current step by one, at most once per 1 ms. -/
def execTapMove (facet : Facet) (k : Fin 42) (up : Bool) (s : State) : Out :=
  let f := facet.val
  let pg := pgCLK f
  if s.flag pg (0x104 + 8 * k.val) 0 then
    let last := ((s.facet f).taps.find? fun e => e.1 == k.val).map (·.2)
    let t := match last with
      | some a => s.waitTime (a + msec)
      | none => s
    let c := t.facet f
    let t := t.setFacet f { c with taps := (c.taps.filter fun e => e.1 != k.val) ++ [(k.val, t.time)] }
    let v := t.fld pg (0x100 + 8 * k.val) (4 * t.facetStep f) 4
    .next (t.setFld pg (0x100 + 8 * k.val) (4 * t.facetStep f) 4 (if up then min 15 (v + 1) else v - 1))
  else .next s

/-! ### Device time (R425) -/

/-- Units between epoch markers. -/
def epochUnits : Nat := 16384

/-- EPOCH_MARKER (R425): the facet's count is compared with the marker and corrected. -/
def execEpochMarker (facet : Facet) (s : State) : Out :=
  let f := facet.val
  let t := s.waitTime ((s.time / epochUnits + 1) * epochUnits)
  let (inj, t) := t.injected (pgCLK f) 10
  let c := t.facet f
  let c := if inj then { c with acc := c.acc + 512 * 2 ^ 32 } else c
  if !c.running then .next t
  else
    let d : Int := ((c.acc / 2 ^ 32 : Nat) : Int) - (t.time : Nat)
    let t := t.setReg (pgCLK f) 0x048 (d % 65536).toNat
    let t := t.setReg (pgCLK f) 0x04C (max (t.fld (pgCLK f) 0x04C 0 16) (min d.natAbs 65535))
    if d.natAbs ≤ 256 then
      .next (t.setFacet f { c with
        ahead := if 0 < d then d.natAbs * 2 ^ 32 else 0
        behind := if d < 0 then d.natAbs * 2 ^ 32 else 0
        rate := d.natAbs })
    else
      let t := t.raise (pgCLK f) 10 clsCorr .corr inj []
      if 0 < d then .next (t.setFacet f { c with ahead := d.natAbs * 2 ^ 32, behind := 0, rate := 8192 })
      else .next (t.setFacet f { c with acc := t.time * 2 ^ 32, ahead := 0, behind := 0, rate := 0 })

/-! ### The reference and locks (R427, R428) -/

/-- HOLDOVER of every generator. -/
def State.setHoldover (s : State) (v : Nat) : State :=
  (List.range 15).foldl (fun (t : State) i => t.setFld (pgCLK i) 0x044 1 1 v) (s.setFld pgTIM 0x068 1 1 v)

/-- REFERENCE_LOSS (R427). -/
def execReferenceLoss (s : State) : Out :=
  if s.flag pgTIM 0x068 1 then .next s
  else .next (((s.setHoldover 1).setFld pgTIM 0x068 0 1 0).raise pgTIM 8 clsUnc .unc false [])

/-- The reference returns (R427): relocked within 100 µs; no count steps. -/
def State.refReturn (s : State) : State :=
  let t := (s.setHoldover 0).setFld pgTIM 0x068 0 1 1
  (List.range 15).foldl (fun (u : State) i =>
    if s.flag (pgCLK i) 0x044 1 then u.bumpSat (pgCLK i) 0x064 1 else u) t

/-- TIM_STATUS.ALL_LOCKED. -/
def State.allLocked (s : State) : State :=
  s.setFld pgTIM 0x068 2 1 (b2n ((List.range 12).all fun f => s.flag (pgCLK f) 0x044 0))

/-- LOCK_LOSS (R428): a locked generator stops CLK_C; on one that is unlocked, a failure to relock, the third of which within
1 s makes the facet dark. -/
def execLockLoss (facet : Facet) (s : State) : Out :=
  let f := facet.val
  let c := s.facet f
  if s.flag (pgCLK f) 0x044 6 then .next s
  else if c.running then
    let t := s.setFacet f { c with running := false, lost := true, phase := 0 }
    .next (((t.setFld (pgCLK f) 0x044 0 1 0).allLocked).raise (pgCLK f) 8 clsUnc .unc false [])
  else
    let l := inLastSecond s.time c.relockFails ++ [s.time]
    let t := s.setFacet f { c with relockFails := l }
    .next (if 3 ≤ l.length then (t.setFld (pgCLK f) 0x044 6 1 1).facetLost f else t)

/-- RELOCK (R428): the generator locks again, at the step of the others (R408), and loads device time from the next marker;
transfers with a page generation checked before the stop fail (R298). -/
def execRelock (facet : Facet) (s : State) : Out :=
  let f := facet.val
  let c := s.facet f
  if c.running || s.flag (pgCLK f) 0x044 6 then .next s
  else
    let t := s.waitTime ((s.time / epochUnits + 1) * epochUnits)
    let c := t.facet f
    let t := t.setFacet f { c with running := true, lost := false, acc := t.time * 2 ^ 32, ahead := 0, behind := 0 }
    let t := (((t.setFld (pgCLK f) 0x044 0 1 1).setFld (pgCLK f) 0x044 2 3 t.step).bumpSat (pgCLK f) 0x064 1).allLocked
    .next (((t.tiles.map (·.1)).filter fun x => facetOf x == f).foldl State.staleOpen t)

/-! ### IEEE 1588 timestamps (R429) -/

/-- The head entries and TIM_STATUS follow the queues. -/
def State.ptpRegs (s : State) : State :=
  let put := fun (t : State) (off : Nat) (q : List (Nat × Nat)) =>
    match q with
    | [] => (t.setReg64 pgTIM off 0).setReg pgTIM (off + 8) 0
    | (a, i) :: _ => (t.setReg64 pgTIM off a).setReg pgTIM (off + 8) (i % 2 ^ 28 + 2 ^ 31)
  let t := put (put s 0x0C0 s.ptp.tx) 0x0D0 s.ptp.rx
  (t.setFld pgTIM 0x068 8 6 s.ptp.tx.length).setFld pgTIM 0x068 16 6 s.ptp.rx.length

/-- PTP_TIMESTAMP: an event message sent or received; a full queue discards the timestamp. -/
def execPtpTimestamp (tx : Bool) (info : BitVec 28) (s : State) : Out :=
  let q := if tx then s.ptp.tx else s.ptp.rx
  let (full, inj, s) := s.arises pgTIM 10 (decide (32 ≤ q.length))
  if full then .next (s.raise pgTIM 10 clsInfo .none inj [])
  else
    let q := q ++ [(s.time, info.toNat)]
    .next ({ s with ptp := if tx then { s.ptp with tx := q } else { s.ptp with rx := q } } : State).ptpRegs

/-- PTP_TXQ_POP. -/
def execPtpTxqPop (s : State) : Out := .next ({ s with ptp := { s.ptp with tx := s.ptp.tx.drop 1 } } : State).ptpRegs

/-- PTP_RXQ_POP. -/
def execPtpRxqPop (s : State) : Out := .next ({ s with ptp := { s.ptp with rx := s.ptp.rx.drop 1 } } : State).ptpRegs

end Sys2Proof.Machine
end

