-- ==== Sys2Proof/Machine/Power.lean ====
section
/-! DEFINITION. Power delivery: requests of regions, power-on and gating, phases, limits and trips, converters, the input
(chapter 15). -/

namespace Sys2Proof.Machine

open Sys2Proof

/-! ### Requests (R440 to R444) -/

/-- Capacity of a facet's bus in W (R433). -/
def busCap (n : Nat) : Nat := 600 * min 2 n

/-- IBCs in service of a region's facet. -/
def State.ibcs (s : State) (r : Nat) : Nat := ((List.range 3).filter fun i => s.flag (pgPRG r) 0x080 i).length

/-- The facet bus is measured: power and headroom, alike in the six pages of the facet. -/
def State.busPower (s : State) (f power : Nat) : State :=
  (regionsOf f).foldl (fun (t : State) r =>
    t.setReg (pgPRG r) 0x084 (min power 2047 + (busCap (t.ibcs r) - power) * 2 ^ 16)) s

/-- A step switch is pending within 40 µs, or ended less than 10 µs ago (R440 condition 5, Table 15.7). -/
def State.nearSwitch (s : State) : Bool :=
  (s.stepPend.any fun p => decide (s.time ≤ p.t + 10 * usec) && decide (p.t ≤ s.time + 40 * usec)) ||
    (s.lastSwitch != 0 && decide (s.time < s.lastSwitch + 10 * usec))

/-- A region of the facet whose pending request was written earlier. -/
def State.earlierPend (s : State) (r place : Nat) : Bool :=
  (regionsOf (r / 6)).any fun x => x != r && (s.rgn x).pend.any fun p => decide (p.2 < place)

/-- The conditions of R440: a RESULT that ends the request, 0 where it stays pending, none where it is granted. `place` is
the request's place in order. -/
def State.ponCheck (s : State) (r place power : Nat) : Option Nat :=
  let f := r / 6
  if !s.enabled (pgPRG r) then some resDISABLED
  else if !s.flag (pgCLK f) 0x044 0 || s.flag (pgCLK f) 0x044 6 then some resCLOCK
  else if s.fld (pgPRG r) 0x04C 8 4 < 6 then some resPHASES
  else if (regionsOf f).any (fun x => x != r && s.region x == 3) || s.earlierPend r place then some 0
  else if s.nearSwitch then some 0
  else if busCap (s.ibcs r) < power + s.fld (pgPRG r) 0x040 16 8 then some 0
  else none

/-- A power-on request ends without a grant: the result, and PONFAIL where Table 15.9 sets it. -/
def State.ponEnd (s : State) (r res : Nat) : State :=
  let t := (s.setRgn r { s.rgn r with pend := none }).setFld (pgPRG r) 0x04C 3 1 0
  let t := t.setResult r res
  t.raiseIf (pgPRG r) 12 clsInfo .none (res == resHEADROOM || res == resPHASES || res == resCLOCK) []

/-- A power-on is granted (R441): the region wakes towards the targets in force. -/
def State.ponGrant (s : State) (r : Nat) : State :=
  let kept := s.region r == 1
  let t := (((s.setFld (pgPRG r) 0x04C 3 1 0).setRegion r 3).setVlog r s.targetStep)
  t.setRgn r { t.rgn r with
    pend := none
    trans := some (2, t.time)
    opened := kept
    settleAt := t.time + (if kept then 4 else 7) * usec }

/-- Writes of PRG_REQ: ignored while a request is pending or a transition runs; the requests that end at once (R444). -/
def State.prgReq (s : State) (r target : Nat) (act : State → State) : State :=
  let x := s.rgn r
  if x.pend.isSome || x.trans.isSome then s.wlock (pgPRG r)
  else
    let t := s.setFld (pgPRG r) 0x048 0 2 target
    if target = 3 then t.setResult r resINVALID
    else if t.region r = 5 then t.setResult r resLOST
    else if t.region r = target then t.setResult r resDONE
    else act t

/-- PRG_REQ_ON: `power` is the facet bus power over the last microsecond. -/
def execPrgReqOn (region : Region) (power : BitVec 11) (s : State) : Out :=
  let r := region.val
  .next (s.prgReq r 2 fun t =>
    let t := t.busPower (r / 6) power.toNat
    if t.halting (pgPRG r) then t.setResult r resDISABLED
    else
      let place := t.reqOrder
      match t.ponCheck r place power.toNat with
      | none => t.ponGrant r
      | some 0 =>
        let u := t.setRgn r { t.rgn r with pend := some (t.time, place) }
        ({ u with reqOrder := place + 1 } : State).setFld (pgPRG r) 0x04C 3 1 1
      | some c => t.ponEnd r c)

/-- Every context of a region's tiles is IDLE or HALTED and not BUSY, and the engines' queues are empty (R442). -/
def State.quiet (s : State) (r : Nat) : Bool :=
  (sitesOf r).all fun x =>
    let t := s.tile x
    t.threads.all (fun e => e.2.st == .idle || e.2.st == .halted) && t.copied.isEmpty && t.win.isEmpty &&
      t.mxa.instrs.isEmpty && t.vxe.isEmpty && t.dmx0.xfers.isEmpty && t.dmx1.xfers.isEmpty && t.rem.isEmpty &&
      t.spd.gathers.isEmpty && t.spd.banks.all fun b => b.2.queue.isEmpty && b.2.atomic.isNone

/-- A request to leave ON (R442). -/
def State.gateReq (s : State) (r target : Nat) : State :=
  if !s.quiet r then s.setResult r resBUSY
  else (s.setRegion r 4).setRgn r { s.rgn r with trans := some (target, s.time), opened := false }

/-- A request to RETAIN: from ON into GATING; from OFF, INVALID. -/
def State.reqRetain (s : State) (r : Nat) : State :=
  s.prgReq r 1 fun t =>
    if t.region r = 0 then t.setResult r resINVALID
    else if t.halting (pgPRG r) then t.setResult r resDISABLED
    else t.gateReq r 1

/-- PRG_REQ_RETAIN. -/
def execPrgReqRetain (region : Region) (s : State) : Out := .next (s.reqRetain region.val)

/-- PRG_REQ_OFF: from ON into GATING; from RETAIN, VARR ramps down at once. -/
def execPrgReqOff (region : Region) (s : State) : Out :=
  let r := region.val
  .next (s.prgReq r 0 fun t =>
    if t.halting (pgPRG r) then t.setResult r resDISABLED
    else if t.region r = 1 then t.setRgn r { t.rgn r with trans := some (0, t.time), opened := true }
    else t.gateReq r 0)

/-- PRG_REQ_INVALID: TARGET 3. -/
def execPrgReqInvalid (region : Region) (s : State) : Out := .next (s.prgReq region.val 3 fun t => t)

/-- PON_REEVALUATE: the next 10 µs after the request was written; while HALT_REQ is 1 the request goes on waiting (R453). -/
def execPonReevaluate (region : Region) (power : BitVec 11) (s : State) : Out :=
  let r := region.val
  match (s.rgn r).pend with
  | none => .next s
  | some (at_, place) =>
    let due := at_ + ((s.time - at_) / (10 * usec) + 1) * (10 * usec)
    if at_ + 2 * msec ≤ due then .next s
    else
      let t := ((s.waitTime due).busPower (r / 6) power.toNat).bumpSat (pgPRG r) 0x064 1
      if t.halting (pgPRG r) then .next t
      else match t.ponCheck r place power.toNat with
        | none => .next (t.ponGrant r)
        | some 0 => .next t
        | some c => .next (t.ponEnd r c)

/-- PON_TIMEOUT: 2 ms after the request was written. -/
def execPonTimeout (region : Region) (s : State) : Out :=
  let r := region.val
  match (s.rgn r).pend with
  | none => .next s
  | some (at_, _) => .next ((s.waitTime (at_ + 2 * msec)).ponEnd r resHEADROOM)

/-- A tile whose row repairs hold an uncorrectable word goes out of service and is counted (R579). -/
def State.rowBad (s : State) (x : Nat) : State :=
  let t := if s.outOfService x then s else (execSubstitutionTrigger false (BitVec.ofNat 11 x) s).stateOr s
  t.bumpFld (pgFUS 1) 0x044 24 8 1

/-- PON_DONE (Table 15.5): isolation is released and the region is ON. From OFF its tiles have read their row repairs; those of
`rows` hold an uncorrectable word (R579). -/
def execPonDone (region : Region) (rows : List Site) (s : State) : Out :=
  let r := region.val
  match (s.rgn r).trans with
  | none => .next s
  | some (_, c0) =>
    if s.region r = 3 then
      let kept := (s.rgn r).opened
      let t := s.waitTime (c0 + (if kept then 5 else 8) * usec)
      let t := if kept then t else (rows.filter fun x => regionOf x.val == r).foldl (fun (u : State) x => u.rowBad x.val) t
      let t := ((t.setFld (pgPRG r) 0x04C 0 3 2).setResult r resDONE).setRgn r { t.rgn r with trans := none, opened := false }
      .next ((sitesOf r).foldl State.wakeRouter t)
    else .next s

/-- GATE_SWITCH_OPEN: after the first bank swap since the grant the logic switches open (R442). -/
def execGateSwitchOpen (region : Region) (s : State) : Out :=
  let r := region.val
  match (s.rgn r).trans with
  | none => .next s
  | some (target, c0) =>
    if s.region r = 4 ∧ !(s.rgn r).opened ∧ c0 ≤ s.telSwap ∧ s.telSwap ≠ 0 then
      let t := (s.gateLogic r).setFld (pgPRG r) 0x050 0 10 0
      .next (t.setRgn r { t.rgn r with trans := some (target, s.telSwap), opened := true })
    else .next s

/-- GATE_DONE: 4 µs after the switches began to open, and for OFF 3 µs more (R442). -/
def execGateDone (region : Region) (s : State) : Out :=
  let r := region.val
  match (s.rgn r).trans with
  | none => .next s
  | some (target, c0) =>
    if (s.region r = 4 ∨ s.region r = 1) ∧ (s.rgn r).opened then
      let us := (if s.region r = 4 then 4 else 0) + (if target = 0 then 3 else 0)
      let t := s.waitTime (c0 + us * usec)
      let t := if target = 0 then (t.setRegion r 1).regionOff r else t.setRegion r 1
      .next ((t.setRgn r { t.rgn r with trans := none, opened := false }).setResult r resDONE)
    else .next s

/-- TRIM_CHANGE: a K field, so a running page refuses a change of it (R46, R48); the target moves while the region stays ON
(R455). -/
def execTrimChange (region : Region) (value : Bool) (s : State) : Out :=
  let r := region.val
  if s.flag (pgPRG r) 0x040 0 = value then .next s
  else if s.runs (pgPRG r) then .next (s.wlock (pgPRG r))
  else
    let t := s.setFld (pgPRG r) 0x040 0 1 (b2n value)
    .next (if t.region r = 2 then t.setVlog r t.targetStep else t)

/-! ### Phases, limits and trips (R445 to R448) -/

/-- A phase leaves service: 0 to 7 VLOG, 8 and 9 VARR. -/
def State.phaseFault (s : State) (r phase : Nat) (temp inj : Bool) : State :=
  let pg := pgPRG r
  if phase < 8 then
    if !s.flag pg 0x05C phase then s
    else
      let t := (s.setFld pg 0x05C phase 1 0).setFld pg 0x05C ((if temp then 24 else 8) + phase) 1 1
      let n := ((List.range 8).filter fun i => t.flag pg 0x05C i).length
      let t := (t.setFld pg 0x04C 8 4 n).setFld pg 0x04C 12 2 (if n = 7 then 1 else if n = 6 then 2 else 0)
      if n = 7 then t.raise pg 8 clsCorr .corr inj []
      else if n = 6 then (t.raise pg 9 clsUnc .unc inj []).replace causePhase
      else t.regionLost r (if t.region r = 3 then resPHASES else resTRIP)
  else if !s.flag pg 0x05C (8 + phase) then s
  else
    let t := s.setFld pg 0x05C (8 + phase) 1 0
    if t.fld pg 0x05C 16 2 = 0 then t.regionLost r (if t.region r = 3 then resPHASES else resTRIP)
    else t.raise pg 8 clsCorr .corr inj []

/-- PHASE_FAULT. -/
def execPhaseFault (region : Region) (phase : Fin 10) (temp : Bool) (s : State) : Out :=
  .next (s.phaseFault region.val phase.val temp false)

/-- ILIM_EFF in A (Table 15.6). -/
def State.ilimOf (s : State) (r : Nat) : Nat :=
  let n := s.fld (pgPRG r) 0x04C 8 4
  min (2 * s.fld (pgPRG r) 0x040 8 8) (if n = 8 then 260 else if n = 7 then 227 else 165)

/-- OVER_LIMIT (R446, Table 16.1): the average VLOG current of the 1 ms that ends. A region with 6 phases rises by 1, and
any region by 2. -/
def execOverLimit (region : Region) (avg : BitVec 9) (s : State) : Out :=
  let r := region.val
  let t := s.waitTime (nextMs s.time)
  let t := t.setFld (pgPRG r) 0x054 16 9 avg.toNat
  let (hit, inj, t) := if t.region r = 5 then (false, false, t) else t.arises (pgPRG r) 11 (decide (t.ilimOf r < avg.toNat))
  if hit then
    let t := (t.raise (pgPRG r) 11 clsInfo .none inj []).raiseL r 2 3
    .next (if t.flag (pgPRG r) 0x04C 13 then t.raiseL r 1 7 else t)
  else .next t

/-- A trip (R447): the record, and the region is LOST. -/
def State.regionTrip (s : State) (r cause phase current : Nat) : State :=
  if s.region r = 5 then s
  else (s.setReg (pgPRG r) 0x060 (cause + phase * 4 + current * 2 ^ 8)).regionLost r resTRIP

/-- REGION_TRIP: CAUSE 1 region VLOG, 2 a VLOG phase, 3 VARR. -/
def execRegionTrip (region : Region) (cause : Fin 3) (phase : Fin 8) (current : BitVec 9) (s : State) : Out :=
  .next (s.regionTrip region.val (cause.val + 1) phase.val current.toNat)

/-! ### Converters and the input (R449 to R451, R472, R473) -/

/-- IBC_FAILURE. -/
def execIbcFailure (facet : Facet) (i : Fin 3) (s : State) : Out :=
  let f := facet.val
  if !s.flag (pgPRG (6 * f)) 0x080 i.val then .next s
  else
    let t := (regionsOf f).foldl (fun (t : State) r =>
      let t := t.setFld (pgPRG r) 0x080 i.val 1 0
      let t := t.setFld (pgPRG r) 0x080 16 11 (busCap (t.ibcs r))
      let t := t.setFld (pgPRG r) 0x084 16 11 (busCap (t.ibcs r) - t.fld (pgPRG r) 0x084 0 11)
      t.raise (pgPRG r) 13 clsUnc .unc false []) s
    let n := t.ibcs (6 * f)
    if n = 1 then .next (t.replace causeConverter)
    else if n = 0 then .next (((regionsOf f).foldl (fun (u : State) r => u.regionDead r resTRIP) t).facetLost f)
    else .next t

/-- Every converter but the standby one stops: regions that are not LOST go to OFF (R450), and the optical ports, whose
domain lost its supply, go down. `cause` is that of GLB's reset record. -/
def State.stopConverters (s : State) (cause : Nat) : State :=
  let s := s.dropSense
  let t := ((List.range 72).filter fun r => s.region r != 5 && s.region r != 0).foldl (fun (u : State) r => u.regionOff r) s
  let t := ((List.range 32).filter fun p => t.optState p != optDOWN).foldl (fun (u : State) p => u.portDown p 0) t
  { t with boot := { t.boot with stopCause := cause }, stepPend := none }

/-- A domain has lost its last converter (R449, "in the same way for its domain"): the optical ports go DOWN without VLNK, and
without VMIF every subchannel is lost. VSVC keeps the standby converter (Table 15.2). -/
def State.domainLost (s : State) (domain : Nat) : State :=
  if domain = 0 then ((List.range 32).filter fun p => s.optState p != optDOWN).foldl (fun (u : State) p => u.portDown p 0) s
  else if domain = 1 then s.loseEdges ((List.range 384).map siteOfMc).dedup false
  else s

/-- DOMAIN_CONVERTER_FAILURE: 0 link, 1 memory, 2 service. -/
def execDomainConverterFailure (domain : Fin 3) (i : Fin 2) (s : State) : Out :=
  let k := 2 * domain.val + i.val
  if !s.flag pgPWR 0x068 k then .next s
  else
    let t := (s.setFld pgPWR 0x068 k 1 0).raise pgPWR 13 clsUnc .unc false []
    let t := t.replace causeConverter
    .next (if t.fld pgPWR 0x068 (2 * domain.val) 2 = 0 then t.domainLost domain.val else t).countReasons

/-- The input meter reads a voltage: PWR_VIN, and SUPPLY outside 44 V to 58 V. -/
def State.inputRead (s : State) (mv : Nat) : State :=
  let was := s.inputOut
  let t := s.setFld pgPWR 0x064 0 16 mv
  t.raiseIf pgPWR 12 clsInfo .none (t.inputOut && !was) [mv]

/-- SUPPLY_EXCURSION. -/
def execSupplyExcursion (mv : BitVec 16) (s : State) : Out := .next ((s.inputRead mv.toNat).countReasons)

/-- INPUT_CUTOFF: below 40 V for 20 µs, or above 60 V for 1 µs; below 30 V the standby domain goes too. -/
def execInputCutoff (mv : BitVec 16) (s : State) : Out :=
  let v := mv.toNat
  if 40000 ≤ v ∧ v ≤ 60000 then .next s
  else
    let t := ((s.elapse (if v < 40000 then 20 * usec else usec)).inputRead v).setFld pgPWR 0x06C (if v < 40000 then 1 else 2) 1 1
    let t := t.stopConverters 4
    .next (if v ≤ 30000 then { t with boot := { t.boot with powered := false } } else t)

/-- EPO: within 20 µs every converter has stopped; the module stays unpowered until the input is applied again. -/
def execEpo (s : State) : Out :=
  let t := (s.elapse (20 * usec)).stopConverters 0
  .next { t with boot := { t.boot with powered := false, epo := true } }

end Sys2Proof.Machine
end

