-- ==== Sys2Proof/Machine/Budget.lean ====
section
/-! DEFINITION. The power budget: the control loop, the floor, local and thermal limits, up-steps and pacing (chapter 16). -/

namespace Sys2Proof.Machine

open Sys2Proof

/-- Changes the controller. -/
def State.mapCtl (s : State) (f : Ctl → Ctl) : State := { s with ctl := f s.ctl }

/-! ### The control loop (R457 to R461) -/

/-- The term V_in × ILIM_IN in W. -/
def State.currentCap (s : State) : Nat := s.fld pgPWR 0x064 0 16 * s.fld pgPWR 0x048 0 9 / 1000

/-- CAP_EFF is recomputed (R457). -/
def State.capUpdate (s : State) : State :=
  s.setFld pgPWR 0x054 0 14 (max 1000 (min (s.fld pgPWR 0x044 0 14) s.currentCap - s.fld pgPWR 0x04C 0 14))

/-- EMERG (R461): set when P10 first exceeds 13,000 W, clear once it does not. -/
def State.emergency (s : State) (p10 : Nat) : State :=
  let (hit, inj, s) := s.arises pgPWR 8 (decide (13000 < p10))
  if hit then
    if s.flag pgPWR 0x054 19 then s else (s.setFld pgPWR 0x054 19 1 1).raise pgPWR 8 clsInfo .none inj [p10]
  else s.setFld pgPWR 0x054 19 1 0

/-- Since when a condition has held. -/
def sinceWhen (now : Nat) (holds : Bool) (old : Option Nat) : Option Nat := if holds then some (old.getD now) else none

/-- Whether a condition has held for a time. -/
def heldFor (now d : Nat) (since : Option Nat) : Bool := since.any fun a => decide (a + d ≤ now)

/-- The rules of R459. -/
def State.skipRules (s : State) (p10 : Nat) : State :=
  let cap := s.capEff
  let low := sinceWhen s.time (decide (p10 * 1000 ≤ cap * (1000 - s.fld pgPWR 0x040 8 8))) s.ctl.lowSince
  let s := s.mapCtl fun c => { c with lowSince := low, supRule := false }
  if !s.flag pgPWR 0x040 0 then s
  else if cap < p10 ∧ s.gLevel < 15 then
    (s.setG (s.gLevel + 1)).mapCtl fun c => { c with supRule := decide (s.currentCap < s.fld pgPWR 0x044 0 14) }
  else if heldFor s.time (100 * usec) low ∧ 0 < s.gLevel ∧ s.ctl.lastFall + 100 * usec ≤ s.time then
    (s.setG (s.gLevel - 1)).mapCtl fun c => { c with lastFall := s.time }
  else s

/-- The down-step of R460. -/
def State.capDown (s : State) : State :=
  let since := sinceWhen s.time (decide (s.skipDn ≤ s.gLevel)) s.ctl.dnSince
  let s := s.mapCtl fun c => { c with dnSince := since }
  if s.flag pgPWR 0x040 0 && heldFor s.time (200 * usec) since && !s.stepPend.any (·.ctrl) then s.downStep 1 else s

/-- The floor (R470). -/
def State.floorCheck (s : State) (p10 : Nat) : State :=
  let high := decide (s.capEff < p10)
  let since := sinceWhen s.time (high && s.step == 7 && s.gLevel == 15) s.ctl.floorSince
  let s := s.mapCtl fun c => { c with floorSince := since, okSince := sinceWhen s.time (!high) c.okSince }
  let (hit, inj, s) := s.arises pgPWR 9 (heldFor s.time (10 * msec) since)
  if hit then
    if s.flag pgPWR 0x054 18 then s else (s.setFld pgPWR 0x054 18 1 1).raise pgPWR 9 clsInfo .none inj [p10]
  else if since.isNone then s.setFld pgPWR 0x054 18 1 0
  else s

/-- Holds of Table 16.1 at an update: a capped region's L at 4 or more, regions of a facet with one IBC above 570 W. -/
def State.degradedRules (s : State) : State :=
  (List.range 72).foldl (fun (t : State) r =>
    let t :=
      if t.flag (pgPRG r) 0x04C 13 && t.region r != 5 then t.raiseL r (4 - t.lskip r) 7 else t
    if t.ibcs r == 1 && decide (570 < t.fld (pgPRG r) 0x084 0 11) then t.raiseL r 1 7 else t) s

/-- CONTROL_UPDATE (R458): P10 in W, input voltage in mV and current in 0.1 A, and facet bus powers as measured. -/
def execControlUpdate (p10 vin iin : Nat) (bus : List (Facet × BitVec 11)) (s : State) : Out :=
  let p := min p10 16383
  let t := s.waitTime ((s.time / (10 * usec) + 1) * (10 * usec))
  let t := ((t.setFld pgPWR 0x060 0 14 p).setFld pgPWR 0x064 16 16 (min iin 65535)).inputRead (min vin 65535)
  let t := bus.foldl (fun (u : State) e => u.busPower e.1.val e.2.toNat) t
  let t := (t.capUpdate).emergency p10
  let t :=
    if t.ctrlActs then (((t.skipRules p10).capDown).floorCheck p10).degradedRules
    else if !t.enabled pgPWR && decide (p10 ≤ 13000) then t.setG 0
    else t
  let t := if t.ctl.floorStep != 0 && !t.flag pgPWR 0x05C 7 && heldFor t.time (10 * msec) t.ctl.okSince then
    t.mapCtl fun c => { c with floorStep := 0 } else t
  .next t.countReasons

/-- EMERG: in each microsecond with P10 above 13,000 W, G rises by 1, whatever ENABLE, HALT_REQ and CAP_EN hold. -/
def execEmerg (p10 : Nat) (s : State) : Out :=
  let t := ((s.waitTime ((s.time / usec + 1) * usec)).setFld pgPWR 0x060 0 14 (min p10 16383)).emergency p10
  .next (if 13000 < p10 ∧ t.gLevel < 15 then (t.setG (t.gLevel + 1)).countReasons else t.countReasons)

/-! ### The floor and local limits -/

/-- FLOOR (R470): firmware's next step while the condition lasts; `regions` are those that qualify for RETAIN. -/
def execFloor (regions : List (Fin 72)) (s : State) : Out :=
  if !s.flag pgPWR 0x054 18 then .next s
  else match s.ctl.floorStep with
    | 0 => .next (s.mapCtl fun c => { c with floorStep := 1 })
    | 1 =>
      let t := s.elapse (10 * msec)
      let t := regions.foldl (fun (u : State) r => if u.region r.val = 2 then u.reqRetain r.val else u) t
      .next (t.mapCtl fun c => { c with floorStep := 2 })
    | 2 =>
      let t := (s.elapse (10 * msec)).setFld pgPWR 0x05C 7 1 1
      .next ((t.mapCtl fun c => { c with floorStep := 3 }).countReasons)
    | _ => .next s

/-- CAP_UNREACHABLE_CLEAR: P10 has stayed at or below CAP_EFF for 100 ms. -/
def execCapUnreachableClear (s : State) : Out :=
  match s.ctl.okSince with
  | none => .next s
  | some a =>
    if s.flag pgPWR 0x05C 7 then
      let t := (s.waitTime (a + 100 * msec)).setFld pgPWR 0x05C 7 1 0
      .next ((t.mapCtl fun c => { c with floorStep := 0 }).countReasons)
    else .next s

/-- How long after its condition last held a cause still holds L: 10 ms of absence, which for a thermal cause begins after
100 ms below THR − 5 °C (R471, R474). -/
def causeLife (c : Nat) : Nat := if c = 2 then 110 * msec else 10 * msec

/-- LOCAL_SKIP_DECAY (R471): causes absent long enough are cleared; without a cause L falls by 1 every 10 ms. A capped region
stays at 4 or above. -/
def execLocalSkipDecay (region : Region) (s : State) : Out :=
  let r := region.val
  if !s.localActs ∨ s.lskip r = 0 then .next s
  else
    let capped := s.flag (pgPRG r) 0x04C 13
    let x := s.rgn r
    let live := x.causes.filter fun e => decide (s.time < e.2 + causeLife e.1) || (capped && e.1 == 7)
    let ended := (x.causes.filter fun e => decide (e.2 + causeLife e.1 ≤ s.time)).map fun e => e.2 + causeLife e.1
    let fall := ended.foldl max x.lastFall
    let s := s.setRgn r { x with causes := live, lastFall := fall }
    if live.any (fun e => !(capped && e.1 == 7)) || (capped && decide (s.lskip r ≤ 4)) then
      .next ((s.setLskip r (s.lskip r)).countReasons)
    else
      let t := s.waitTime (fall + 10 * msec)
      let t := t.setRgn r { t.rgn r with lastFall := t.time }
      .next ((t.setLskip r (t.lskip r - 1)).countReasons)

/-! ### Thermal limits (R474, R475) -/

/-- THR; a value above 0x8C0 acts as 0x8C0. -/
def State.thr (s : State) : Nat := min 0x8C0 (s.fld pgPWR 0x050 0 12)

/-- A sensor's register takes a reading: a tile below 2000, an optical engine 2000 + e. An MPH's REFHI has 3000 + pkg. -/
def State.sensor (s : State) (src temp : Nat) : State :=
  if src < 1296 then
    let t := s.setFld (pgTEL src 1) 0x040 0 12 temp
    let t := t.setFld (pgTEL src 1) 0x044 0 12 (max temp (t.fld (pgTEL src 1) 0x044 0 12))
    t.raiseIf (pgTEL src 0) 8 clsInfo .none (decide (s.fld (pgTEL src 0) 0x048 0 12 ≤ temp)) [temp]
  else if 2000 ≤ src ∧ src < 2016 then
    let t := s.setFld (pgOEN (src - 2000)) 0x048 0 12 temp
    t.raiseIf (pgOEN (src - 2000)) 11 clsInfo .none (decide (0x820 ≤ temp)) [temp]
  else if 3000 ≤ src ∧ src < 3048 then s.raiseIf (pgMPH (src - 3000)) 10 clsInfo .none (decide (s.thr ≤ temp)) []
  else s

/-- The source that the injection of PG_ERR_INJ[10] stands for: region 0 at THR for 10 ms. -/
def injSource : Nat := 4000

/-- A thermal source reads a value: the first crossing sets THERM, a tile at or above THR raises L of its region. -/
def State.thermal (s : State) (src temp : Nat) (inj : Bool) : State :=
  let high := decide (s.thr ≤ temp)
  let since := (s.ctl.hot.find? fun e => e.1 == src).map (·.2)
  let rest := s.ctl.hot.filter fun e => e.1 != src
  let first := high && s.ctl.hot.isEmpty
  let s := s.mapCtl fun c => { c with hot := if high then rest ++ [(src, since.getD s.time)] else rest }
  let s := if first then s.raise pgPWR 10 clsInfo .none inj [src, temp] else s
  let r := if src < 1296 then some (regionOf src) else if src = injSource then some 0 else none
  match r with
  | some r => if high then s.raiseL r 1 2 else if s.thr - 80 ≤ temp then s.keepCause r 2 else s
  | none => s

/-- THERMAL_THRESHOLD: a source's reading at the end of a 1 ms interval. -/
def execThermalThreshold (source : Nat) (temp : BitVec 12) (s : State) : Out :=
  let t := (s.waitTime (nextMs s.time)).sensor source temp.toNat
  let (inj, t) : Bool × State := t.injected pgPWR 10
  if !t.flag pgPWR 0x040 1 then .next t
  else
    let on := source < 1296 ∧ t.siteOn source ∨ 2000 ≤ source ∧ source < 2016 ∨ 3000 ≤ source ∧ source < 3048
    let t := if on then t.thermal source temp.toNat false else t
    let old := (t.ctl.hot.find? fun e => e.1 == injSource).map (·.2)
    let t := match old with
      | some a => t.thermal injSource (if t.time < a + 10 * msec then t.thr else 0) false
      | none => if inj then t.thermal injSource t.thr true else t
    .next t.countReasons

/-- When the thermal down-step condition began to have held 10 ms: the earliest. -/
def State.thermDue (s : State) : Option Nat :=
  let l := (s.regions.filterMap fun e => e.2.hotSince) ++ ((s.ctl.hot.filter fun e => 2000 ≤ e.1 && e.1 < 4000).map (·.2))
  l.foldl (fun (b : Option Nat) a => some ((b.map (min a)).getD a)) none

/-- THERMAL_DOWN_STEP: a condition held 10 ms requests a down-step, and again every 10 ms. -/
def execThermalDownStep (s : State) : Out :=
  match s.thermDue with
  | none => .next s
  | some a =>
    if s.ctrlActs && s.flag pgPWR 0x040 1 then
      let t := s.waitTime (max (a + 10 * msec) (if s.ctl.lastDn = 0 then 0 else s.ctl.lastDn + 10 * msec))
      .next (((t.downStep 2).mapCtl fun c => { c with lastDn := t.time }).countReasons)
    else .next s

/-- THERMAL_TRIP: a sensor at or above 110 °C for 10 µs, whatever ENABLE, HALT_REQ and THERM_EN hold. -/
def execThermalTrip (source : Nat) (temp : BitVec 12) (s : State) : Out :=
  let oen := decide (2000 ≤ source)
  if temp.toNat < 0x960 ∨ !(source < 1296 ∨ (2000 ≤ source ∧ source < 2016)) then .next s
  else
    let t := (s.elapse (10 * usec)).sensor source temp.toNat
    let t := ((t.setFld pgPWR 0x06C 0 1 1).setFld pgPWR 0x06C 8 12 temp.toNat).setFld pgPWR 0x06C 20 12
      (if oen then source - 2000 + 2 ^ 11 else source)
    let t := t.stopConverters 3
    let t := t.setFld (pgGLB 3) 0x040 27 1 0
    .next { t with boot := { t.boot with tripAt := some t.time } }

/-! ### Up-steps and pacing (R469, R476, R477) -/

/-- Firmware requests a step at the earliest time (R409). -/
def State.askStep (s : State) (target : Nat) : State :=
  let at_ := (if s.lastSwitch = 0 then s.time else max s.time s.lastSwitch) + 50 * usec
  (execGo ((s.setFld pgTIM 0x048 0 3 target).setReg64 pgTIM 0x050 at_)).stateOr s

/-- The fastest step firmware may choose: the operator's, and while a job runs the largest SBIN of the regions that are ON. -/
def State.fastest (s : State) : Nat :=
  match s.job with
  | some j => (s.powered.map s.sbin).foldl max j.cfg.step
  | none => 0

/-- The test of R469 for the next faster step. -/
def State.mayRaise (s : State) (phases : List PhaseUse) (duration : Nat) : Bool :=
  let quiet := [1, 2, 4].all fun c => !s.reasonOn c && s.ctl.lastActive.all fun e => e.1 != c || decide (e.2 + 100 * msec ≤ s.time)
  match s.job with
  | none => false
  | some j => s.stepPend.isNone && decide (s.fastest < s.step) && quiet &&
      s.fitsAt (s.step - 1) j.cfg phases duration 1 1

/-- STEP_RAISE. -/
def execStepRaise (phases : List PhaseUse) (duration : Nat) (s : State) : Out :=
  if s.mayRaise phases duration ∧ !s.ctl.paceHold then .next (s.askStep (s.step - 1)) else .next s

/-- PACE of PWR_FW_REASON: w, in 0.01 %, above 1 %, or pacing holds the step lower. -/
def State.setPace (s : State) (w : Nat) : State := s.setFld pgPWR 0x05C 4 1 (b2n (decide (100 < w) || s.ctl.paceHold))

/-- WAIT_SHARE (R476): the wait share of a 10 ms window. -/
def execWaitShare (w : BitVec 14) (s : State) : Out :=
  .next (((s.waitTime ((s.time / (10 * msec) + 1) * (10 * msec))).setPace w.toNat).countReasons)

/-- The slowest step whose CLK_C is at least CLK_C × (1.02 − w). -/
def paceStep (cur w : Nat) : Nat :=
  ((List.range 8).filter fun k => decide (stepMHz cur * (10200 - w) ≤ stepMHz k * 10000)).foldl max 0

/-- PACE_WINDOW (R477): the wait share of a 100 ms window; an up-step also passes the prediction of R469. -/
def execPaceWindow (w : BitVec 14) (phases : List PhaseUse) (duration : Nat) (s : State) : Out :=
  let t := s.waitTime ((s.time / (100 * msec) + 1) * (100 * msec))
  match t.job with
  | none => .next t
  | some j =>
    if !j.cfg.pacing then .next t
    else if 400 < w.toNat then
      let k := paceStep t.step w.toNat
      if t.step < k ∧ t.stepPend.isNone ∧ t.reqs.all (fun r => !r.isLive || r.st != .opening) then
        .next ((((t.askStep k).mapCtl fun c => { c with paceHold := true }).setPace w.toNat).countReasons)
      else .next t
    else if w.toNat < 100 then
      if t.mayRaise phases duration then
        let u := (t.askStep (t.step - 1)).mapCtl fun c => { c with paceHold := decide (t.fastest < t.step - 1) }
        .next ((u.setPace w.toNat).countReasons)
      else .next t
    else .next t

end Sys2Proof.Machine
end

