-- ==== Sys2Proof/Machine/Metering.lean ====
section
/-! DEFINITION. Energy metering and attribution: intervals, the attribution table, division among requests, the power model,
calibration, the presence window and the seal (R465, chapter 17). -/

namespace Sys2Proof.Machine

open Sys2Proof

/-- Changes metering, and the receipt engine. -/
def State.mapMtr (s : State) (f : Mtr → Mtr) : State := { s with mtr := f s.mtr }
def State.mapRcp (s : State) (f : Rcp → Rcp) : State := { s with rcp := f s.rcp }

/-! ### Calibration words (Table 17.8) -/

def calWord (l : List (Nat × Word)) (i : Nat) : Nat := (tblGet (fun _ => (0 : Word)) l i).toNat
def calInt (l : List (Nat × Word)) (i : Nat) : Int := sext 32 (calWord l i)

/-- Indices that hold a word; the others are reserved. -/
def calDefined (i : Nat) : Bool :=
  decide (i < 0x098) || (decide (0x0A0 ≤ i) && decide (i < 0x0C8)) || (decide (0x100 ≤ i) && decide (i < 0x580)) ||
    (decide (0x580 ≤ i) && decide (i < 0x586))

/-- u_d, u_s, u_h, u_o. -/
def calTerms (l : List (Nat × Word)) : List Nat := (List.range 4).map fun i => calWord l (0x580 + i)

/-- A raw energy in nJ by gain (2^-30) and offset (mW over `us` microseconds), at least 0 (log entry 21). -/
def calEnergy (raw gain : Nat) (offset : Int) (us : Nat) : Nat :=
  (((raw * gain / 2 ^ 30 : Nat) : Int) + offset * (us : Nat)).toNat

/-! ### Intervals (R481 to R484) -/

/-- A source's energy of an interval, whether samples were missing, and its mean if it has a good sample: missing samples
take the mean of the good ones, or the last good interval mean. -/
def State.sourceEnergy (s : State) (m : Measured) (src : Nat) : Nat × Bool × Option Nat :=
  match m.samples.find? fun x => x.src == src with
  | none => (0, false, some 0)
  | some x =>
    if 1000 ≤ x.good then (x.nj, false, some x.nj)
    else if 0 < x.good then (x.nj * 1000 / x.good, true, some (x.nj * 1000 / x.good))
    else (tblGet (fun _ => 0) s.mtr.lastMeans src, true, none)

/-- Every source. -/
def meterSources : List Nat := List.range 724

/-- The sensors' registers take their readings. -/
def State.readSensors (s : State) (m : Measured) : State :=
  let t := (m.temps.filter fun e => e.1 < 1296).foldl (fun (u : State) e => u.sensor e.1 (e.2 % 2 ^ 12)) s
  let t := (m.cpm.filter fun e => e.1 < 1296).foldl (fun (u : State) e =>
    let v := u.setFld (pgTEL e.1 1) 0x048 0 8 e.2
    v.raiseIf (pgTEL e.1 0) 9 clsInfo .none (e.2 % 2 ^ 8 == 0) []) t
  (m.peaks.filter fun e => e.1 < 72).foldl (fun (u : State) e =>
    let u := (u.setFld (pgPRG e.1) 0x054 0 9 e.2.2.1).setFld (pgPRG e.1) 0x054 16 9 e.2.2.2
    u.setFld (pgPRG e.1) 0x058 0 9 (max (e.2.1 % 2 ^ 9) (u.fld (pgPRG e.1) 0x058 0 9))) t

/-- Mean TEL_TEMP of a region's tiles in 1/16 °C. -/
def State.meanTemp (s : State) (r : Nat) : Int :=
  (((sitesOf r).map fun x => s.fld (pgTEL x 1) 0x040 0 12).sum / (sitesOf r).length : Nat) - 640

/-- The committed calibration becomes the one in force at an interval's start (R508). -/
def State.calApply (s : State) : State :=
  match s.mtr.commit with
  | none => s
  | some c =>
    let e := (s.nv.epoch + 1) % 2 ^ 32
    let t := s.mapMtr fun m => { m with
      cal := c
      commit := none
      terms := (m.terms.filter fun x => x.1 != e) ++ [(e, calTerms c)] }
    (({ t with nv := { t.nv with epoch := e } } : State).setReg pgMTR 0x0AC e).setFld pgMTR 0x044 0 1 1

/-- S[n]: the static energy of a region in nJ, from K0 in mW, K1 in µW per °C and T_n (R485). -/
def Interval.static (iv : Interval) (n : Nat) : Nat :=
  let k0 : Int := (calWord iv.cal (0x100 + 16 * n + 2 * iv.step) : Nat)
  let k1 := calInt iv.cal (0x101 + 16 * n + 2 * iv.step)
  let uw16 : Int := k0 * 16000 + k1 * (nthD 0 iv.temp n - 400)
  min (nthD 0 iv.eon n) ((uw16 * (nthD 0 iv.ton n : Nat)) / 16000).toNat

/-- METER_INTERVAL_END. -/
def execMeterIntervalEnd (m : Measured) (s : State) : Out :=
  let t := s.waitTime (nextMs s.mtr.at_)
  if !t.runs pgMTR then .next (t.mapMtr fun x => { x with at_ := t.time })
  else
    let n := t.time / msec - 1
    let (missInj, badInj, t) : Bool × Bool × State := match t.takeInjOf pgMTR [10, 11] with
      | some (10, u) => (true, false, u)
      | some (_, u) => (false, true, u)
      | none => (false, false, t)
    let cal := t.mtr.cal
    let valid := t.flag pgMTR 0x044 0
    let raw := meterSources.map (t.sourceEnergy m)
    let missing := missInj || raw.any fun x => x.2.1
    let means := (meterSources.zip raw).filterMap fun (i, x) => x.2.2.map fun v => (i, v)
    let one := fun (e gain off us : Nat) => if valid then calEnergy e (calWord cal gain) (calInt cal off) us else e
    let rawReg := fun (r : Nat) => ((List.range 10).map fun p => (nthD (0, false, none) raw (10 * r + p)).1).sum
    let ereg := (List.range 72).map fun r => one (rawReg r) r (0x048 + r) 1000
    let dom := (List.range 3).map fun d => one (nthD (0, false, none) raw (720 + d)).1 (0x090 + d) (0x093 + d) 1000
    let ein := one (nthD (0, false, none) raw 723).1 0x096 0x097 1000
    let rails := ereg.sum + dom.sum
    let bad := badInj || decide (ein < rails)
    let loss := if bad then 0 else ein - rails
    let t := t.readSensors m
    let on := fun (r : Nat) => (m.on.find? fun e => e.1 == r).map (·.2)
    let eon := (List.range 72).map fun r =>
      match on r with
      | some (e, us) => one e r (0x048 + r) us
      | none => if t.region r = 2 then nthD 0 ereg r else 0
    let ton := (List.range 72).map fun r =>
      match on r with
      | some (_, us) => us
      | none => if t.region r = 2 then 1000 else 0
    let tel := if t.telSwap / msec = n + 1 then t.telFrozen else t.telActive
    let iv : Interval :=
      ⟨n, ein, ereg, nthD 0 dom 0, nthD 0 dom 1, nthD 0 dom 2, loss, eon, ton, (List.range 72).map t.meanTemp, t.step,
        missing || bad, cal, tel, t.flag pgMTR 0x040 0, false⟩
    let t := t.mapMtr fun x => { x with
      lastMeans := means.foldl (fun (l : List (Nat × Nat)) e => tblSet (fun _ => 0) l e.1 e.2) x.lastMeans
      at_ := t.time
      lastReg := ereg
      lastDom := dom
      lastBase := (((List.range 72).map iv.static).sum + dom.sum) / 1000
      total := x.total + ein
      intervals := x.intervals ++ [iv] }
    let t := (((t.setReg pgMTR 0x048 (n % 2 ^ 32)).setReg64 pgMTR 0x050 ein).setReg64 pgMTR 0x058 loss).setFld pgMTR
      0x044 1 1 (b2n (missing || bad))
    let t := (t.setReg64 pgMTR 0x078 (t.mtr.total / 1000)).setFld pgPWR 0x060 16 14 (min 16383 (ein / 1000000))
    let t := if missing then t.raise pgMTR 10 clsUnc .unc missInj [n] else t
    let t := if bad then t.raise pgMTR 11 clsUnc .unc badInj [n] else t
    .next t.calApply

/-! ### Attribution (R485 to R488) -/

/-- One count of the frozen records: site, tag, counter, value. -/
structure TelCount where
  site : Nat
  tag : Nat
  i : Nat
  v : Nat
  deriving DecidableEq, Repr

/-- The frozen records as counts. -/
def telCounts (tel : List (Nat × Nat)) : List TelCount :=
  tel.map fun e => ⟨e.1 / 32768, e.1 / 8 % 4096, e.1 % 8, e.2⟩

/-- Sum of a counter over counts. -/
def cntSum (l : List TelCount) (i : Nat) : Nat := ((l.filter fun c => c.i == i).map (·.v)).sum

/-- A[t,n] of counts of one tag in one region. -/
def weighted (cal : List (Nat × Word)) (step : Nat) (l : List TelCount) : Nat :=
  ((List.range 5).map fun k => calWord cal (0x0A0 + 8 * k + step) % 2 ^ 16 * cntSum l k).sum

/-- The shares of one tag (R485, R486). `all` are the interval's counts. -/
def Interval.tagShare (iv : Interval) (all : List TelCount) (tag : Nat) : TagShare :=
  let mine := all.filter fun c => c.tag == tag
  let regs := ((mine.map fun c => regionOf c.site).dedup)
  let part := fun (n : Nat) =>
    let here := all.filter fun c => regionOf c.site == n
    let my := mine.filter fun c => regionOf c.site == n
    let tags := (here.map (·.tag)).dedup
    let sumA := (tags.map fun t => weighted iv.cal iv.step (here.filter fun c => c.tag == t)).sum
    let st := iv.static n
    ((nthD 0 iv.eon n - st) * weighted iv.cal iv.step my / sumA, st * cntSum my 6 / cntSum here 6)
  let dyn := (regs.map fun n => (part n).1).sum
  let stat := (regs.map fun n => (part n).2).sum
  let mem := iv.emem * cntSum mine 5 / cntSum all 5
  let link := iv.elink * cntSum mine 3 / cntSum all 3
  let svc := iv.esvc * cntSum mine 6 / cntSum all 6
  let rails := iv.ereg.sum + iv.elink + iv.emem + iv.esvc
  let loss := iv.eloss * (dyn + stat + mem + link + svc) / rails
  ⟨tag, dyn, stat, mem + link + svc + loss, cntSum mine 6⟩

/-- The table of an interval: its tags with a non-zero record; without attribution it gives nothing to a tag. -/
def Interval.table (iv : Interval) : AttrTable :=
  let all := if iv.attr then (telCounts iv.tel).filter fun c => c.v != 0 else []
  ⟨iv.n, iv.ein, iv.degraded, ((all.map (·.tag)).dedup).map (iv.tagShare all)⟩

/-- Energy that a table gives to its tags. -/
def AttrTable.given (t : AttrTable) : Nat := (t.tags.map fun x => x.dyn + x.stat + x.shared).sum

/-- Two words of a 64-bit value. -/
def two (v : Nat) : List Nat := wordsN 2 v

/-- The words of Table 17.1. -/
def tableWords (iv : Interval) (t : AttrTable) : List Nat :=
  two t.n ++ two t.ein ++ two iv.ereg.sum ++ two iv.emem ++ two iv.elink ++ two iv.esvc ++ two iv.eloss ++
    two (t.ein - t.given) ++
    (List.range 4096).flatMap fun k =>
      match t.tags.find? fun x => x.tag == k with
      | none => [0, 0, 0, 0, 0, 0, 0, 2 * b2n t.degraded]
      | some x => two x.dyn ++ two x.stat ++ two x.shared ++ [x.occ % 2 ^ 32, 1 + 2 * b2n t.degraded]

/-- The update of R465 for one region: signature and peak current in A, with energy in fJ per OCC cycle. An entry's first
update starts it at what was measured (log entry 31). -/
def State.learn (s : State) (iv : Interval) (region sig peak : Nat) : State :=
  let occ := cntSum ((telCounts iv.tel).filter fun c => regionOf c.site == region) 6
  if occ = 0 then s
  else
    let e := (nthD 0 iv.eon region - iv.static region) * 1000000 / occ
    let i := peak * 1000
    let mine := fun (x : Nat × Nat × Nat × Nat × Nat × Nat) => x.1 == sig && x.2.1 == iv.step && x.2.2.1 == region
    let next :=
      match s.ctl.model.find? mine with
      | none => (sig, iv.step, region, e, i, 1)
      | some (_, _, _, e0, i0, n) =>
        let e1 := ((e0 : Int) + ((e : Int) - (e0 : Int)) / 8).toNat
        (sig, iv.step, region, e1, if i0 ≤ i then i else i0 - (i0 - i) / 32, min (n + 1) 65535)
    s.mapCtl fun c => { c with model := (c.model.filter fun x => !mine x) ++ [next] }

/-- ATTRIBUTION: the oldest interval is attributed and its table written, with ATTR_LATE where it comes later than 1 ms after
the interval's end; with ATTR_EN at 0 no table is written (R488). `sigs` are the regions in which one signature had at least
90 % of the OCC cycles, with the signature and the region's peak current. -/
def execAttribution (sigs : List (Fin 72 × Nat × Nat)) (s : State) : Out :=
  match s.mtr.intervals with
  | [] => .next s
  | iv :: rest =>
    let s := s.raiseIf pgMTR 9 clsInfo .none (iv.attr && !iv.late && decide ((iv.n + 2) * msec < s.time)) [iv.n]
    let tab := iv.table
    let depth := max 1 (s.fld pgMTR 0x088 0 8)
    let base := s.reg64 pgMTR 0x080
    let t := s.mapMtr fun x => { x with intervals := rest, tables := x.tables ++ [tab] }
    let t :=
      if iv.attr then (t.memSet (base + iv.n % depth * 0x4_0000) (tableWords iv tab)).setReg pgMTR 0x08C (iv.n % 2 ^ 32) else t
    .next (sigs.foldl (fun (u : State) e => u.learn iv e.1.val e.2.1 e.2.2) t)

/-- ATTRIBUTION_LATE: an interval's table is still to be written 1 ms after its end. -/
def execAttributionLate (s : State) : Out :=
  match s.mtr.intervals with
  | [] => .next s
  | iv :: rest =>
    if iv.late || !iv.attr then .next s
    else
      let t := s.mapMtr fun x => { x with intervals := { iv with late := true } :: rest }
      .next ((t.waitTime ((iv.n + 2) * msec)).raise pgMTR 9 clsInfo .none false [iv.n])

/-! ### Division among requests (R489, R490) -/

/-- Largest-remainder division of `x` in proportion to weights: (who, order of ties, weight) to (who, part). -/
def largestRemainder (x : Nat) (l : List (Nat × Nat × Nat)) : List (Nat × Nat) :=
  let w := (l.map fun e => e.2.2).sum
  if w = 0 then l.map fun e => (e.1, 0)
  else
    let left := x - (l.map fun e => x * e.2.2 / w).sum
    l.map fun e =>
      let rank := (l.filter fun o => decide (x * e.2.2 % w < x * o.2.2 % w) ||
        (x * o.2.2 % w == x * e.2.2 % w && decide (o.2.1 < e.2.1))).length
      (e.1, x * e.2.2 / w + (if rank < left then 1 else 0))

/-- An energy share: dyn, stat, shared, overhead. -/
abbrev Energy := Nat × Nat × Nat × Nat

def Energy.add (a b : Energy) : Energy := (a.1 + b.1, a.2.1 + b.2.1, a.2.2.1 + b.2.2.1, a.2.2.2 + b.2.2.2)
def Energy.total (a : Energy) : Nat := a.1 + a.2.1 + a.2.2.1 + a.2.2.2

/-- The order of ties of a sequence: its slot, or its place among the binds. -/
def State.tieOrder (s : State) (seq : Nat) : Nat :=
  match s.rcp.waiting.find? fun p => p.seq == seq with
  | some p => p.slot
  | none =>
    match s.reqs.find? fun r => r.isLive && r.seq == seq with
    | some r => r.slot
    | none => s.binds.findIdx fun (b : Bind) => b.seq == seq

/-- Adds an interval's share to the request of a sequence: the one whose receipt waits, or the live one. -/
def State.addEnergy (s : State) (n seq : Nat) (e : Energy) : State :=
  if s.rcp.waiting.any fun p => p.seq == seq && decide (n ≤ p.interval) then
    s.mapRcp fun x => { x with waiting := x.waiting.map fun p => if p.seq == seq && decide (n ≤ p.interval) then { p with energy := Energy.add p.energy e } else p }
  else
    { s with
      reqs := s.reqs.map fun r => if r.isLive && r.seq == seq then { r with energy := Energy.add r.energy e } else r
      binds := s.binds.map fun (b : Bind) => if b.seq == seq then { b with energy := Energy.add b.energy e } else b }

/-- Marks what covered a degraded interval. -/
def State.markDegraded (s : State) (n : Nat) : State :=
  let t := s.mapRcp fun x => { x with waiting := x.waiting.map fun p => if decide (p.firstIv ≤ n) && decide (n ≤ p.interval) then { p with rflags := p.rflags ||| 4 } else p }
  { t with
    reqs := t.reqs.map fun r => if r.isLive && decide (r.firstIv ≤ n) then { r with rflags := r.rflags ||| 4 } else r
    binds := t.binds.map fun (b : Bind) => if decide (b.firstIv ≤ n) then { b with rflags := b.rflags ||| 4 } else b }

/-- Kind OVERHEAD of Table 17.2. -/
def kindOverhead : Nat := 3

/-- Whether a sequence can receive energy of an interval: its receipt, which waits, covers it, or it is live on a module that serves
and was admitted by then (R490, R491, R603). -/
def State.energyTo (s : State) (n seq : Nat) : Bool :=
  (s.rcp.waiting.any fun p => p.seq == seq && decide (p.firstIv ≤ n) && decide (n ≤ p.interval)) ||
    (s.serving && ((s.reqs.any fun r => r.isLive && r.seq == seq && decide (r.firstIv ≤ n)) ||
      s.binds.any fun (b : Bind) => b.opened && b.seq == seq && decide (b.firstIv ≤ n)))

/-- The parts of requests from the tags of a table: dyn, stat and shared by sequence. -/
def State.tagParts (s : State) (tab : AttrTable) (splits : List (Nat × List (Nat × Nat))) : List (Nat × Energy) :=
  let kinds := (s.job.map fun j => j.cfg.tagKinds).getD []
  tab.tags.flatMap fun x =>
    match kinds.find? fun k => k.1 == x.tag, splits.find? fun e => e.1 == x.tag with
    | some (_, k), some (_, all) =>
      let l : List (Nat × Nat) := all.filter fun e => s.energyTo tab.n e.1
      if k = kindOverhead ∨ x.tag = 4095 ∨ (l.map (·.2)).sum = 0 then []
      else
        let ws := l.map fun e => (e.1, s.tieOrder e.1, e.2)
        let put := fun (v : Nat) (f : Nat → Energy) => (largestRemainder v ws).map fun e => (e.1, f e.2)
        put x.dyn (fun v => (v, 0, 0, 0)) ++ put x.stat (fun v => (0, v, 0, 0)) ++ put x.shared (fun v => (0, 0, v, 0))
    | _, _ => []

/-- REQUEST_SHARE: the oldest attributed interval is divided; `splits` are the tags' split lists, weights by SEQ. A mirror
attributes nothing, but for the receipts of intervals in which it still served. -/
def execRequestShare (splits : List (Nat × List (Nat × Nat))) (s : State) : Out :=
  match s.mtr.tables with
  | [] => .next s
  | tab :: rest =>
    let parts := s.tagParts tab splits
    let seqs := (parts.map (·.1)).dedup
    let sums := seqs.map fun q => (q, ((parts.filter fun e => e.1 == q).map (·.2)).foldl Energy.add (0, 0, 0, 0))
    let sums := sums.filter fun e => Energy.total e.2 != 0
    let given := (sums.map fun e => Energy.total e.2).sum
    let ovh := largestRemainder (tab.ein - given) (sums.map fun e => (e.1, s.tieOrder e.1, Energy.total e.2))
    let t := sums.foldl (fun (u : State) e => u.addEnergy tab.n e.1 e.2) s
    let t := ovh.foldl (fun (u : State) e => u.addEnergy tab.n e.1 (0, 0, 0, e.2)) t
    let t := if tab.degraded then t.markDegraded tab.n else t
    .next (t.mapMtr fun x => { x with
      tables := rest
      shared := tab.n + 1
      flows := x.flows ++ [(tab.n, tab.ein, given + (ovh.map (·.2)).sum, tab.degraded)] })

/-! ### The presence window (R563, R564) -/

/-- Whether the presence window is open. -/
def State.presOpen (s : State) : Bool := s.sealLoop.window.any fun w => decide (s.time < w)

/-- A guarded write: outside the window, or with an injected PRES, ignored, with WLOCK and PRES (R44, R46). -/
def State.guarded (s : State) (pg : Nat) (act : State → State) : State :=
  let (inj, t) : Bool × State := s.injected pg 2
  if t.presOpen && !inj then act t else (t.wlock pg).raise pg 2 clsInfo .none inj []

/-- The staging image is discarded (R507). -/
def State.dropStaging (s : State) : State := (s.mapMtr fun m => { m with staging := none }).setFld pgMTR 0x044 2 1 0

/-- The window closes: CORE_DBG clears, the staging image is discarded, event 0x05. -/
def State.presClose (s : State) : State :=
  match s.sealLoop.window with
  | none => s
  | some _ =>
    let t := ({ s with sealLoop := { s.sealLoop with window := none } } : State).setFld pgSEAL 0x040 9 8 0
    ((t.setFld pgSVC 0x054 0 1 0).dropStaging).event 0x05 (cborMap [(1, cborUint 0)])

/-- PRESENCE_BUTTON: a press of so many milliseconds. -/
def execPresenceButton (ms : Nat) (s : State) : Out :=
  if ms < 50 ∨ 10000 < ms then .next (s.elapse (ms * msec))
  else
    let t := s.elapse (ms * msec)
    let t := ({ t with sealLoop := { t.sealLoop with window := some (t.time + 120 * second) } } : State).setFld pgSEAL 0x040 9 8
      (1 + 2 * 120)
    .next (t.event 0x05 (cborMap [(1, cborUint 1)]))

/-- PRESENCE_EXPIRY: 120 s after the last opening. -/
def execPresenceExpiry (s : State) : Out :=
  match s.sealLoop.window with
  | none => .next s
  | some w => .next ((s.waitTime w).presClose)

/-- PRES_CLOSE. -/
def execPresClose (s : State) : Out := .next s.presClose

/-! ### The seal (R505, R506) -/

/-- SEALCNT: the majority of the three copies (R576). -/
def State.sealBits (s : State) : Nat :=
  let a := (s.fuse 0x01C).v
  let b := (s.fuse 0x01D).v
  let c := (s.fuse 0x01E).v
  (a &&& b) ||| (a &&& c) ||| (b &&& c)

/-- Fuses blown. -/
def State.sealCount (s : State) : Nat := ((List.range 32).filter fun i => bitOf s.sealBits i).length

/-- COUNT and EXHAUSTED. -/
def State.sealRegs (s : State) : State :=
  (s.setFld pgSEAL 0x040 1 6 s.sealCount).setFld pgSEAL 0x040 7 1 (b2n (s.sealCount == 32))

/-- Blows the next fuse in the three words; `ok` whether it verifies within three attempts. -/
def State.blowSeal (s : State) (ok : Bool) : State :=
  match (List.range 32).find? fun i => !bitOf s.sealBits i with
  | none => s.bumpSat pgSEAL 0x050 1
  | some i =>
    let (fails, inj, s) := s.arises pgSEAL 10 (!ok)
    let put := fun (l : List (Nat × Fuse)) (w : Nat) =>
      tblSet (fun _ => Fuse.init) l w { s.fuse w with v := putBits (s.fuse w).v i 1 1 }
    let fuses := [0x01C, 0x01D, 0x01E].foldl put s.nv.fuses
    let t :=
      if !fails then ({ s with nv := { s.nv with fuses := fuses } } : State)
      else (s.setFld pgSEAL 0x040 8 1 1).raise pgSEAL 10 clsUnc .unc inj []
    let u := t.sealRegs
    u.raiseIf pgSEAL 9 clsInfo .none (u.sealCount == 32 && s.sealCount != 32) []

/-- The loop becomes OPEN from CLOSED: the opening is counted within 100 ms, whatever the presence window. -/
def State.sealOpen (s : State) (ok inj : Bool) : State :=
  if !s.flag pgSEAL 0x040 0 then s
  else
    let t := (s.setFld pgSEAL 0x040 0 1 0).blowSeal ok
    let t := (t.setReg64 pgSEAL 0x048 t.time).raise pgSEAL 8 clsInfo .none inj []
    let t : State := { t with
      nv := { t.nv with loopClosed := false }
      sealLoop := { t.sealLoop with opened := true }
      reqs := t.reqs.map fun r => if r.isLive then { r with rflags := r.rflags ||| 1 } else r
      binds := t.binds.map fun (b : Bind) => { b with rflags := b.rflags ||| 1 } }
    t.event 0x06 (cborMap [(1, cborUint t.sealCount)])

/-- SEAL_OPEN: the loop has read open for 10 ms. -/
def execSealOpen (ok : Bool) (s : State) : Out := .next ((s.elapse (10 * msec)).sealOpen ok false)

/-- SEAL_CLOSE: the loop has read closed for 10 ms, an injected opening having ended; a staging image is discarded. -/
def execSealClose (s : State) : Out :=
  let t := match s.sealLoop.injOpen with
    | some a => s.waitTime (a + 20 * msec)
    | none => s
  let t := t.elapse (10 * msec)
  if t.flag pgSEAL 0x040 0 then .next t
  else
    let t := (t.setFld pgSEAL 0x040 0 1 1).dropStaging
    .next { t with nv := { t.nv with loopClosed := true }, sealLoop := { t.sealLoop with injOpen := none } }

/-! ### Calibration (R507, R508) -/

/-- The loop is OPEN and the counter neither exhausted nor locked. -/
def State.calAllowed (s : State) : Bool :=
  !s.flag pgSEAL 0x040 0 && !s.flag pgSEAL 0x040 7 && !s.flag pgSEAL 0x040 8

/-- A refused calibration write inside the window. -/
def State.calDeny (s : State) (inj : Bool) : State := (s.wlock pgMTR).raise pgMTR 8 clsInfo .none inj []

/-- A guarded write of CAL_DATA or CAL_CTRL. -/
def State.calWrite (s : State) (act : State → State) : State :=
  s.guarded pgMTR fun t =>
    let (deny, inj, t) := t.arises pgMTR 8 (!t.calAllowed)
    if deny then t.calDeny inj else act t

/-- CAL_DATA: into the staging image, which the first write applied after an opening copies from the calibration in force. -/
def execCalData (value : Word) (s : State) : Out :=
  .next (s.calWrite fun t =>
    let img := t.mtr.staging.getD t.mtr.cal
    let i := t.fld pgMTR 0x0A0 0 12
    let img := if calDefined i then tblSet (fun _ => (0 : Word)) img i value else img
    (t.mapMtr fun m => { m with staging := some img }).setFld pgMTR 0x044 2 1 1)

/-- An image that R508 refuses. -/
def calBad (l : List (Nat × Word)) : Bool :=
  (calTerms l).any (fun u => decide (100000 < u)) ||
    (List.range 72).any fun n => (List.range 8).any fun k => decide (200000 < calWord l (0x100 + 16 * n + 2 * k))

/-- CAL_COMMIT: the image applies from the next interval; as the first write after an opening it finds the calibration in
force in the image. -/
def execCalCommit (s : State) : Out :=
  .next (s.calWrite fun t =>
    let img := t.mtr.staging.getD t.mtr.cal
    if calBad img then t.calDeny false
    else (t.mapMtr fun m => { m with commit := some img, staging := none }).setFld pgMTR 0x044 2 1 0)

/-- DISCARD. -/
def execDiscard (s : State) : Out := .next (s.calWrite State.dropStaging)

end Sys2Proof.Machine
end

