-- ==== Sys2Proof/Machine/Receipts.lean ====
section
/-! DEFINITION. Receipts, flacons and the signing key (R491 to R504). -/

namespace Sys2Proof.Machine

open Sys2Proof

/-! ### Receipts (R491 to R495) -/

/-- The firmware measurement, 32 bytes (R575). -/
def State.fwMeas (s : State) : List Nat := bytesOf ((List.range 8).map fun i => s.reg (pgGLB 1) (0x060 + 4 * i))

/-- The uncertainty terms of an epoch. -/
def State.termsOf (s : State) (epoch : Nat) : List Nat :=
  ((s.mtr.terms.find? fun e => e.1 == epoch).map (·.2)).getD (calTerms s.mtr.cal)

/-- UNC (R495) of energies in µJ: dyn, stat, shared, overhead, total. -/
def uncertainty (terms : List Nat) (dyn stat shared ovh total : Nat) : Nat :=
  if total = 0 then 1000000
  else (nthD 0 terms 0 * dyn + nthD 0 terms 1 * stat + nthD 0 terms 2 * shared + nthD 0 terms 3 * ovh + 4000000 + total - 1) / total

/-- The CBOR map of Table 17.3. -/
def State.receipt (s : State) (p : Pending) (rnum : Nat) : List Nat :=
  let e := p.energy
  let total := (e.1 + e.2.1 + e.2.2.1 + e.2.2.2) / 1000
  let dyn := e.1 / 1000
  let stat := e.2.1 / 1000
  let shared := e.2.2.1 / 1000
  let ovh := total - dyn - stat - shared
  let epoch := s.nv.epoch
  let a := s.termsOf epoch
  let b := s.termsOf p.epoch
  let terms := if bitOf p.rflags 2 then [100000, 100000, 100000, 100000]
    else if p.epoch = epoch then a else List.zipWith max a b
  let opt := fun (k : Nat) (on : Bool) (v : Nat) => if on then [(k, cborUint v)] else []
  cborMap (
    [(1, cborBytes (le 16 p.reqid)), (2, cborBytes (le 8 s.modid)), (3, cborUint p.role), (4, cborUint p.mode),
     (5, cborTime p.start), (6, cborTime p.end_), (7, cborUint total), (8, cborUint dyn), (9, cborUint stat),
     (10, cborUint shared), (11, cborUint ovh), (12, cborUint (uncertainty terms dyn stat shared ovh total)),
     (13, cborArr [cborUint p.tokens.1, cborUint p.tokens.2.1, cborUint p.tokens.2.2]), (14, cborUint epoch)] ++
    opt 15 (p.epoch != epoch) p.epoch ++
    [(16, cborUint s.sealCount), (17, cborBytes s.fwMeas), (18, cborUint p.outcome),
     (19, cborUint (p.rflags ||| if s.flag pgSEAL 0x040 7 then 2 else 0)), (20, cborUint p.taiErr), (21, cborUint rnum),
     (22, cborUint (s.reg pgRCP 0x048)), (23, cborArr [cborUint p.firstIv, cborUint p.interval]),
     (24, cborBytes (le 8 p.hash)), (25, cborUint p.seq)] ++
    opt 26 p.reason.isSome (p.reason.getD 0))

/-- A receipt whose last interval has been divided: that of the lowest slot. -/
def State.sealable (s : State) : Option Pending :=
  (s.rcp.waiting.filter fun p => decide (p.interval < s.mtr.shared)).foldl (fun (b : Option Pending) p =>
    match b with
    | none => some p
    | some q => if p.slot < q.slot then some p else some q) none

/-- Seals one receipt. -/
def State.sealReceipt (s : State) (p : Pending) : State :=
  let n := s.reg64 pgRCP 0x058
  let t := s.mapRcp fun x => { x with
    waiting := x.waiting.erase p
    sealed := x.sealed ++ [(s.time, n, s.receipt p n)] }
  let t := { t with binds := t.binds.filter fun (b : Bind) => b.seq != p.seq || !b.opened }
  t.setReg64 pgRCP 0x058 (n + 1)

/-- RECEIPT_SEAL. -/
def execReceiptSeal (s : State) : Out :=
  match s.sealable with
  | none => .next s
  | some p => .next (s.sealReceipt p)

/-! ### Flacons (R496 to R500) -/

/-- One flacon period in device-time units. -/
def period : Nat := 1600000000

/-- KEYID of a key identity (R501). -/
def keyIdBytes (k : Nat) : List Nat := (sha256 (Config.hssPublic k)).take 16

/-- RCP_KEYID shows the key in use. -/
def State.showKey (s : State) : State :=
  (List.range 4).foldl (fun (t : State) i =>
    t.setReg pgRCP (0x070 + 4 * i) (fromLe ((keyIdBytes s.rcp.keyId).drop (4 * i) |>.take 4))) s

/-- RCP_STATUS follows the engine: ROLLING, and the number of flacons held. -/
def State.rcpStatus (s : State) : State :=
  (s.setFld pgRCP 0x040 1 1 (b2n s.rcp.rolling.isSome)).setFld pgRCP 0x040 16 16 (min s.rcp.held.length 65535)

/-- The items of a flacon's payload known when its period ends; `receipts` are its receipts with their RNUM. -/
def State.flaconItems (s : State) (f : Nat) (receipts : List (Nat × List Nat)) (next : Nat) : List (Nat × List Nat) :=
  let mine := s.mtr.flows.filter fun e => decide (100 * f ≤ e.1) && decide (e.1 < 100 * f + 100)
  let ein := (mine.map fun e => e.2.1).sum / 1000
  let attr := (mine.map fun e => e.2.2.1).sum / 1000
  let flags := b2n s.sealLoop.opened + 2 * b2n (s.flag pgSEAL 0x040 7) + 4 * b2n (mine.any fun e => e.2.2.2) +
    8 * b2n (!s.serving)
  let leaves := receipts.map fun r => merkleLeaf r.2
  [(1, cborBytes (le 8 s.modid)), (2, cborUint (s.reg pgRCP 0x048)), (3, cborUint f), (4, cborTime (s.taiPair (f * period))),
   (5, cborUint receipts.length), (6, cborBytes (merkleRoot (leaves.length + 1) leaves)), (8, cborUint next),
   (9, cborUint ein), (10, cborUint attr), (11, cborUint (ein - attr)), (12, cborUint s.nv.epoch),
   (13, cborUint s.sealCount), (14, cborBytes s.fwMeas), (15, cborUint flags),
   (17, cborArr ((s.termsOf s.nv.epoch).map cborUint))]

/-- The protected header {1: −46}. -/
def coseHead : List Nat := cborMap [(1, cborInt (-46))]

/-- Items in ascending key order. -/
def sortItems (l : List (Nat × List Nat)) : List (Nat × List Nat) :=
  (List.range 19).filterMap fun k => l.find? fun e => e.1 == k

/-- The COSE_Sign1 message of a payload (R499): key, signature index. -/
def coseSign (key q : Nat) (payload : List Nat) : List Nat :=
  let tbs := cborArr [cborText [0x53, 0x69, 0x67, 0x6E, 0x61, 0x74, 0x75, 0x72, 0x65, 0x31], cborBytes coseHead, cborBytes [],
    cborBytes payload]
  cborTag 18 (cborArr [cborBytes coseHead, cborMap [(4, cborBytes (keyIdBytes key))], cborBytes payload,
    cborBytes (Config.hssSign key q tbs)])

/-! ### Signature indices (R502, R504) -/

/-- First index beyond the reserved blocks. -/
def State.showRsv (s : State) : State := s.setReg64 pgRCP 0x068 (1024 * s.nv.rsv)

/-- One more block is reserved. -/
def State.reserve (s : State) : State := ({ s with nv := { s.nv with rsv := s.nv.rsv + 1 } } : State).showRsv

/-- A reservation cannot be written: RSVFAIL, and signing stops. -/
def State.rsvFail (s : State) (inj : Bool) : State :=
  (s.mapRcp fun x => { x with failing := some s.time, tried := s.time }).raise pgRCP 8 clsUnc .unc inj []

/-- Takes the next signature index: reserves a block where none is left, and the next one at 512 from the end. `ok` is
whether a reservation can be written. -/
def State.takeIndex (s : State) (ok : Bool) : Option Nat × State :=
  let q := s.reg64 pgRCP 0x060
  let none_ := decide (1024 * s.nv.rsv ≤ q)
  let need := decide ((q + 1) % 1024 = 512) && decide (1024 * s.nv.rsv ≤ q + 512)
  let (fails, inj, s) := if none_ || need then s.arises pgRCP 8 (!ok) else (false, false, s)
  if none_ && fails then (none, s.rsvFail inj)
  else
    let t := if none_ then s.reserve else s
    let t := t.setReg64 pgRCP 0x060 (q + 1)
    let t := if (q + 1) % 2 ^ 20 = 0 then t.setFld pgRCP 0x040 2 1 0 else t
    let t := t.raiseIf pgRCP 10 clsInfo .none (decide (2 ^ 40 - (q + 1) < 2 ^ 24)) []
    (some q, if need && !none_ then (if fails then t.rsvFail inj else t.reserve) else t)

/-- Sends a signed flacon and its receipts to one connection (R556). -/
def State.deliver (s : State) (conn : Nat) (f : Flacon) : State :=
  let leaves := f.receipts.map merkleLeaf
  let t := s.send (.mgmt conn) "FLACON" f.cose
  ((List.range f.receipts.length).zip f.receipts).foldl (fun (u : State) e =>
    let path := merklePath leaves.length e.1 leaves
    u.send (.mgmt conn) "RECEIPT" (le 8 f.fnum ++ le 4 e.1 ++ le 1 path.length ++ path.flatten ++ e.2)) t

/-- Delivery-store size in bytes. -/
def storeBytes (l : List Flacon) : Nat := (l.map fun f => f.cose.length + (f.receipts.map List.length).sum).sum

/-- Admissions are held above 4 GiB of unacknowledged store until it falls below 3 GiB (R558). -/
def State.storeCheck (s : State) : State :=
  let n := storeBytes s.rcp.store
  s.mapRcp fun x => { x with full := decide (2 ^ 32 < n) || (x.full && decide (3 * 2 ^ 30 ≤ n)) }

/-- The switch to a new key: its KEYLINK is signed with the old one and goes into the next flacon signed (R503); the new key
then signs from its first index, in a block of its own. `false`: no index of the old key could be used. -/
def State.keySwitch (s : State) (new : Nat) (ok : Bool) : Bool × State :=
  match s.takeIndex ok with
  | (none, t) => (false, t)
  | (some q, t) =>
    let pub := Config.hssPublic new
    let link := pub ++ Config.hssSign t.rcp.keyId q pub
    let u := t.mapRcp fun x => { x with keyId := new, newKey := none, link := some link }
    let u := (({ u with nv := { u.nv with rsv := 0 } } : State).setReg64 pgRCP 0x060 0).showRsv
    (true, (u.showKey).setFld pgRCP 0x040 2 1 0)

/-- Signs the oldest flacon held, if nothing stops it. -/
def State.signOne (s : State) (ok : Bool) : Option State :=
  match s.rcp.held with
  | [] => none
  | f :: rest =>
    if s.halting pgRCP || !s.enabled pgRCP || s.rcp.failing.isSome then none
    else
      let (switched, t) : Bool × State := match s.rcp.newKey with
        | some k => s.keySwitch k ok
        | none => (true, s)
      if !switched then some t
      else match t.takeIndex ok with
        | (none, u) => some u
        | (some q, u) =>
          let prev := bytesOf ((List.range 8).map fun i => u.reg pgRCP (0x080 + 4 * i))
          let items := f.payload ++ [(7, cborBytes prev), (16, cborBytes (keyIdBytes u.rcp.keyId))] ++
            (match u.rcp.link with
              | some l => [(18, cborBytes l)]
              | none => [])
          let g : Flacon := { f with cose := coseSign u.rcp.keyId q (cborMap (sortItems items)) }
          let h := sha256 g.cose
          let u := (List.range 8).foldl (fun (v : State) i => v.setReg pgRCP (0x080 + 4 * i) (fromLe ((h.drop (4 * i)).take 4))) u
          let u := (u.setReg64 pgRCP 0x050 f.fnum).mapRcp fun x => { x with held := rest, link := none, store := x.store ++ [g] }
          let u := u.raiseIf pgRCP 9 clsInfo .none (decide ((f.fnum + 1) * period + 20 * msec < u.time)) [f.fnum]
          some (((u.subs.filter fun x => bitOf x.flags 1).foldl (fun (v : State) x => v.deliver x.conn g) u).storeCheck)

/-- Signs in FNUM order as far as possible. -/
def signHeld : Nat → Bool → State → State
  | 0, _, s => s
  | n + 1, ok, s =>
    match s.signOne ok with
    | none => s
    | some t => signHeld n ok t

def State.signAll (s : State) (ok : Bool) : State := (signHeld s.rcp.held.length ok s).rcpStatus

/-- FLACON_BUILD: the flacon of the period that ends; `ok` is whether a reservation that its signature needs can be written.
Its intervals have been divided first. -/
def execFlaconBuild (ok : Bool) (s : State) : Out :=
  let f := s.rcp.next
  let t := s.waitTime ((f + 1) * period)
  let last := 100 * f + 99
  if t.mtr.intervals.any (fun i => decide (i.n ≤ last)) || t.mtr.tables.any fun x => decide (x.n ≤ last) then .next s
  else
    let mine := (t.rcp.sealed.filter fun r => decide (r.1 < (f + 1) * period)).take 65536
    let left := t.rcp.sealed.drop mine.length
    let next := match mine.head? with
      | some r => r.2.1
      | none => (left.head?.map fun r => r.2.1).getD (t.reg64 pgRCP 0x058)
    let items := t.flaconItems f (mine.map fun r => r.2) next
    let u := t.mapRcp fun x => { x with
      sealed := left
      next := f + 1
      held := x.held ++ [⟨f, [], items, mine.map fun r => r.2.2⟩] }
    let u := u.mapMtr fun m => { m with
      flows := m.flows.filter fun e => decide (last < e.1)
      terms := m.terms.filter fun e => e.1 == u.nv.epoch || u.reqs.any (fun r => r.epoch == e.1) ||
        u.binds.any (fun (b : Bind) => b.epoch == e.1) || u.rcp.waiting.any fun p => p.epoch == e.1 }
    let u := { u with sealLoop := { u.sealLoop with opened := !u.flag pgSEAL 0x040 0 } }
    .next (u.signAll ok)

/-- RESERVATION_RETRY: every 1 s while a reservation fails. -/
def execReservationRetry (ok : Bool) (s : State) : Out :=
  match s.rcp.failing with
  | none => .next s
  | some _ =>
    let t := s.waitTime (s.rcp.tried + second)
    if ok then
      let u := (t.reserve).mapRcp fun x => { x with failing := none, admitHold := false }
      .next (u.signAll true)
    else .next ((t.mapRcp fun x => { x with tried := t.time }).raise pgRCP 8 clsUnc .unc false [])

/-- SIGNING_STALL: replace-requested after 60 s of failure, admissions held after 3,600 s (R504). -/
def execSigningStall (s : State) : Out :=
  match s.rcp.failing with
  | none => .next s
  | some a =>
    if bitOf (s.reg (pgFLT 3) 0x040) 7 then
      .next ((s.waitTime (a + 3600 * second)).mapRcp fun x => { x with admitHold := true })
    else .next ((s.waitTime (a + 60 * second)).replace causeSigning)

/-! ### Rollover (R503) -/

/-- ROLLOVER: a guarded write. -/
def execRollover (s : State) : Out :=
  .next (s.guarded pgRCP fun t =>
    if t.rcp.rolling.isSome || t.rcp.newKey.isSome then t
    else (t.mapRcp fun x => { x with rolling := some t.time }).rcpStatus)

/-- ROLLOVER_DONE: the new key is ready; the next flacon signed carries KEYLINK. -/
def execRolloverDone (s : State) : Out :=
  match s.rcp.rolling with
  | none => .next s
  | some _ => .next ((s.mapRcp fun x => { x with rolling := none, newKey := some (x.keyId + 1) }).rcpStatus)

/-- NEXT_TREE_READY: the next level-1 tree, whose generation starts once half of the current one has been used (R502). -/
def execNextTreeReady (s : State) : Out :=
  if 2 ^ 19 ≤ s.reg64 pgRCP 0x060 % 2 ^ 20 then .next (s.setFld pgRCP 0x040 2 1 1) else .next s

end Sys2Proof.Machine
end

