-- ==== Sys2Proof/Machine/Faults.lean ====
section
/-! DEFINITION. Error reports, the log, classification of poison, refetch and re-issue, in-place restart, field screening,
the loupe's controls (chapter 18). -/

namespace Sys2Proof.Machine

open Sys2Proof

/-! ### Error events of any page (R42 to R45, R524) -/

/-- Block-specific PG_ERR bits that a block type defines, on the page that carries them: how many from bit 8 up. -/
def errBits (ty : Nat) : Nat :=
  if ty == tyMXA then 5 else if ty == tySEQ then 2 else if ty == tyVXE then 2 else if ty == tyDMX then 4
  else if ty == tyTEL then 2 else if ty == tySYN then 5 else if ty == tySPD then 5 else if ty == tyRTR then 9
  else if ty == tyMCC then 7 else if ty == tyMPH then 4 else if ty == tyOEN then 4 else if ty == tyOPT then 7
  else if ty == tyCLK then 4 else if ty == tyTIM then 3 else if ty == tyPRG then 7 else if ty == tyPWR then 6
  else if ty == tyMTR then 4 else if ty == tyRCP then 4 else if ty == tySEAL then 3 else if ty == tyFLT then 4
  else if ty == tySVC then 4 else if ty == tyGLB then 4 else if ty == tyFUS then 3 else if ty == tyPAIR then 3 else 0

/-- Bits counted as corrected, by type. -/
def corrBits (ty : Nat) : List Nat :=
  if ty == tyMXA then [8] else if ty == tySPD then [9] else if ty == tyRTR then [8, 14] else if ty == tyMCC then [8, 9]
  else if ty == tyOEN then [8] else if ty == tyOPT then [8, 9] else if ty == tyCLK then [10] else if ty == tyPRG then [8]
  else if ty == tyFUS then [8] else []

/-- Bits counted as uncorrected, by type. -/
def uncBits (ty : Nat) : List Nat :=
  if ty == tyMXA then [9, 12] else if ty == tySEQ then [8] else if ty == tyDMX then [11] else if ty == tySYN then [9, 10, 11, 12]
  else if ty == tySPD then [8, 10] else if ty == tyRTR then [9, 11, 12, 13, 16] else if ty == tyMCC then [10]
  else if ty == tyMPH then [8] else if ty == tyOEN then [9] else if ty == tyOPT then [10, 11] else if ty == tyCLK then [8, 9]
  else if ty == tyTIM then [8] else if ty == tyPRG then [9, 10, 13] else if ty == tyPWR then [11, 13]
  else if ty == tyMTR then [10, 11] else if ty == tyRCP then [8, 11] else if ty == tySEAL then [10] else if ty == tySVC then [8]
  else if ty == tyGLB then [9] else if ty == tyFUS then [9] else if ty == tyPAIR then [9] else []

/-- Whether a page defines an error bit: the common bits, and on the block's first page its own. -/
def errDefined (pg bit : Nat) : Bool :=
  decide (bit < 4) || (pgPage pg == 0 && decide (8 ≤ bit) && decide (bit < 8 + errBits (pgTy pg)))

/-- ERR_REPORT: an event sets a PG_ERR bit of a page and, unless masked, is reported. -/
def execErrReport (page : Nat) (bit : Fin 32) (s : State) : Out :=
  let b := bit.val
  if !pageExists page || !errDefined page b then .next s
  else
    let (inj, t) : Bool × State := s.injected page b
    let ty := pgTy page
    if (corrBits ty).contains b then .next (t.raise page b clsCorr .corr inj [])
    else if (uncBits ty).contains b then
      .next (t.raise page b (if ty == tySEQ then clsCtx else clsUnc) .unc inj [])
    else .next (t.raise page b clsInfo .none inj [])

/-! ### Collectors and the log (R525 to R531) -/

/-- COLLECTOR_INTERVAL: the end of a 1 ms interval at one collector. -/
def execCollectorInterval (k : Fin 13) (s : State) : Out :=
  let t := s.waitTime (nextMs s.time)
  let c := t.coll k.val
  let u := closeEntries k.val c.entries [] t
  let u := closeOverflow k.val c.overflow [] u
  .next (State.fltRaise u.drain t)

/-- FLT_POP. -/
def execFltPop (s : State) : Out :=
  let t : State := { s with log := s.log.drop 1 }
  .next (State.fltRaise t.drain t)

/-- SW_SUBMIT (R531): the record in FLT_SW_0 to FLT_SW_15. -/
def execSwSubmit (s : State) : Out :=
  let w := fun (i : Nat) => s.reg (pgFLT 2) (0x040 + 4 * i)
  if w 4 = 0 || s.injPend (pgFLT 0) 11 then .next (s.raise (pgFLT 0) 11 clsInfo .none false [])
  else
    let r : LogRec := ⟨w 0 + w 1 * 2 ^ 32, w 2 + w 3 * 2 ^ 32, w 4, w 5, w 6 % 2 ^ 8, bitsOf (w 6) 8 8, bitsOf (w 6) 16 8 ||| 8,
      12, 0, (List.range 8).map fun i => w (8 + i)⟩
    let t := s.collectAs 12 r
    .next (State.fltRaise t s)

/-- FLT_REPLACE_SET (R532). -/
def execFltReplaceSet (bits : BitVec 12) (s : State) : Out := .next (s.replace bits.toNat)

/-! ### Poison (R517 to R521) -/

/-- The LTN whose restore list contains the byte range of an origin, if it is a weight origin (R518). -/
def State.weightLtn (s : State) (o : Origin) : Option Nat :=
  match o.ltn with
  | none => none
  | some n =>
    match s.tileImg n with
    | none => none
    | some img =>
      if img.rlist.any fun e => decide (e.off < 4 * o.address + 4) && decide (4 * o.address < e.off + e.len) then some n else none

/-- The stages whose exposure counts for work: every stage for a step or a chunk, which runs all of them; for a QUERY of a layer
those of the layer's lanes. -/
def State.ranStage (s : State) (layer : Option Nat) (n : Nat) : Bool :=
  match s.job, layer with
  | some j, some l =>
    let stages := fun (x : Nat) => (List.range j.place.base.stages.length).filter fun k => (s.stage k).ltns.contains x
    (j.cfg.layer l).lanes.any fun x => x == n || (stages x).any (stages n).contains
  | _, _ => true

/-- Weight origins that work in progress from `a` to `b` was exposed to (R518). -/
def State.exposing (s : State) (layer : Option Nat) (a b : Nat) : List Origin :=
  s.origins.filter fun o => ((s.weightLtn o).any (s.ranStage layer)) && decide (o.time ≤ b) && decide (a ≤ o.done.getD b)

/-- Data origins are forgotten once classified, and weight origins that no work in progress can be exposed to. -/
def State.pruneOrigins (s : State) : State :=
  let oldest := ((s.reqs.filterMap fun r => r.step.map (·.at_)) ++ s.heldQ.map (·.since)).foldl min s.time
  { s with origins := s.origins.filter fun o => (s.weightLtn o).isSome && o.done.all fun d => decide (oldest ≤ d) }

/-- POISON_CLASSIFY: the held result of a sequence's step or chunk (its slot), or of a QUERY (its place among those held).
Exposed to a weight origin it waits for re-issue; otherwise its sequence fails, and a Cache module sends the PARTIAL with
its POISON records. -/
def execPoisonClassify (query : Bool) (n : Nat) (s : State) : Out :=
  match s.job with
  | none => .next s
  | some j =>
    if query then
      match s.heldQ[n]? with
      | none => .next s
      | some h =>
        let t := s.waitTime (h.since + 20 * usec)
        if !(t.exposing (some h.query.layer) h.since h.since).isEmpty then .next t
        else
          match t.queryRecords j.cfg h.query true with
          | .error _ => .next { t with heldQ := t.heldQ.erase h }
          | .ok (recs, _) =>
            let u : State := { t with
              heldQ := t.heldQ.erase h
              binds := t.binds.map fun (b : Bind) => if b.seq == h.query.seq then { b with failed := true } else b }
            let u := u.fwRecord fwFailed clsUnc [h.query.cslot, 0x12, h.query.seq % 2 ^ 32, h.query.seq / 2 ^ 32]
            .next (((u.freeOldDirs h.query.cslot).send (.fabric h.query.src) "PARTIAL"
              (partialMsg h.query 0 (u.seqEnt j.cfg h.query.cslot).j recs)).pruneOrigins)
    else
      match s.reqAt n with
      | none => .next s
      | some r =>
        match r.step with
        | none => .next s
        | some st =>
          if !st.bad then .next s
          else
            let t := s.waitTime (st.fin + 20 * usec)
            if (t.exposing none st.at_ st.fin).isEmpty then .next ((t.endReq n 0x12).pruneOrigins)
            else
              let t := t.setReq n fun x => { x with step := some { st with bad := false, again := true } }
              .next { t with attns := t.attns.filter fun a => a.slot != n }

/-- Whether a site's source of a POISON report is coalescing (R521). -/
def State.poisonStorm (s : State) (site : Nat) : Bool :=
  (s.coll (facetOf site)).entries.any fun e => e.pgid == pgSPD site 0 && e.bit == 10

/-- WEIGHT_REFETCH (R520, R521): for the origin of that place in the list. Both copies poisoned is WEIGHTS_LOST (R360). -/
def execWeightRefetch (n : Nat) (s : State) : Out :=
  match s.origins[n]? with
  | none => .next s
  | some o =>
    match s.weightLtn o with
    | none => .next s
    | some ltn =>
      let whole := s.poisonStorm o.place
      let lo := if whole then 0 else 4 * o.address
      let hi := if whole then spadBytes else 4 * o.address + 4
      let (t, lost) := s.refetch ltn lo hi
      if lost then
        match s.job.bind fun j => j.records.find? fun r => r.ltn == ltn with
        | some r => .next (t.weightsLost r.stage)
        | none => .next t
      else
        let t := t.fwRecord fwRefetch clsInfo [ltn, o.address]
        .next ({ t with origins := t.origins.map fun x =>
          if x.ltn == o.ltn && decide (lo ≤ 4 * x.address) && decide (4 * x.address < hi) then
            { x with done := some (x.done.getD t.time) } else x } : State).pruneOrigins

/-- STEP_REISSUE (R519): after the refetch, the held step or chunk of a slot with the values its rows compute again, or the
held QUERY of that place. -/
def execStepReissue (query : Bool) (n : Nat) (work : SeqWork) (s : State) : Out :=
  match s.job with
  | none => .next s
  | some j =>
    if query then
      match s.heldQ[n]? with
      | none => .next s
      | some h =>
        let os := s.exposing (some h.query.layer) h.since h.since
        if os.isEmpty || os.any (·.done.isNone) then .next s
        else .next (({ s with heldQ := s.heldQ.erase h } : State).runQuery j.cfg h.query true)
    else
      match s.reqAt n with
      | none => .next s
      | some r =>
        match r.step with
        | none => .next s
        | some st =>
          if !st.again || (s.exposing none st.at_ st.fin).any (·.done.isNone) || work.kv.length != st.kv.length then .next s
          else
            let t := s.setReq n fun x => { x with
              step := some { st with kv := work.kv, at_ := s.time, again := false, fin := 0 } }
            if j.cfg.role = 2 then
              .next ((work.qs.foldl (fun (u : State) e =>
                if j.cfg.first ≤ e.1 ∧ e.1 < j.cfg.first + j.cfg.count then u.startAttn j.cfg r work.kv e.1 e.2 else u) t).pruneOrigins)
            else .next t.pruneOrigins

/-! ### In-place restart (R513) -/

/-- IN_PLACE_RESTART: the substitution sequence with the LTN's own site as candidate; scratchpad ranges named, or the whole
restore list; whether the sequencer image is repaired. The stage then drains, and SUBST_SWITCH goes on. -/
def execInPlaceRestart (ltn : BitVec 11) (ranges : List (Nat × Nat)) (image : Bool) (s : State) : Out :=
  let n := ltn.toNat
  let x := s.ltnSite n
  match s.tileImg n, s.job.bind fun j => j.records.find? fun r => r.ltn == n with
  | some img, some r =>
    if s.siteClass x ≠ .bound then .next s
    else
      let t := (s.stageSites r.stage).foldl (fun (u : State) y => u.askHalt (pgSEQ y 0)) s
      let list := if ranges.isEmpty then img.rlist
        else img.rlist.filter fun e => ranges.any fun g => decide (e.off < g.2) && decide (g.1 < e.off + e.len)
      let t := if image then t.installImage x img.seqImg else t
      match t.restore x list with
      | none => .next (t.weightsLost r.stage)
      | some u =>
        let c : Cand := ⟨x, [], []⟩
        let u := u.mapJob fun j => { j with
          substs := (j.substs.filter fun w => w.ltn != n) ++ [⟨n, x, some c, r.stage, none, true, false, false⟩] }
        .next (u.setStage r.stage .draining)
  | _, _ => .next s

/-! ### Field screening (R534 to R539) -/

/-- Whether a screening run may start on a site. -/
def State.screenOk (s : State) (site : Nat) : Bool :=
  let c := s.siteClass site
  (c == .spare || c == .idle) && decide (8 < s.spareCount) && (s.step == 0 || decide (s.fastest < s.step)) &&
    s.stepPend.isNone &&
    [1, 2, 3, 4].all fun k => !s.reasonOn k && s.ctl.lastActive.all fun e => e.1 != k || decide (e.2 + 100 * msec ≤ s.time)

/-- ADJ of a run in units of 5 mV: 5 below the current value, or 7 at step 0, clamped at −10. -/
def State.screenAdj (s : State) (site : Nat) : Int :=
  max (-10) (sext 5 (s.fld (pgPRG (regionOf site)) 0x044 0 5) - (if s.step = 0 then 7 else 5))

/-- What a screening run shows. -/
def ScreenRes.verdict (r : ScreenRes) : Nat :=
  if r.fault then 1 else if r.abort.isSome then 2 else if r.failing.isSome then 1 else 0

/-- SCREENING_RUN: on a site, with an installed pack. Where the run may not start, its verdict is SKIPPED. The step, ADJ and
SCREEN_RSV are back at their values at its end. -/
def execScreeningRun (site : Site) (pack : Nat) (res : ScreenRes) (s : State) : Out :=
  let x := site.val
  match s.nv.packs.find? fun p => p.1 == pack with
  | none => .next s
  | some (id, ver) =>
    let go := s.screenOk x
    let start := s.taiPair s.time
    let rsv := s.fld pgPWR 0x04C 0 14
    let body := fun (t : State) (verdict : Nat) =>
      let opt := fun (k : Nat) (v : Option Nat) => (v.toList.map fun a => (k, cborUint a))
      t.event 0x04 (cborMap ([(1, cborBytes (le 8 s.modid)), (2, cborUint id), (3, cborUint ver), (4, cborUint x),
        (5, cborArr [cborUint (s.step - 1), cborInt (5 * s.screenAdj x), cborInt ((res.peak : Int) / 16 - 40)]),
        (6, cborTime start), (7, cborUint verdict)] ++
        (if verdict = 3 then [] else opt 8 (if res.abort.isSome then res.abort else res.failing) ++ opt 9 res.page) ++
        [(10, cborBytes s.fwMeas)]))
    if !go then .next (body s 3)
    else
      let t := ((s.setFld pgPWR 0x04C 0 14 600).setFld pgPWR 0x05C 8 1 1).countReasons
      let t := t.elapse (min res.ms 2000 * msec)
      let t := t.sensor x (res.peak % 2 ^ 12)
      let t := res.left.foldl (fun (u : State) e => u.spadStore x (e.1 % spadWords) ⟨e.2 % 2 ^ 32, false⟩) t
      let t := ((t.setFld pgPWR 0x04C 0 14 rsv).setFld pgPWR 0x05C 8 1 0).countReasons
      let t := if res.verdict = 1 then t.dropSite x else t
      .next (body t res.verdict)

/-! ### The loupe (R540, R542) -/

/-- ARM. -/
def execArm (facet : Facet) (s : State) : Out :=
  let f := facet.val
  if !s.enabled (pgLOUPE f) || s.halting (pgLOUPE f) then .next s
  else
    let t := s.setLoupe f { s.loupeOf f with armed := true, triggered := false, stopped := false, postLeft := 0 }
    .next (t.setBlk (blkId tyLOUPE f) { t.blk (blkId tyLOUPE f) with run := true })

/-- STOP. -/
def execStop (facet : Facet) (s : State) : Out :=
  if (s.loupeOf facet.val).armed then .next (s.loupeStop facet.val) else .next s

/-- CLEAR. -/
def execClear (facet : Facet) (s : State) : Out :=
  .next (s.setLoupe facet.val { s.loupeOf facet.val with entries := [] })

end Sys2Proof.Machine
end

