-- ==== Sys2Proof/Machine/Broadcast.lean ====
section
/-! DEFINITION. Multicasts (R262) and the broadcast of tile firmware (R565 to R570). -/

namespace Sys2Proof.Machine

open Sys2Proof

/-! ### A site's staging bank -/

def bcReset (_ : Nat) : BcSite := BcSite.init

/-- A site's broadcast state. -/
def State.bcSite (s : State) (x : Nat) : BcSite := tblGet bcReset s.bc x
def State.setBcSite (s : State) (x : Nat) (b : BcSite) : State := { s with bc := tblSet bcReset s.bc x b }

/-- Bytes of a chunk, and how many chunks an image has (R565). -/
def chunkBytes : Nat := 116
def chunksOf (len : Nat) : Nat := (len + chunkBytes - 1) / chunkBytes

/-- Clears a staging bank. -/
def State.clearStaging (s : State) (x : Nat) : State :=
  { s with staging := memClear s.staging (imemKey x 0) (imemKey (x + 1) 0) }

/-- SHA-256 of the staged bytes. -/
def State.stagedHash (s : State) (x len : Nat) : List Nat :=
  sha256 ((List.range len).map fun i => memByte s.staging (imemKey x i))

/-- BC_HASH as bytes. -/
def State.bcHash (s : State) : List Nat := bytesOf ((List.range 8).map fun i => s.reg pgSVC (0x0A0 + 4 * i))

/-- A chunk of 32 words arrives at a site (R566). -/
def State.takeChunk (s : State) (x : Nat) (ws : List Nat) : State :=
  let img := nthD 0 ws 0 % 2 ^ 16
  let c := nthD 0 ws 0 / 2 ^ 16 % 2 ^ 16
  let len := nthD 0 ws 1 % 2 ^ 19
  if ws.length ≠ 32 ∨ crc32c (bytesOf (ws.take 31)) ≠ nthD 0 ws 31 ∨ chunksOf len ≤ c ∨ imemBytes < len ∨ !s.siteOn x then s
  else
    let b := s.bcSite x
    let fresh := !(b.st == 1 || b.st == 2 || b.st == 3) || b.img != img
    let t := if fresh then s.clearStaging x else s
    let b : BcSite := if fresh then ⟨1, img, len, [], [], none, false⟩ else b
    let bytes := (bytesOf ((ws.drop 2).take 29)).take (len - chunkBytes * c)
    let t := { t with staging := memSetBytes t.staging (imemKey x (chunkBytes * c)) bytes }
    let b := { b with have_ := if b.have_.contains c then b.have_ else b.have_ ++ [c] }
    if chunksOf b.len ≤ b.have_.length then
      let h := t.stagedHash x b.len
      t.setBcSite x { b with sha := h, st := if h = t.bcHash then 2 else 3 }
    else t.setBcSite x b

/-- A COMMIT arrives at a site (R569): one without the image verified ignores it. -/
def State.takeCommit (s : State) (x img t : Nat) : State :=
  let b := s.bcSite x
  if b.st = 2 ∧ b.img = img ∧ s.siteOn x then s.setBcSite x { b with commit := some t, late := decide (t < s.time) } else s

/-- An ABORT arrives at a site (R570): what is staged is discarded. -/
def State.takeAbort (s : State) (x : Nat) : State :=
  let b := s.bcSite x
  if b.st = 1 ∨ b.st = 2 ∨ b.st = 3 then (s.clearStaging x).setBcSite x BcSite.init else s

/-- Multicast classes: chunk, commit, abort, channel-map update. -/
def clChunk : Nat := 0x10
def clCommit : Nat := 0x11
def clAbort : Nat := 0x12
def clChanMap : Nat := 0x20

/-- What a delivered multicast does at a site. A chunk waits there to be stored. -/
def State.castDeliver (s : State) (cls : Nat) (ws : List Nat) (x : Nat) : State :=
  if cls = clCommit then s.takeCommit x (nthD 0 ws 0 % 2 ^ 16) (nthD 0 ws 1 + nthD 0 ws 2 * 2 ^ 32)
  else if cls = clAbort then s.takeAbort x
  else if cls = clChanMap then
    s.applyUpdate x (bitsOf (nthD 0 ws 0) 0 9) (bitsOf (nthD 0 ws 0) 16 9) (nthD 0 ws 1 % 2 ^ 9)
  else { s with delivered := s.delivered ++ [(x, cls, ws)] }

/-- A multicast of a class over a rectangle; copies at the routers and ports of `bad` fail their CRC. -/
def State.castAll (s : State) (rect cls : Nat) (ws : List Nat) (bad : List (Nat × Nat)) : State :=
  let (sites, t) := s.mcast rect bad
  sites.foldl (fun (u : State) x => u.castDeliver cls ws x) t

/-- MCAST (R262): a multicast of a class is delivered at every site of the rectangle that its branches reach. -/
def execMcast (rect : Word) (cls : BitVec 8) (words : List Word) (bad : List (Nat × Nat)) (s : State) : Out :=
  .next (s.castAll rect.toNat cls.toNat (words.map (·.toNat)) bad)

/-- BROADCAST_CHUNK (R566): the oldest chunk delivered at a site is stored; `intact` is whether it arrived whole. -/
def execBroadcastChunk (site : Site) (intact : Bool) (s : State) : Out :=
  let x := site.val
  let mine := fun (d : Nat × Nat × List Nat) => d.1 == x && d.2.1 == clChunk
  match s.delivered.find? mine with
  | none => .next s
  | some (_, _, ws) =>
    let t : State := { s with delivered := dropFirst mine s.delivered }
    .next (if intact then t.takeChunk x ws else t)

/-! ### The broadcast engine -/

/-- The words of chunk `c` of an image. -/
def chunkWords (img c : Nat) (bytes : List Nat) : List Nat :=
  let part := (bytes.drop (chunkBytes * c)).take chunkBytes
  let ws := [img + c * 2 ^ 16, bytes.length] ++ wordsOf (part ++ List.replicate (chunkBytes - part.length) 0)
  ws ++ [crc32c (bytesOf ws)]

/-- Sends chunks of the image in use; copies of a chunk fail their CRC at the routers and ports that `bad` gives it. -/
def State.sendChunks (s : State) (rect : Nat) (cs : List Nat) (bad : List (Nat × Nat × Nat)) : State :=
  let img := s.fld pgSVC 0x084 0 16
  cs.foldl (fun (t : State) c => t.castAll rect clChunk (chunkWords img c t.bcast.image)
    ((bad.filter fun e => e.1 == c).map (·.2))) s

/-- The image at BC_SRC: from bulk memory, or, where the address lies in the service SRAM, as given. -/
def State.bcSource (s : State) (sram : List (BitVec 8)) : List Nat :=
  let a := s.reg64 pgSVC 0x090
  let n := s.fld pgSVC 0x088 0 19
  if 0x1000_0000_0000 ≤ a then (bytesOf ((s.memGetN a ((n + 3) / 4)).map (·.v))).take n
  else ((sram.map fun (b : BitVec 8) => b.toNat) ++ List.replicate n 0).take n

/-- Starts a broadcast; one that is open, or a length out of range, refuses it with WLOCK. -/
def State.bcStart (s : State) (bytes : List Nat) (bad : List (Nat × Nat × Nat)) : State :=
  if s.bcast.open_ || bytes.isEmpty || decide (imemBytes < bytes.length) then s.wlock pgSVC
  else
    let t := ({ s with bcast := ⟨true, false, false, bytes, []⟩ } : State).setReg pgSVC 0x0C0 0
    t.sendChunks (t.reg pgSVC 0x08C) (List.range (chunksOf bytes.length)) bad

/-- BC_START (R565). -/
def execBcStart (sram : List (BitVec 8)) (bad : List (Nat × Nat × Nat)) (s : State) : Out := .next (s.bcStart (s.bcSource sram) bad)

/-- Sites of BC_RECT, and whether a scan excludes one (R567). -/
def State.bcSites (s : State) : List Nat :=
  let (rl, rh, cl, ch) := rectOf (s.reg pgSVC 0x08C)
  (List.range 1296).filter fun x => rl ≤ rowOf x && rowOf x ≤ rh && cl ≤ colOf x && colOf x ≤ ch
def State.bcExcluded (s : State) (x : Nat) : Bool := !s.siteOn x || (s.blk (blkId tySEQ x)).retired

/-- STATE of BC_SITE (Table 19.9). -/
def State.bcState (s : State) (x : Nat) : Nat := if s.bcExcluded x then 6 else (s.bcSite x).st

/-- The broadcast ends: its verdict is sent, and a SEQIMG transfer answered. -/
def State.bcEnd (s : State) : State :=
  let failed := s.bcast.taken || s.injPend pgSVC 10
  let t := if failed then s.raise pgSVC 10 clsInfo .none false [] else s
  let t := t.event 0x09 (cborMap [(1, cborUint (t.fld pgSVC 0x084 0 16)), (2, cborUint (b2n failed))])
  ({ t with bcast := { t.bcast with open_ := false } } : State).answer 3 0 stOK []

/-- SCAN (R567, R568): the counts; a site still incomplete or mismatched after three repairs is a trigger of R364, and a
committed broadcast with no staged site left ends. -/
def execScan (s : State) : Out :=
  let sts := s.bcSites.map fun x => (x, s.bcState x)
  let n := fun (f : Nat → Bool) => (sts.filter fun e => f e.2).length
  let bad := sts.filter fun e => e.2 == 0 || e.2 == 1 || e.2 == 3
  let t := s.setReg pgSVC 0x0C4 (n (fun v => v == 2 || v == 4 || v == 5) + n (fun v => v == 0 || v == 1) * 2 ^ 16)
  let t := (t.setReg pgSVC 0x0C8 (n (· == 3) + n (· == 6) * 2 ^ 16)).setFld pgSVC 0x0C0 2 1 1
  if !t.bcast.open_ then .next t
  else
    let worn := bad.filter fun e => t.bcast.repairs.any fun r => r.1 == e.1 && decide (3 ≤ r.2)
    let t := worn.foldl (fun (u : State) e =>
      (execSubstitutionTrigger false (BitVec.ofNat 11 e.1)
        { u with bcast := { u.bcast with taken := true } }).stateOr u) t
    .next (if t.bcast.committed && n (· == 2) == 0 then t.bcEnd else t)

/-- REPAIR (R567): the selected site is sent the chunks it lacks; a mismatched one is cleared and sent every chunk. -/
def execRepair (bad : List (Nat × Nat × Nat)) (s : State) : Out :=
  let x := s.fld pgSVC 0x0CC 0 11
  if 1296 ≤ x then .next s
  else
    let b := s.bcSite x
    let t := if b.st = 3 then s.setBcSite x { b with have_ := [], st := 1, sha := [] } else s
    let b := t.bcSite x
    let mine := b.st != 0 && b.img == t.fld pgSVC 0x084 0 16
    let cs := (List.range (chunksOf t.bcast.image.length)).filter fun c => !(mine && b.have_.contains c)
    let n := ((t.bcast.repairs.find? fun r => r.1 == x).map (·.2)).getD 0
    let t : State := { t with bcast := { t.bcast with repairs := (t.bcast.repairs.filter fun r => r.1 != x) ++ [(x, n + 1)] } }
    .next (t.sendChunks (rowOf x + rowOf x * 2 ^ 8 + colOf x * 2 ^ 16 + colOf x * 2 ^ 24) cs bad)

/-- BC_COMMIT (R568): class 0x11 with IMGID and BC_T. -/
def execBcCommit (s : State) : Out :=
  let t : State := { s with bcast := { s.bcast with committed := true } }
  .next (t.castAll (t.reg pgSVC 0x08C) clCommit [t.fld pgSVC 0x084 0 16, t.reg pgSVC 0x098, t.reg pgSVC 0x09C] [])

/-- One bank's bytes in place of another table's. -/
def spliceTbl {α : Type} (t u : Tbl α) (lo hi : Nat) : Tbl α :=
  (t.filter fun e => e.1 < lo) ++ (u.filter fun e => lo ≤ e.1 && e.1 < hi) ++ t.filter fun e => hi ≤ e.1

/-- Whether a site is the candidate of a substitution in progress. -/
def State.substituting (s : State) (x : Nat) : Bool :=
  s.job.any fun j => j.substs.any fun z => z.y.any fun c => c.site == x

/-- IMAGE_COMMIT (R569): at the first safe point at or after T the staging bank becomes the instruction memory. The commit
of a candidate waits for its substitution to finish (Table 12.6). -/
def execImageCommit (site : Site) (s : State) : Out :=
  let x := site.val
  let b := s.bcSite x
  match b.commit with
  | none => .next s
  | some c =>
    if b.st ≠ 2 ∨ !s.siteOn x ∨ s.substituting x then .next s
    else
      let t := s.waitTime c
      let t := { t with imem := spliceTbl t.imem t.staging (imemKey x 0) (imemKey (x + 1) 0) }
      let t := (t.clearStaging x).setFld (pgSEQ x 0) 0x050 0 1 1
      .next (t.setBcSite x { b with st := if b.late then 5 else 4, commit := none })

/-- The broadcast is aborted (R570). -/
def State.bcAbort (s : State) : State :=
  let t := ({ s with bcast := { s.bcast with open_ := false } } : State).setReg pgSVC 0x0C0 0
  (t.castAll (t.reg pgSVC 0x08C) clAbort [] []).answer 3 0 stREFUSED []

/-- ABORT. -/
def execAbort (s : State) : Out := .next s.bcAbort

end Sys2Proof.Machine
end

