-- ==== Sys2Proof/Machine/BringUp.lean ====
section
/-! DEFINITION. Bring-up, reset, licences and fuse programming (chapter 20). The steps of a bring-up run as one command,
whose operand says what each shows. -/

namespace Sys2Proof.Machine

open Sys2Proof

/-! ### Steps and halts (R572) -/

/-- GLB_BOOT.STAGE and HALTED. -/
def State.bootStage (s : State) : Nat := s.fld (pgGLB 0) 0x040 0 4
def State.setBootStage (s : State) (n : Nat) : State := s.setReg (pgGLB 0) 0x040 n
def State.bootHalted (s : State) : Bool := s.flag (pgGLB 0) 0x040 4

/-- The service complex answers: from step 3 on. -/
def State.svcUp (s : State) : Bool := s.boot.powered && decide (3 ≤ s.bootStage) && s.boot.stopCause == 0

/-- Only the boot ROM answers: bring-up is halted with OSBOOT (R574). -/
def State.romOnly (s : State) : Bool := s.bootHalted && s.fld (pgGLB 0) 0x040 8 4 == 1

/-- HALT_CODE values. -/
def haltOSBOOT : Nat := 1
def haltFUSERR : Nat := 2
def haltREFERENCE : Nat := 3
def haltNOSITES : Nat := 4
def haltMEMORY : Nat := 5

/-- Bring-up halts: STAGE keeps its value. -/
def State.halt (s : State) (code : Nat) : State :=
  ((s.setFld (pgGLB 0) 0x040 4 1 1).setFld (pgGLB 0) 0x040 8 4 code).raise (pgGLB 0) 8 clsInfo .none false []

/-- The limit of a step in ms (Table 20.2). -/
def stepLimit (n : Nat) : Nat :=
  match n with
  | 3 => 10000
  | 6 => 500
  | 7 => 2
  | 8 => 10000
  | 9 => 2000
  | 10 => 100000
  | _ => 1000

/-- A step begins and takes its time. -/
def State.pass (s : State) (r : BootRes) (n : Nat) : State :=
  (s.setBootStage n).elapse (min (stepLimit n) (nthD 0 r.ms (n - 3)) * msec)

/-- A step either goes on or halts bring-up. -/
abbrev Stepped := Except State State

/-! ### Step 3: ADV-OS (R574, R575) -/

/-- Whether the boot ROM accepts an image slot. -/
def State.slotOk (s : State) (i : Nat) : Bool :=
  (s.nv.slots[i]?).any fun x => x.ok && decide (s.nv.minVersion ≤ x.version)

/-- The slot booted, and whether the other one was refused first. -/
def State.pickSlot (s : State) : Option (Nat × Bool) :=
  let a := if s.nv.newImage then 1 - s.nv.sel else s.nv.sel
  if s.slotOk a then some (a, false) else if s.slotOk (1 - a) then some (1 - a, true) else none

/-- Boots ADV-OS; with `ready` it sets OS_READY and raises the minimum version. -/
def State.bootOs (s : State) (r : BootRes) : Stepped :=
  let t := s.pass r 3
  match t.pickSlot with
  | none => .error (t.halt haltOSBOOT)
  | some (i, fell) =>
    let x := (t.nv.slots[i]?).getD ⟨0, [], false⟩
    let t : State := { t with
      nv := { t.nv with sel := i, newImage := false }
      boot := { t.boot with osStart := some t.time, kick := t.time }
      udp := r.udp }
    let t := if fell then t.raise (pgGLB 0) 11 clsInfo .none false [] else t
    let t := t.setReg (pgGLB 1) 0x050 (x.version % 2 ^ 31 + i * 2 ^ 31)
    let t := (List.range 8).foldl (fun (u : State) k =>
      u.setReg (pgGLB 1) (0x060 + 4 * k) (fromLe ((x.hash.drop (4 * k)).take 4))) t
    let t := t.setFld pgSVC 0x048 0 8 0xFF
    if r.osReady then
      .ok { t.setFld pgSVC 0x048 9 1 1 with nv := { t.nv with minVersion := max t.nv.minVersion x.version } }
    else .error t

/-! ### Step 4: fuses (R576 to R578) -/

/-- Seam-wire entries that name a wire. -/
def wireOk (v : Nat) : Bool :=
  decide (bitsOf v 0 11 < 1296) && isSeam (bitsOf v 0 11) (bitsOf v 11 2) && decide (bitsOf v 24 4 ≤ 8)

/-- Entries of the five lists that name something; the rest count as BADENT. -/
def State.subEntries (s : State) : List Nat := ((s.fuseEntries 0x040 0x050).map fun v => bitsOf v 0 9).filter (· < 384)
def State.laneEntries (s : State) : List (Nat × Nat) :=
  ((s.fuseEntries 0x050 0x090).map fun v => (bitsOf v 0 4, bitsOf v 4 5)).filter fun e => e.2 < 20
def State.wireEntries (s : State) : List Nat := (s.fuseEntries 0x140 0x240).filter wireOk

/-- FUS_COUNTS0 and FUS_COUNTS1 after a read. -/
def State.fuseCounts (s : State) : State :=
  let sites := s.fuseEntries 0x0A0 0x140
  let all := (s.fuseEntries 0x040 0x090).length + sites.length + (s.fuseEntries 0x140 0x240).length
  let field := (sites.filter fun v => bitsOf v 12 4 == 1).length
  let good := s.subEntries.length + s.laneEntries.length + s.badSites.length + s.wireEntries.length
  (s.setReg (pgFUS 1) 0x040 (min 255 sites.length + min 255 field * 2 ^ 8 + (s.fuseEntries 0x040 0x050).length * 2 ^ 16 +
    (s.fuseEntries 0x050 0x090).length * 2 ^ 24)).setReg (pgFUS 1) 0x044
    ((s.fuseEntries 0x140 0x240).length + min 255 (all - good) * 2 ^ 16)

/-- A wire entry steers its wire to a spare (R266). -/
def State.steerFuse (s : State) (v : Nat) : State :=
  let x := bitsOf v 0 11
  let d := bitsOf v 11 2
  if bitOf v 13 then s
  else
    let l := s.link x d
    let pg := pgRTR x 2
    (s.setLink x d { l with retired := l.retired ++ [bitsOf v 14 10] }).setFld pg (0x040 + 16 * d) 8 4
      (min 8 (s.fld pg (0x040 + 16 * d) 8 4 + 1))

/-- The tile engines of sites out of service show RETIRED (R578). -/
def State.showRetired (s : State) (sites : List Nat) : State :=
  sites.foldl (fun (t : State) x => (engineBlks x).foldl (fun (u : State) b =>
    u.setBlk b { u.blk b with retired := true, run := false }) t) s

/-- A fuse-disabled subchannel: DISABLED, and its page shows RETIRED (R53, R578). -/
def State.mcDisabled (s : State) (n : Nat) : State :=
  let b := blkOf (pgMCC n)
  (s.setMcSt n stDISABLED).setBlk b { s.blk b with retired := true, run := false }

/-- Reads the fuses and applies them; the words of SEALCNT have no check bits (R576). -/
def State.readFuses (s : State) (r : BootRes) : Stepped :=
  let t := s.pass r 4
  let checked := fun (i : Nat) => decide (i < 1024) && !(decide (0x01C ≤ i) && decide (i ≤ 0x01E))
  let t : State := { t with nv := { t.nv with
    fuses := t.nv.fuses.map fun e => (e.1, { e.2 with
      fresh := false
      corr := checked e.1 && r.corr.contains e.1
      unc := checked e.1 && r.unc.contains e.1 }) } }
  let t := (r.corr.filter checked).foldl (fun (u : State) _ => u.raise (pgFUS 0) 8 clsCorr .corr false []) t
  if r.unc.any checked then .error ((t.raise (pgFUS 0) 9 clsUnc .unc false []).halt haltFUSERR)
  else
    let t := t.setReg (pgFUS 0) 0x040 (1 + 2 * ((t.fuse 0x002).v % 2) + 4 * b2n r.jumper)
    let t := (t.setReg (pgGLB 1) 0x040 (t.fuse 0).v).setReg (pgGLB 1) 0x044 (t.fuse 1).v
    let t := ((t.fuseCounts).sealRegs).showRetired (t.badSites ++ t.nv.retired)
    let t := t.subEntries.foldl State.mcDisabled t
    let t := t.laneEntries.foldl (fun (u : State) e => u.setFld (pgOEN e.1) (0x060 + 4 * e.2) 0 2 3) t
    .ok (t.wireEntries.foldl State.steerFuse t)

/-! ### Step 5: the licence (R580, R581) -/

/-- Code of a licensed LTN count. -/
def ltnsCode (n : Nat) : Nat := if n = 768 then 1 else if n = 1024 then 2 else if n = 1152 then 3 else 0

/-- A licence that is whole, bound to this module, and verifies. -/
def State.licenceFits (s : State) (l : Licence) : Bool :=
  l.ok && l.modid == s.modid && ltnsCode l.ltns != 0 && decide (l.roles < 8) && decide (l.pair ≤ 1) && decide (l.j7 ≤ 1) &&
    decide (1 ≤ l.version) && decide (l.version < 2 ^ 32)

/-- The first copy accepted. -/
def State.accepted (s : State) : Option Licence :=
  s.nv.lics.find? fun l => s.licenceFits l && decide (s.nv.licCtr ≤ l.version)

/-- Puts the accepted licence in force; without one the module runs unlicensed. -/
def State.checkLicence (s : State) (r : BootRes) : State :=
  let t := s.pass r 5
  match t.accepted with
  | none => (t.setReg (pgGLB 1) 0x048 0).setReg (pgGLB 1) 0x04C 0
  | some l =>
    let t := (t.setReg (pgGLB 1) 0x048 (1 + 2 * ltnsCode l.ltns + 8 * l.roles + 64 * l.pair + 128 * l.j7)).setReg (pgGLB 1)
      0x04C l.version
    (List.range 4).foldl (fun (u : State) k =>
      u.setReg (pgFUS 3) (0x044 + 4 * k) (fromLe ((l.licid.drop (4 * k)).take 4))) t

/-! ### Step 6: converters and regions (R573, R584) -/

/-- Every facet generator that is not dark locks at step 7 with device time loaded; the other generators lock. -/
def State.lockAll (s : State) : State :=
  let t := (List.range 12).foldl (fun (u : State) f =>
    if u.flag (pgCLK f) 0x044 6 then u
    else
      let u := ((u.setFld (pgCLK f) 0x044 0 1 1).setFld (pgCLK f) 0x044 2 3 7)
      u.setFacet f { facetReset f with running := true, acc := u.time * 2 ^ 32, cycles := (u.facet f).cycles }) s
  let t := (List.range 3).foldl (fun (u : State) i => u.setFld (pgCLK (12 + i)) 0x044 0 1 1) t
  ((t.setFld pgTIM 0x05C 0 3 7).setFld pgTIM 0x068 0 1 1).allLocked

/-- One region is powered on to step 7's targets; its request ends DONE. -/
def State.powerOn (s : State) (r : Nat) : State :=
  let t := s.setBlk (blkOf (pgPRG r)) { s.blk (blkOf (pgPRG r)) with enable := true }
  let t := ((t.setRegion r 3).setVlog r 7).setFld (pgPRG r) 0x048 0 2 2
  let t := (((t.setFld (pgPRG r) 0x04C 0 3 2).setResult r resDONE).setFld (pgPRG r) 0x04C 3 1 0).prgRun r
  (sitesOf r).foldl (fun (u : State) x => u.setTile x { u.tile x with onSince := u.cyc x }) t

/-- Powers the regions that are not recorded lost; one that does not reach ON becomes LOST. -/
def State.powerRegions (s : State) (r : BootRes) : State :=
  (List.range 72).foldl (fun (t : State) n =>
    if t.nv.lost.contains n then (t.setRegion n 5).prgRun n
    else if r.dead.contains n then
      (sitesOf n).foldl (fun (u : State) x => u.retireSite x) (t.regionDead n resTRIP)
    else t.powerOn n) s

/-- A tile whose row repairs do not read goes out of service (R579). -/
def State.rowFail (s : State) (x : Nat) : State := (s.retireSite x).bumpFld (pgFUS 1) 0x044 24 8 1

/-- The corner attachments in service. -/
def State.showCorners (s : State) : State :=
  (List.range 4).foldl (fun (t : State) i => t.setFld pgSVC 0x048 (10 + i) 1 (b2n (t.siteOn (nthD 0 corners i)))) s

def State.powerUp (s : State) (r : BootRes) : Stepped :=
  let t := (s.pass r 6).lockAll
  let t := (t.powerRegions r).showCorners
  let t := (r.rows.filter (· < 1296)).foldl State.rowFail t
  if (List.range 72).any fun n => t.region n == 2 then .ok t else .error (t.halt haltNOSITES)

/-! ### Step 7: focusing (R420, R421) -/

/-- The link that a FIFO of a facet receives on. -/
def seamLink (f k : Nat) : Option (Nat × Nat) :=
  (List.range 1296).findSome? fun x =>
    if facetOf x = f then
      ((List.range 4).find? fun d => isSeam x d && (match neighbour x d with
        | some y => facetOf y != f
        | none => false) && seamIdx x d == k).map fun d => (x, d)
    else none

/-- A FIFO that finds no tap: its link direction is FAILED. -/
def State.focusFail (s : State) (f k : Nat) : State :=
  let t := (s.setFld (pgCLK f) (0x104 + 8 * k) 1 1 1).raise (pgCLK f) 9 clsUnc .unc false [k]
  match seamLink f k with
  | none => t
  | some (x, d) => (t.setFld (pgRTR x 2) (0x040 + 16 * d) 4 1 1).raise (pgRTR x 0) 16 clsUnc .unc false [d]

def State.focus (s : State) (r : BootRes) : State :=
  let t := s.pass r 7
  let t := r.taps.foldl (fun (u : State) e => u.setReg (pgCLK e.1) (0x100 + 8 * e.2.1) e.2.2) t
  let bad := r.noTap.filter fun e => decide (e.1 < 12) && decide (e.2 < 42)
  let t := bad.foldl (fun (u : State) e => u.focusFail e.1 e.2) t
  let t := (List.range 12).foldl (fun (u : State) f => u.setFld (pgCLK f) 0x044 5 1 (b2n (!bad.any fun e => e.1 == f))) t
  t.setFld pgTIM 0x068 3 1 (b2n bad.isEmpty)

/-! ### Step 8: bulk memory (R275, R276, R302) -/

/-- Preferred spares (R275). -/
def preferredSpare (n : Nat) : Bool := n % 48 == 47

/-- Trains one package. -/
def State.trainPkg (s : State) (r : BootRes) (p : Nat) : State :=
  let x := (r.mem.find? fun m => m.pkg == p).getD ⟨p, true, 0, 0, 0, 0⟩
  let b := blkOf (pgMPH p)
  let t := s.setBlk b { s.blk b with enable := true, run := true }
  if h : p < 48 then
    (execTrainingComplete ⟨p, h⟩ x.capOk (BitVec.ofNat 8 x.pass14) (BitVec.ofNat 8 x.pass12) (BitVec.ofNat 32 x.dram)
      ⟨x.ranks % 4, Nat.mod_lt _ (by decide)⟩ t).stateOr t
  else t

/-- Multicasts the channel map (R277). -/
def State.castMap (s : State) : State :=
  ((List.range 384).filter fun n => s.mcLch n != 0x1FF && s.mcSt n != stDST).foldl (fun (t : State) n =>
    t.castUpdate (t.mcLch n) 0x1FF n) s

/-- Gives the logical channels to the trained subchannels, and enables them. -/
def State.assignAll (s : State) : State :=
  let on := s.mcsIn stSPARE
  let order := (on.filter fun n => !preferredSpare n) ++ on.filter preferredSpare
  let t := ((List.range 376).zip order).foldl (fun (u : State) e =>
    (((u.setMcSt e.2 stACTIVE).setMcLch e.2 e.1).setReg (pgMCC e.2) 0x04C e.1)) s
  on.foldl (fun (u : State) n =>
    let b := blkOf (pgMCC n)
    u.setBlk b { u.blk b with enable := true, run := true }) t

/-- A package with subchannels to be brought into service that reports QUAL144 at 0. -/
def State.below14 (s : State) (p : Nat) : Bool := s.fld (pgMPH p) 0x044 4 8 != 0 && !s.flag (pgMPH p) 0x044 2

/-- RATE_MAX is cleared in every MPH page, and every package is trained again (R301). -/
def State.trainSlow (s : State) (r : BootRes) : State :=
  (List.range 48).foldl (fun (u : State) p => ((u.setFld (pgMPH p) 0x040 0 1 0).setFld (pgMPH p) 0x044 0 1 0).trainPkg r p) s

/-- Step 8: firmware brings bulk memory up (R302). -/
def State.memoryUp (s : State) (r : BootRes) : Stepped :=
  let t := s.pass r 8
  let t := t.nv.subs.foldl (fun (u : State) n => if u.mcSt n == stDISABLED then u else u.mcRetired n) t
  let t := (List.range 48).foldl (fun (u : State) p => u.trainPkg r p) t
  let t := if (List.range 48).any t.below14 then t.trainSlow r else t
  if (t.mcsIn stSPARE).length < 376 then .error ((t.replace causeMemory).halt haltMEMORY)
  else .ok (t.assignAll.castMap.spareCheck)

/-! ### Step 9: optics (R585) -/

/-- Whether every default lane of a port is dark. -/
def State.portDark (s : State) (p : Nat) : Bool := (List.range 8).all fun l => s.lstate p (8 * halfOf p + l) == 3

def State.opticsUp (s : State) (r : BootRes) : State :=
  let on := fun (t : State) (pg : Nat) => t.setBlk (blkOf pg) { t.blk (blkOf pg) with enable := true, run := true }
  let t := (List.range 16).foldl (fun (u : State) e => on u (pgOEN e)) s
  let t := (List.range 32).foldl (fun (u : State) p => if u.portDark p then u else (on u (pgOPT p)).trainPort p) t
  t.pass r 9

/-! ### Step 10: known-answer runs (R586, R587) -/

/-- One site's result: 1 pass, 2 fail with its first failing engine, 3 out of service before. -/
def State.karSite (s : State) (r : BootRes) (x : Nat) : Nat :=
  if s.outOfService x || !s.siteOn x then 3
  else match r.kar.find? fun e => e.1 == x with
    | some (_, e) => 2 + 16 * (e % 7)
    | none => 1

/-- A failing site goes out of service; a failing router takes its links with it. -/
def State.karFail (s : State) (x e : Nat) : State :=
  let t := (s.retireSite x).raise (pgGLB 0) 9 clsUnc .unc false [x, e]
  if e = 6 then
    ((List.range 4).foldl (fun (u : State) d => u.setFld (pgRTR x 2) (0x040 + 16 * d) 4 1 1) t).replace causeLink
  else t

def State.knownAnswers (s : State) (r : BootRes) : State :=
  let t := s.pass r 10
  let res := (List.range 1296).map fun x => (x, t.karSite r x)
  let bad := res.filter fun e => e.2 % 4 == 2
  let good := (res.filter fun e => e.2 == 1).length
  let t := bad.foldl (fun (u : State) e => u.karFail e.1 (e.2 / 16)) t
  let t := (t.setReg (pgGLB 3) 0x040 (good + bad.length * 2 ^ 16 + 2 ^ 27)).setReg64 (pgGLB 3) 0x050 t.time
  { t with boot := { t.boot with kar := res } }

/-! ### Step 11: Ready (R588) -/

/-- Initialises and enables the tile of a working site. -/
def State.tileUp (s : State) (x : Nat) : State :=
  let t := if s.flag (pgSPD x 0) 0x048 1 then s else (s.spadFill x false).setFld (pgSPD x 0) 0x048 0 2 2
  (tileBlks x).foldl (fun (u : State) b =>
    let c := u.blk b
    if c.retired then u else u.setBlk b { c with enable := true, run := true }) t

/-- The map at Ready: working sites in ascending order, then sites out of service. -/
def State.firstMap (s : State) : List Nat :=
  let work := (List.range 1296).filter fun x => !s.outOfService x
  (work ++ (List.range 1296).filter s.outOfService).take s.ltns

/-- Loads the map into every router that forwards; without a licence there is none to load. -/
def State.loadMaps (s : State) : State :=
  let m := s.firstMap
  if m.isEmpty then s
  else s.liveRouters.foldl (fun (t : State) x =>
    let e := ((t.map x).epoch + 1) % 2 ^ 32
    (t.setMap x ⟨true, e, m, none, none⟩).setReg (pgRTR x 1) 0x040 e) s

/-- Steps 1 to 4 of R588. -/
def State.tilesReady (s : State) (r : BootRes) : State :=
  let work := (List.range 1296).filter fun x => !s.outOfService x && s.siteOn x
  let t := (work.foldl State.tileUp s).loadMaps.castMap
  let t := (List.range 72).foldl (fun (u : State) n => u.setFld (pgPRG n) 0x040 0 1 (b2n r.trimEn)) t
  let t := t.setTargets 7
  let b := blkOf pgPWR
  t.setBlk b { t.blk b with enable := true, run := true }

def State.ready (s : State) (r : BootRes) : State :=
  let t := s.pass r 11
  let t := t.tilesReady r
  let t : State := { t with nv := { t.nv with boot := t.nv.boot + 1 } }
  (t.setReg pgRCP 0x048 t.nv.boot).setReg64 (pgGLB 0) 0x050 t.time

/-! ### Runs of the steps -/

/-- Steps 6 to 11; `kar` whether step 10 runs. A missing reference halts before step 6 (R573). -/
def State.fromPower (s : State) (r : BootRes) (kar : Bool) : State :=
  if !r.ref then
    let t := (s.setFld pgTIM 0x068 0 1 0).halt haltREFERENCE
    { t with boot := { t.boot with wait := some { r with ref := true } } }
  else
    match ((s.powerUp r).bind fun t => ((t.focus r).memoryUp r)) with
    | .error t => t
    | .ok t =>
      let u := t.opticsUp r
      (if kar then u.knownAnswers r else u).ready r

/-- Steps 3 to 11. -/
def State.bringUp (s : State) (r : BootRes) (kar : Bool) : State :=
  match (s.bootOs r).bind fun t => t.readFuses r with
  | .error t => t
  | .ok t => (t.checkLicence r).fromPower r kar

/-- Blocks whose ENABLE resets to 1 run once their domain is up. -/
def State.runDefaults (s : State) : State :=
  let bs := [tyGLB, tyTIM, tyMTR, tyRCP, tyFLT, tySVC, tyFUS, tySEAL].map (fun ty => blkId ty 0) ++
    (List.range 15).map fun i => blkId tyCLK i
  bs.foldl (fun (t : State) b => t.setBlk b { t.blk b with run := true }) s

/-- Signing restarts at the block after the highest one reserved (R502); the calibration epoch is that of the secure storage, and
CAL_VALID is 1 once a commit has been made (R508). -/
def State.rcpStart (s : State) : State :=
  let t := ((s.setReg64 pgRCP 0x060 (1024 * s.nv.rsv)).showRsv).showKey
  (t.setReg pgMTR 0x0AC s.nv.epoch).setFld pgMTR 0x044 0 1 (b2n (s.nv.epoch != 0))

/-! ### Cold start (R571, R572) -/

/-- What a cold start keeps: fuses and non-volatile storage, with firmware's record of retired subchannels; the queue and
what has left the module. -/
def State.coldState (s : State) : State :=
  { State.reset with
    pending := s.pending
    outbox := s.outbox
    freeCtr := s.freeCtr
    nv := { s.nv with subs := (s.nv.subs ++ s.mcsIn stRETIRED).dedup }
    mtr := { Mtr.init with cal := s.mtr.cal, terms := s.mtr.terms }
    rcp := { Rcp.init with keyId := s.rcp.keyId, newKey := s.rcp.newKey, link := s.rcp.link, rolling := s.rcp.rolling } }

/-- The seal loop as found at power-up (R505). -/
def State.findSeal (s : State) (r : BootRes) : State :=
  let t := s.sealRegs.setFld pgSEAL 0x040 0 1 (b2n s.nv.loopClosed)
  if r.sealOpen then t.sealOpen r.sealOk false
  else ({ t with nv := { t.nv with loopClosed := true } } : State).setFld pgSEAL 0x040 0 1 1

/-- COLD_START: input applied to a module that is off, or whose standby domain has just come up. -/
def execColdStart (res : BootRes) (s : State) : Out :=
  if s.boot.powered ∧ s.bootStage ≠ 1 then .next s
  else
    let t := (s.coldState.setBootStage 2).runDefaults
    .next (((t.findSeal res).rcpStart).bringUp res true)

/-! ### Warm reset (R589, R590) -/

/-- Register words that a warm reset keeps: the TIM and SEAL pages, the always-on records of GLB, PWR_TRIP, the budget's
counters, MTR_E_TOTAL. -/
def keepWarm (key : Nat) : Bool :=
  let pg := key / 2 ^ 12
  let off := key % 2 ^ 12
  pg == pgTIM || pg == pgSEAL || (pg == pgGLB 0 && (off == 0x048 || off == 0x058)) ||
    (pg == pgGLB 3 && (off == 0x040 || off == 0x050 || off == 0x054)) || (pg == pgPWR && (off == 0x06C || 0x100 ≤ off)) ||
    (pg == pgMTR && (off == 0x078 || off == 0x07C))

/-- What a warm reset keeps: the standby domain with device time, and the always-on records. -/
def State.warmState (s : State) : State :=
  let c := s.coldState
  { c with
    time := s.time
    regs := s.regs.filter fun e => keepWarm e.1
    hdrs := s.hdrs.filter fun e => e.1 == pgTIM || e.1 == pgSEAL
    ptp := s.ptp
    sealLoop := { s.sealLoop with window := none }
    i3c := s.i3c
    streamed := s.streamed
    boot := { Boot.init with kar := s.boot.kar, kick := s.time }
    mtr := { c.mtr with total := s.mtr.total, at_ := s.time, shared := s.time / msec }
    rcp := { c.rcp with next := s.time / period } }

/-- A warm reset for a cause of GLB_CAUSE; `full` forces the known-answer runs. -/
def State.warm (s : State) (cause : Nat) (full : Bool) (r : BootRes) : State :=
  let s := (s.presClose.dropStep stepCANCELLED).dropSense
  let fast := s.flag (pgGLB 0) 0x04C 0 && s.flag (pgGLB 3) 0x040 27 && cause != 3 && !full
  let n := min 65535 (s.fld (pgGLB 0) 0x058 0 16 + 1)
  let t := s.warmState.runDefaults
  let t := (t.setFld (pgGLB 0) 0x058 0 16 n).setReg (pgGLB 0) 0x048 (cause + 16 * b2n fast)
  let t := if cause = 2 then t.raise pgSVC 8 clsUnc .unc false [] else t
  let t := if cause = 3 then t.raise pgPWR 11 clsUnc .unc false [] else t
  t.rcpStart.bringUp r (!fast)

/-- WARM and FULL: from step 3 on; ignored with WLOCK before. A reset waits for a fuse word that is programming, and takes the
place of a compute-only reset that waits (Table 20.6); it waits for the input to be back within range (R450), and, after a thermal trip, until 60 s have passed (R475). -/
def State.reqWarm (s : State) (full : Bool) (r : BootRes) : State :=
  if !s.boot.powered || decide (s.bootStage < 3) || s.inputOut then s.wlock (pgGLB 0)
  else if s.boot.prog.isSome then
    if s.boot.after.any fun a => a.1 != 2 then s.wlock (pgGLB 0) else { s with boot := { s.boot with after := some (b2n full, r) } }
  else
    let t := match s.boot.tripAt with
      | some a => if s.boot.stopCause = 3 then s.waitTime (a + 60 * second) else s
      | none => s
    t.warm (if t.boot.stopCause = 0 then 1 else t.boot.stopCause) full r

/-- WARM. -/
def execWarm (res : BootRes) (s : State) : Out := .next (s.reqWarm false res)

/-- FULL, written with WARM. -/
def execFull (res : BootRes) (s : State) : Out := .next (s.reqWarm true res)

/-! ### Compute-only reset (R591) -/

/-- Every region that is not LOST goes to OFF and on again. -/
def State.cycleRegions (s : State) (r : BootRes) : Stepped :=
  let t := ((List.range 72).filter fun n => s.region n != 5).foldl (fun (u : State) n => u.regionOff n) s
  let t := (List.range 12).foldl (fun (u : State) f => u.setFld (pgCLK f) 0x044 2 3 7) t
  let t := t.setFld pgTIM 0x05C 0 3 7
  let t := (t.powerRegions { r with dead := r.dead.filter fun n => t.region n != 5 }).showCorners
  let t := (r.rows.filter (· < 1296)).foldl State.rowFail t
  if (List.range 72).any fun n => t.region n == 2 then .ok t else .error (t.halt haltNOSITES)

/-- Clears the egress and ingress channels of every port (R404). -/
def State.clearChannels (s : State) : State :=
  (List.range 32).foldl (fun (t : State) p =>
    let t := (List.range 32).foldl (fun (u : State) c => (u.setReg (pgOPT p) (0x200 + 4 * c) 0).setReg (pgOPT p) (0x280 + 4 * c) 0) t
    t.setPort p { t.port p with egr := [] }) s

/-- COMPUTE: ignored with WLOCK before Ready. -/
def State.reqCompute (s : State) (r : BootRes) : State :=
  if !s.svcUp || s.bootStage ≠ 11 then s.wlock (pgGLB 0)
  else if s.boot.prog.isSome then
    if s.boot.after.isSome then s.wlock (pgGLB 0) else { s with boot := { s.boot with after := some (2, r) } }
  else
    let s := s.dropSense
    let t := if s.job.isSome then s.endJob 0x14 else s
    let t := (List.range 32).foldl (fun (u : State) p => ((u.optAdv p 0 0).optAdv p 1 0).optAdv p 2 0) t
    let t := (t.dropStep stepCANCELLED).bcAbort.clearChannels
    let n := min 65535 (t.fld (pgGLB 0) 0x058 16 16 + 1)
    let t := (t.setFld (pgGLB 0) 0x058 16 16 n).setReg (pgGLB 0) 0x048 5
    let t := t.elapse (min 1500 (nthD 0 r.ms 0) * msec)
    match t.cycleRegions r with
    | .error u => u
    | .ok u => let v := u.tilesReady r; v.setReg64 (pgGLB 0) 0x050 v.time

def execCompute (res : BootRes) (s : State) : Out := .next (s.reqCompute res)

/-! ### Timeouts and the reference -/

/-- OS_READY_TIMEOUT (R575): 30 s after its start ADV-OS is not ready; a warm reset into the other slot. -/
def execOsReadyTimeout (res : BootRes) (s : State) : Out :=
  match s.boot.osStart with
  | none => .next s
  | some a =>
    if s.flag pgSVC 0x048 9 then .next s
    else
      let t := s.waitTime (a + 30 * second)
      let t : State := { t with nv := { t.nv with sel := 1 - t.nv.sel, newImage := false } }
      .next ((t.warm 1 false res).raise (pgGLB 0) 11 clsInfo .none false [])

/-- WATCHDOG_EXPIRY (R546): the warm reset of a period without a kick. -/
def execWatchdogExpiry (res : BootRes) (s : State) : Out :=
  if s.flag pgSVC 0x040 0 && s.svcUp && s.flag pgSVC 0x048 9 then
    .next ((s.waitTime (s.boot.kick + max 1 (s.fld pgSVC 0x040 8 8) * second)).warm 2 false res)
  else .next s

/-- REFERENCE_RETURN (R427): a bring-up halted for the reference continues (R573). -/
def execReferenceReturn (s : State) : Out :=
  let t := s.refReturn
  match t.boot.wait with
  | some r => .next (({ t with boot := { t.boot with wait := none } } : State).fromPower r
      (!s.flag (pgGLB 0) 0x048 4))
  | none => .next t

/-! ### Fuse programming (R592) -/

/-- RESULT of FUS_PROG_STATUS. -/
def State.progResult (s : State) (v : Nat) : State := s.setReg (pgFUS 2) 0x04C v

/-- Whether a word lies in a range marked field-programmable. -/
def fieldWord (i : Nat) : Bool := (0x040 ≤ i && i < 0x090) || (0x0A0 ≤ i && i < 0x240)

/-- FUSE_GO: a guarded write; refusals write their RESULT and blow nothing. -/
def execFuseGo (s : State) : Out :=
  .next (s.guarded (pgFUS 2) fun t =>
    let i := t.fld (pgFUS 2) 0x040 0 10
    let v := t.reg (pgFUS 2) 0x044
    let f := t.fuse i
    if !t.flag (pgFUS 0) 0x040 2 then t.progResult 2
    else if !fieldWord i then t.progResult 3
    else if f.v ≠ 0 ∨ f.void then t.progResult 4
    else if !bitOf v 31 ∨ bitOf v 30 then t.progResult 5
    else if t.inputOut then t.progResult 6
    else if t.boot.prog.isSome then t.progResult 7
    else ({ t with boot := { t.boot with prog := some (i, v, t.time) } } : State).setFld (pgFUS 0) 0x040 3 1 1)

/-- FUSE_PROGRAM_DONE: within 10 ms the word is blown and verified, or voided; a reset that waited for it proceeds. -/
def execFuseProgramDone (ok : Bool) (s : State) : Out :=
  match s.boot.prog with
  | none => .next s
  | some (i, v, a) =>
    let t := s.waitTime (a + 10 * msec)
    let ok := ok && !t.injPend (pgFUS 0) 10
    let f : Fuse := if ok then ⟨v, false, false, false, true⟩ else ⟨0xFFFF_FFFF, true, false, false, true⟩
    let t : State := { t with
      nv := { t.nv with fuses := tblSet (fun _ => Fuse.init) t.nv.fuses i f }
      boot := { t.boot with prog := none, after := none } }
    let t := (t.setFld (pgFUS 0) 0x040 3 1 0).progResult (if ok then 1 else 8)
    let t := if ok then t else t.raise (pgFUS 0) 10 clsInfo .none false [i]
    match s.boot.after with
    | none => .next t
    | some (2, r) => .next (t.reqCompute r)
    | some (k, r) => .next (t.reqWarm (k == 1) r)

end Sys2Proof.Machine
end

