-- ==== Sys2Proof/Machine/Service.lean ====
section
/-! DEFINITION. The management port: connections, requests and token streams, receipts and telemetry, content transfers; the
watchdog and the service cores (chapter 19). -/

namespace Sys2Proof.Machine

open Sys2Proof

/-! ### Connections (R547, R549, R562) -/

/-- CONNECTION_OPEN: a 65th connection is reset. -/
def execConnectionOpen (conn : Nat) (s : State) : Out :=
  if !s.svcUp || s.conns.contains conn then .next s
  else if 64 ≤ s.conns.length then .next (s.send (.mgmt conn) "RESET" [])
  else .next { s with conns := s.conns ++ [conn] }

/-- A connection closes: its open transfers, its subscription and the replies owed to it go; its streams are kept unsent. -/
def State.closeConn (s : State) (conn : Nat) : State :=
  { s with
    conns := s.conns.filter (· != conn)
    contents := s.contents.filter fun (c : Content) => c.conn != conn
    subs := s.subs.filter fun (x : Sub) => x.conn != conn
    replies := s.replies.filter fun (r : Reply) => r.conn != conn
    reqs := s.reqs.map fun (r : Req) => if r.conn == some conn then { r with conn := none } else r }

/-- CONNECTION_CLOSE. -/
def execConnectionClose (conn : Nat) (s : State) : Out := .next (s.closeConn conn)

/-- Whether a class and type are defined (Tables 19.2, 19.7), as messages to the module. -/
def ctlDefined (cls ty : Nat) : Bool :=
  match cls with
  | 0x01 => ty == 1 || ty == 2 || ty == 3
  | 0x02 => ty == 2
  | 0x03 => ty == 1
  | 0x04 => ty == 3 || ty == 4
  | 0x05 => ty == 1
  | 0x06 => ty == 1 || ty == 2
  | 0x07 => 1 ≤ ty && ty ≤ 8
  | _ => false

/-- UNDEFINED_CLASS_OR_TYPE: a header that names no message of the module's. A wrong MAGIC or VERSION closes the connection
without a reply; a LEN above the limit gets BADMSG, and the connection closes. -/
def execUndefinedClassOrType (conn : Nat) (magic : BitVec 16) (version cls : BitVec 8) (ty : BitVec 16) (len tag : Word) (s : State) :
    Out :=
  if !s.conns.contains conn then .next s
  else if magic ≠ 0x4441#16 ∨ version ≠ 1#8 then .next (s.closeConn conn)
  else if 4194304 < len.toNat then .next ((s.reply conn tag.toNat stBADMSG []).closeConn conn)
  else if ctlDefined cls.toNat ty.toNat then .next s
  else .next (s.reply conn tag.toNat stUNKNOWN [])

/-- A message on an open connection; while only the boot ROM answers it gets UNKNOWN. -/
def State.served (s : State) (conn tag : Nat) (act : State → State) : Out :=
  if !s.conns.contains conn || !s.svcUp then .next s
  else if s.romOnly then .next (s.reply conn tag stUNKNOWN [])
  else .next (act s)

/-- MGMT_LINK_DOWN (R605). -/
def execMgmtLinkDown (s : State) : Out := .next ((s.setFld pgSVC 0x048 8 1 0).raise pgSVC 11 clsInfo .none false [])

/-- MGMT_LINK_UP. -/
def execMgmtLinkUp (s : State) : Out := .next (s.setFld pgSVC 0x048 8 1 1)

/-! ### SUBMIT, BIND, PROMPT (R550 to R552) -/

/-- A payload that R550 and R552 call malformed. -/
def submitBad (len : Nat) (ws : List Nat) : Bool :=
  len < 0x194 || len % 4 != 0 || ws.length != len / 4 || decide (pfield ws 0x190 4 < (len - 0x194) / 4) ||
    decide (2 ^ 24 < pfield ws 0x190 4) || pfield ws 0x2C 1 == 0 || decide (16 < pfield ws 0x2C 1) || pfield ws 0x2D 1 == 0 ||
    decide (16 < pfield ws 0x2D 1) || decide (16 < pfield ws 0x2E 2) || pfield ws 0x28 4 == 0 || decide (1 < pfield ws 0x26 2)

/-- Slots of a Prompt or Generation module (R312, R550). -/
def JobCfg.slots (c : JobCfg) : Nat := if c.role = 1 then 256 else if c.solo then 1 else 4096

/-- The lowest free slot. -/
def State.freeSlot (s : State) (c : JobCfg) : Option Nat :=
  (List.range c.slots).find? fun n => !s.reqs.any fun r => r.slot == n && r.st != .done

/-- A new request in a slot, with the prompt tokens its SUBMIT carries. -/
def newReq (ws : List Nat) (conn slot now : Nat) : Req :=
  let toks := (List.range (ws.length - 101)).map fun i => (i, nthD 0 ws (101 + i) % 2 ^ 18)
  ⟨ws, some conn, slot, .prompt, toks, [], now, false, 0, 0, 0, [], [], [], none, [], 0, 0, false, none, none, 0, (0, 0, 0, 0),
    (0, 0), 0, 0, 0, 0, 0, none⟩

/-- Admits a request whose prompt is complete, unless admission is deferred by the budget (R468, R470). -/
def State.tryAdmit (s : State) (slot : Nat) : State :=
  match s.reqAt slot with
  | none => s
  | some r =>
    if r.st = .prompt ∧ r.prompt.length = r.nprompt ∧ !s.ctl.deferAdm ∧ s.ctl.floorStep = 0 then s.takeIn slot else s

/-- SUBMIT. A second admission of a solo module is refused with outcome cancelled (R320). -/
def State.submit (s : State) (conn tag len : Nat) (ws : List Nat) : State :=
  let refuse := s.reply conn tag stREFUSED (submitReply 0xFFFF_FFFF 0x18)
  if submitBad len ws then s.reply conn tag stBADMSG []
  else if s.rcp.full || s.rcp.admitHold then s.reply conn tag stHELD []
  else match s.job with
    | none => refuse
    | some job =>
      if job.cfg.role = 3 ∨ !s.serving then refuse
      else if pfield ws 0x18 8 ≠ job.cfg.hash then s.reply conn tag stMISMATCH []
      else match s.reqs.find? fun r => (r.st != .done) && (r.reqid == pfield ws 0 16 || r.seq == pfield ws 0x10 8) with
        | some r => s.reply conn tag stEXISTS (submitReply r.slot 0xFF)
        | none =>
          match s.freeSlot job.cfg with
          | none =>
            if job.cfg.solo then
              (s.reqReceipt { newReq ws conn 0xFFFF_FFFF s.time with start := s.taiPair s.time, epoch := s.nv.epoch, firstIv := intervalOf s.time }
                0x18).reply conn tag stREFUSED (submitReply 0xFFFF_FFFF 0x18)
            else s.reply conn tag stFULL (submitReply 0xFFFF_FFFF 0xFF)
          | some n =>
            let t := { s with reqs := s.reqs ++ [newReq ws conn n s.time] }
            if (len - 0x194) / 4 < pfield ws 0x190 4 then t.reply conn tag stOK (submitReply n 0xFF)
            else (t.ask conn tag 1 n).tryAdmit n

def execSubmit (conn : Nat) (tag : Word) (len : Nat) (payload : List Word) (s : State) : Out :=
  s.served conn tag.toNat fun t => t.submit conn tag.toNat len (payload.map (·.toNat))

/-- BIND: the first 40 bytes of a SUBMIT, at a Cache module. -/
def State.bindMsg (s : State) (conn tag len : Nat) (ws : List Nat) : State :=
  if len ≠ 40 ∨ ws.length ≠ 10 then s.reply conn tag stBADMSG []
  else match s.job with
    | none => s.reply conn tag stREFUSED []
    | some job =>
      let seq := pfield ws 0x10 8
      if job.cfg.role ≠ 3 then s.reply conn tag stREFUSED []
      else if pfield ws 0x18 8 ≠ job.cfg.hash then s.reply conn tag stMISMATCH []
      else
        let old := s.binds.find? fun (b : Bind) => b.seq == seq
        let b : Bind := old.getD ⟨seq, 0, s.time, false, (0, 0, 0, 0), (0, 0), 0, 0, 0, 0, false, 0⟩
        let t : State := { s with binds := (s.binds.filter fun (x : Bind) => x.seq != seq) ++ [{ b with reqid := pfield ws 0 16 }] }
        t.reply conn tag stOK []

def execBind (conn : Nat) (tag : Word) (len : Nat) (payload : List Word) (s : State) : Out :=
  s.served conn tag.toNat fun t => t.bindMsg conn tag.toNat len (payload.map (·.toNat))

/-- PROMPT: tokens of a request that waits for its prompt. -/
def State.promptMsg (s : State) (conn tag len : Nat) (ws : List Nat) : State :=
  let first := pfield ws 16 4
  let n := pfield ws 20 4
  if len < 24 ∨ len ≠ 24 + 4 * n ∨ ws.length ≠ len / 4 then s.reply conn tag stBADMSG []
  else match s.reqs.find? fun r => r.isLive && r.st == .prompt && r.reqid == pfield ws 0 16 &&
      decide (r.prompt.length < r.nprompt) with
    | none => s.reply conn tag stNOTFOUND []
    | some r =>
      if r.nprompt < first + n then s.reply conn tag stBADMSG []
      else
        let put := fun (l : List (Nat × Nat)) (i : Nat) => tblPut l (first + i) (nthD 0 ws (6 + i) % 2 ^ 18)
        let t := s.setReq r.slot fun x => { x with prompt := (List.range n).foldl put x.prompt }
        (t.reply conn tag stOK []).tryAdmit r.slot

def execPrompt (conn : Nat) (tag : Word) (len : Nat) (payload : List Word) (s : State) : Out :=
  s.served conn tag.toNat fun t => t.promptMsg conn tag.toNat len (payload.map (·.toNat))

/-- PROMPT_TIMEOUT: 60 s after its SUBMIT a request with an incomplete prompt is released. -/
def execPromptTimeout (slot : BitVec 12) (s : State) : Out :=
  match s.reqAt slot.toNat with
  | none => .next s
  | some r =>
    if r.st = .prompt ∧ r.prompt.length < r.nprompt then
      .next ((s.waitTime (r.submitted + 60 * second)).endReq r.slot 0x18)
    else .next s

/-- BIND_EXPIRY: 1 h after a BIND whose sequence never opened. -/
def execBindExpiry (seq : Nat) (s : State) : Out :=
  match s.binds.find? fun (b : Bind) => b.seq == seq && !b.opened with
  | none => .next s
  | some b =>
    let t := s.waitTime (b.at_ + 3600 * second)
    .next { t with binds := t.binds.filter fun (x : Bind) => x.seq != seq }

/-! ### Token streams (R553 to R555) -/

/-- TOKENS: once the poison hold has ended, what a step emitted is streamed; the message with the last token, or that ends a
cancelled request at its step boundary, has END set. -/
def execTokens (slot : BitVec 12) (s : State) : Out :=
  match s.reqAt slot.toNat with
  | none => .next s
  | some r =>
    let ts := r.tokens.drop r.sent
    let fin := match r.endOf with
      | some c => some c
      | none => if r.cancel && r.step.isNone then some 0x10 else none
    if !s.serving then .next s
    else match fin with
      | some c => .next ((s.waitTime r.holdTo).endReq r.slot c)
      | none =>
        if ts.isEmpty then .next s
        else
          let t := (s.waitTime r.holdTo).setReq r.slot fun x => { x with sent := x.tokens.length }
          let first := (ts.head?.map (·.1)).getD 0
          .next (match r.conn with
            | some c => ({ t with streamed := t.streamed + ts.length } : State).send (.mgmt c) "TOKENS"
                (tokensMsg r first (ts.map (·.2)) 0xFF)
            | none => t)

/-- Whether a released request's tokens are still kept: for 60 s. -/
def Req.kept (r : Req) (now : Nat) : Bool :=
  match r.released with
  | none => true
  | some a => decide (now < a + 60 * second)

/-- RESUME: re-sends from an index on this connection, which becomes the stream connection. -/
def State.resume (s : State) (conn tag reqid idx : Nat) : State :=
  match s.reqs.reverse.find? fun r => r.reqid == reqid && r.kept s.time && s.serving with
  | none => s.reply conn tag stNOTFOUND []
  | some r =>
    let same := fun (x : Req) => x.reqid == reqid && x.submitted == r.submitted
    let t : State := { s with reqs := s.reqs.map fun x => if same x then { x with conn := some conn } else x }
    let ts := (r.tokens.take r.sent).filter fun e => idx ≤ e.1
    let t := t.reply conn tag stOK []
    if ts.isEmpty && r.isLive then t
    else ({ t with streamed := t.streamed + ts.length } : State).send (.mgmt conn) "TOKENS"
      (tokensMsg r ((ts.head?.map (·.1)).getD r.nextIdx) (ts.map (·.2)) (r.endCode.getD 0xFF))

def execResume (conn : Nat) (tag : Word) (reqid : BitVec 128) (idx : BitVec 64) (s : State) : Out :=
  s.served conn tag.toNat fun t => t.resume conn tag.toNat reqid.toNat idx.toNat

/-- TOKEN_RETENTION_EXPIRY: 60 s after a release its tokens go. -/
def execTokenRetentionExpiry (slot : BitVec 12) (s : State) : Out :=
  match s.reqs.find? fun r => r.slot == slot.toNat && r.released.isSome && (r.st == .done || !r.tokens.isEmpty) with
  | none => .next s
  | some r =>
    let t := s.waitTime ((r.released.getD 0) + 60 * second)
    let same := fun (x : Req) => x.slot == r.slot && x.submitted == r.submitted && x.released == r.released
    if r.st = .done then .next { t with reqs := dropFirst same t.reqs }
    else .next { t with reqs := t.reqs.map fun x => if same x then { x with tokens := [] } else x }

/-- CANCEL: at the first step boundary; a request with no step in flight stands at one. -/
def State.cancelMsg (s : State) (conn tag reqid : Nat) : State :=
  match s.reqs.reverse.find? fun r => r.reqid == reqid && s.serving with
  | none => s.reply conn tag stNOTFOUND []
  | some r =>
    match r.endCode with
    | some c => s.reply conn tag stOK (cancelReply r.nextIdx c)
    | none =>
      let t := (s.ask conn tag 2 r.slot).setReq r.slot fun x => { x with cancel := true }
      if r.step.isSome then t else (t.waitTime r.holdTo).endReq r.slot ((r.endOf).getD 0x10)

def execCancel (conn : Nat) (tag : Word) (reqid : BitVec 128) (s : State) : Out :=
  s.served conn tag.toNat fun t => t.cancelMsg conn tag.toNat reqid.toNat

/-! ### Receipts and telemetry (R556 to R559) -/

/-- ACK. -/
def execAck (conn : Nat) (tag : Word) (fnum : BitVec 64) (s : State) : Out :=
  s.served conn tag.toNat fun t =>
    if t.rcp.store.any fun f => f.fnum == fnum.toNat then
      ((t.mapRcp fun x => { x with store := x.store.filter fun f => f.fnum != fnum.toNat }).storeCheck).reply conn tag.toNat stOK []
    else t.reply conn tag.toNat stNOTFOUND []

/-- GET: NOTFOUND where a flacon of the range is no longer held. -/
def execGet (conn : Nat) (tag : Word) (first last : BitVec 64) (s : State) : Out :=
  s.served conn tag.toNat fun t =>
    let mine := t.rcp.store.filter fun f => first.toNat ≤ f.fnum && f.fnum ≤ last.toNat
    let whole := mine.length == last.toNat + 1 - first.toNat && decide (first.toNat ≤ last.toNat)
    mine.foldl (fun (u : State) f => u.deliver conn f) (t.reply conn tag.toNat (if whole then stOK else stNOTFOUND) [])

/-- SUBSCRIBE: a period of 100 ms to 60,000 ms, or 0. -/
def execSubscribe (conn : Nat) (tag period flags : Word) (s : State) : Out :=
  s.served conn tag.toNat fun t =>
    let p := period.toNat
    if p ≠ 0 ∧ (p < 100 ∨ 60000 < p) then t.reply conn tag.toNat stBADMSG []
    else
      let x : Sub := ⟨conn, p, flags.toNat % 4, t.time + p * msec, t.streamed⟩
      let rest := t.subs.filter fun (y : Sub) => y.conn != conn
      ({ t with subs := if p = 0 ∧ flags.toNat % 4 = 0 then rest else rest ++ [x] } : State).reply conn tag.toNat stOK []

/-- The highest reading of TEL_TEMP and OEN_TEMP, in units of 1/16 °C above −40 °C; none while no sensor is powered. -/
def State.hottest (s : State) : Option Nat :=
  let sites := (List.range 1296).filter s.siteOn
  let oens := (List.range 16).filter fun e => s.enabled (pgOEN e)
  let l := sites.map (fun x => s.fld (pgTEL x 1) 0x040 0 12) ++ oens.map fun e => s.fld (pgOEN e) 0x048 0 12
  if l.isEmpty then none else some (l.foldl max 0)

/-- Live sequences of the module. -/
def State.liveSeqs (s : State) : Nat :=
  if s.role = 3 then (s.binds.filter fun (b : Bind) => b.opened).length else (s.reqs.filter Req.isLive).length

/-- A REPORT (Table 19.6); `seen` is the count of streamed tokens at the one before. -/
def State.report_ (s : State) (seen : Nat) : List Nat :=
  cborMap [(1, cborBytes (le 8 s.modid)), (2, cborTime (s.taiPair s.time)), (3, cborUint s.time), (4, cborUint s.role),
    (5, cborUint s.jobHash), (6, cborUint s.step), (7, cborUint s.gLevel), (8, cborUint s.capEff),
    (9, cborUint (s.fld pgPWR 0x060 16 14)), (10, cborUint (s.mtr.total / 1000)),
    (11, cborArr ((List.range 9).map fun i => cborUint (s.reg64 pgPWR (0x100 + 8 * i)))),
    (12, cborArr [cborUint (s.sitesIn .spare).length, cborUint (s.sitesIn .idle).length, cborUint s.uncovered]),
    (13, cborUint (s.mcsIn stSPARE).length),
    (14, cborArr ((List.range 16).map fun e => cborUint (s.fld (pgOEN e) 0x044 12 3))),
    (15, cborUint (s.reg (pgFLT 3) 0x040)), (16, cborInt ((s.hottest.getD 640 : Nat) / 16 - 40)),
    (17, cborUint s.liveSeqs), (18, cborUint (s.streamed - seen)), (19, cborUint s.rcp.store.length),
    (20, cborArr ((List.range 3).map fun i => cborUint (s.reg64 (pgFLT 0) (0x050 + 8 * i))))]

/-- REPORT: at each period of a subscription, and over UDP to a collector that the boot configuration names (R547). -/
def execReport (conn : Nat) (s : State) : Out :=
  match s.subs.find? fun (x : Sub) => x.conn == conn && x.period != 0 with
  | none => .next s
  | some x =>
    let t := s.waitTime x.due
    let u := t.send (.mgmt conn) "REPORT" (t.report_ x.seen)
    let u := if t.udp then u.send .udp "REPORT" (t.report_ x.seen) else u
    .next { u with subs := u.subs.map fun (y : Sub) =>
      if y.conn == conn then { y with due := x.due + x.period * msec, seen := u.streamed } else y }

/-! ### Content transfers (R562) -/

/-- Types of Table 19.7 that a transfer carries. -/
def tyOSIMG : Nat := 1
def tySEQIMG : Nat := 2
def tyPACK : Nat := 3
def tyLICENCE : Nat := 4
def tyJOBLOAD : Nat := 5

/-- A FIRMWARE message: while only the boot ROM answers, of type OSIMG alone. -/
def State.fwServed (s : State) (conn tag ty : Nat) (act : State → State) : Out :=
  if s.romOnly && ty == tyOSIMG && s.conns.contains conn && s.svcUp then .next (act s) else s.served conn tag act

/-- BEGIN: total length and SHA-256. -/
def execBegin (conn : Nat) (tag : Word) (ty : BitVec 16) (len : Nat) (hash : List (BitVec 8)) (s : State) : Out :=
  s.fwServed conn tag.toNat ty.toNat fun t =>
    if ty.toNat < 1 ∨ 5 < ty.toNat ∨ hash.length ≠ 32 then t.reply conn tag.toNat stBADMSG []
    else if t.contents.any fun (c : Content) => c.ty == ty.toNat then t.reply conn tag.toNat stBUSY []
    else ({ t with contents := t.contents ++ [⟨conn, ty.toNat, len, hash.map fun (b : BitVec 8) => b.toNat, []⟩] } : State).reply
      conn tag.toNat stOK []

/-- The open transfer of a type on a connection. -/
def State.content (s : State) (conn ty : Nat) : Option Content := s.contents.find? fun (c : Content) => c.conn == conn && c.ty == ty

/-- DATA: up to 1 MiB at an offset, in any order. -/
def execData (conn : Nat) (tag : Word) (ty : BitVec 16) (off : Nat) (bytes : List (BitVec 8)) (s : State) : Out :=
  s.fwServed conn tag.toNat ty.toNat fun t =>
    match t.content conn ty.toNat with
    | none => t.reply conn tag.toNat stNOTFOUND []
    | some c =>
      if 2 ^ 20 < bytes.length ∨ c.len < off + bytes.length then t.reply conn tag.toNat stBADMSG []
      else
        let put := fun (x : Content) => if x.conn == conn && x.ty == ty.toNat then
          { x with data := x.data ++ [(off, bytes.map fun (b : BitVec 8) => b.toNat)] } else x
        ({ t with contents := t.contents.map put } : State).reply conn tag.toNat stOK []

/-- Byte `i` of a transfer: the last one received. -/
def Content.byte (c : Content) (i : Nat) : Option Nat :=
  (c.data.reverse.find? fun (d : Nat × List Nat) => d.1 ≤ i && i < d.1 + d.2.length).bind fun d => d.2[i - d.1]?

/-- The content of a transfer whose length and hash hold. -/
def Content.whole (c : Content) : Option (List Nat) :=
  match (List.range c.len).mapM c.byte with
  | none => none
  | some b => if sha256 b = c.hash then some b else none

/-- END of a type: the transfer closes; a mismatch is refused, else the type's action follows. -/
def State.endContent (s : State) (conn tag ty : Nat) (act : State → List Nat → State) : Out :=
  s.fwServed conn tag ty fun t =>
    match t.content conn ty with
    | none => t.reply conn tag stNOTFOUND []
    | some c =>
      let u : State := { t with contents := t.contents.filter fun (x : Content) => x.conn != conn || x.ty != ty }
      match c.whole with
      | none => u.reply conn tag stREFUSED []
      | some b => act u b

/-- OSIMG (R574, R575): an image that verifies goes to the slot not selected; the boot ROM of a halted module boots it at
once, with the steps that `res` says. -/
def execOsimg (conn : Nat) (tag : Word) (version : BitVec 31) (ok : Bool) (res : BootRes) (s : State) : Out :=
  s.endContent conn tag.toNat tyOSIMG fun t b =>
    if !ok ∨ version.toNat < t.nv.minVersion then t.reply conn tag.toNat stREFUSED []
    else
      let slots := (t.nv.slots ++ List.replicate 2 (⟨0, [], false⟩ : OsSlot)).take 2
      let slots := slots.set (1 - t.nv.sel) (⟨version.toNat, sha256 b, true⟩ : OsSlot)
      let u := ({ t with nv := { t.nv with slots := slots, newImage := true } } : State).reply conn tag.toNat stOK []
      if t.romOnly then u.bringUp res true else u

/-- SEQIMG (R568): firmware sets the BC registers and starts the broadcast; the reply follows the commit. -/
def execSeqimg (conn : Nat) (tag : Word) (s : State) : Out :=
  s.endContent conn tag.toNat tySEQIMG fun t b =>
    if b.isEmpty ∨ imemBytes < b.length then t.reply conn tag.toNat stREFUSED []
    else if t.bcast.open_ then t.reply conn tag.toNat stBUSY []
    else
      let h := sha256 b
      let t := (t.setReg pgSVC 0x084 ((t.fld pgSVC 0x084 0 16 + 1) % 2 ^ 16)).setReg pgSVC 0x088 b.length
      let t := (List.range 8).foldl (fun (u : State) i => u.setReg pgSVC (0x0A0 + 4 * i) (fromLe ((h.drop (4 * i)).take 4))) t
      ((t.setReg pgSVC 0x08C 0x2300_2300).ask conn tag.toNat 3 0).bcStart b []

/-- PACK (R538). -/
def execPack (conn : Nat) (tag : Word) (packid version : Nat) (major : BitVec 8) (ok : Bool) (s : State) : Out :=
  s.endContent conn tag.toNat tyPACK fun t _ =>
    let old := t.nv.packs.find? fun p => p.1 == packid
    if !ok ∨ major ≠ 1#8 ∨ old.any (fun p => decide (version ≤ p.2)) then t.reply conn tag.toNat stREFUSED []
    else ({ t with nv := { t.nv with packs := (t.nv.packs.filter fun p => p.1 != packid) ++ [(packid, version)] } } : State).reply
      conn tag.toNat stOK []

/-- LICENCE (R582). -/
def execLicence (conn : Nat) (tag : Word) (lic : Licence) (s : State) : Out :=
  s.endContent conn tag.toNat tyLICENCE fun t _ =>
    let newer := t.nv.licCtr < lic.version ∨ (t.nv.licCtr = lic.version ∧ t.accepted.isNone)
    if !t.licenceFits lic ∨ ¬newer then t.reply conn tag.toNat stREFUSED []
    else
      let u : State := { t with nv := { t.nv with licCtr := max t.nv.licCtr lic.version, lics := [lic, lic] } }
      (u.setFld (pgGLB 1) 0x048 8 1 1).reply conn tag.toNat stOK []

/-! ### JOB_LOAD (R350 to R352, R583) -/

/-- The licence's reason to refuse a job (Table 20.5); 0 where there is none. -/
def State.licenceReason (s : State) (c : JobCfg) (j7 : Bool) : Nat :=
  if !s.flag (pgGLB 1) 0x048 0 then 1
  else if c.role = 0 ∨ 3 < c.role ∨ !bitOf (s.fld (pgGLB 1) 0x048 3 3) (c.role - 1) then 2
  else if c.pair && !s.flag (pgGLB 1) 0x048 6 then 3
  else if j7 && !s.j7 then 4
  else 0

/-- Whether a table entry has a place and no reserved encoding. -/
def RouteEnt.ok (e : RouteEnt) : Bool :=
  decide (e.site < 1296) && decide (e.idx < 1024) && e.ws.length == 4 &&
    (e.ws.all (· == 0) ||
      (if e.sel = 0 then txValid e.ws else if e.sel = 1 then rxValid e.ws
      else if e.sel = 2 then decide (e.idx < 512) && routeValid e.ws else decide (e.sel < 8) && orderValid e.ws))

/-- A route entry's port, where it sends its transfers outward: an output of the router's four sides. -/
def RouteEnt.port (e : RouteEnt) : Option (Nat × Nat) :=
  let o := ent e.ws 0 2 3
  if e.sel = 2 ∧ routeValid e.ws = true ∧ o < 4 then some (e.site, o) else none

/-- Every router table of an image: base, variants and the route sets of its records. -/
def Placement.routes (p : Placement) : List RouteEnt :=
  p.base.tables ++ (p.variants.flatMap fun v => v.2.tables) ++ p.records.flatMap fun r => r.cands.flatMap fun c => c.routes

/-- Every outward transfer (site, port) that an image's tables, variants and substitution records assign (R16). -/
def Placement.outward (p : Placement) : List (Nat × Nat) :=
  p.base.out ++ (p.variants.flatMap fun v => v.2.out) ++ p.routes.filterMap RouteEnt.port

/-- STATUS and DETAIL of Table 12.3 for a load that is not yet made; (0, 0) where nothing refuses it. `part` is a part of the
image whose signature or hash does not match. Tile images and routes are those of the whole image; the binding of used LTNs to
sites is the LTN map's (log entry 204). -/
def State.loadCheck (s : State) (c : JobCfg) (p : Placement) (j7 : Bool) (part : Option Nat) : Nat × Nat :=
  let used := p.base.tiles
  let siteOf := fun (n : Nat) => nthD 1296 p.base.map n
  let first := fun {α : Type} (l : List α) (f : α → Bool) => l.find? f
  match part with
  | some k => (8, k)
  | none =>
    if s.job.isSome then (2, 0)
    else if s.licenceReason c j7 ≠ 0 then (1, s.licenceReason c j7)
    else match first p.images fun i => decide (s.ltns ≤ i.ltn) with
      | some i => (4, i.ltn)
      | none =>
      match first used fun i => s.outOfService (siteOf i.ltn) || decide (1296 ≤ siteOf i.ltn) with
      | some i => (3, siteOf i.ltn)
      | none =>
      match first p.routes fun e => e.sel == 2 && routeValid e.ws && !s.forwards e.site with
      | some e => (3, e.site)
      | none =>
      match first p.outward fun e => attachment e.1 e.2 == .terminated with
      | some e => (5, 4 * e.1 + e.2)
      | none =>
      match first p.routes fun e => !e.ok with
      | some e => (6, e.site * 2 ^ 16 + e.idx)
      | none =>
      match first p.images fun i => decide (spadBytes < i.size) || !i.fits with
      | some i => (7, i.ltn)
      | none =>
      match first p.images fun i => i.ctx7 with
      | some i => (9, i.ltn)
      | none =>
        let verdict := fun (x : Nat) =>
          let m := s.map x
          mapVerdictOf m ((m.epoch + 1) % 2 ^ 32) p.base.map (crc32c (mapBytes p.base.map))
        match first s.liveRouters fun x => verdict x != 0 with
        | some x => (0x0A, x * 2 ^ 8 + verdict x)
        | none => (0, 0)

/-- One tile image is installed at its site, and its golden copies are written from its initial contents (R357). -/
def State.loadTile (s : State) (img : TileImg) (site : Nat) : State :=
  let t := s.prepare img site site
  let t := t.initSpad img site
  img.rlist.foldl (fun (u : State) e =>
    let ws := (List.range (e.len / 4)).map fun i => (u.spadWord site (e.off / 4 + i)).v
    (u.memSet e.a ws).memSet e.b ws) t

/-- Advertises the job on every port (R385, Table 13.2). -/
def State.advertise (s : State) : State :=
  let info := s.role * 2 ^ 8 + s.rcptMode * 2 ^ 16
  (List.range 32).foldl (fun (t : State) p =>
    ((t.optAdv p 0 info).optAdv p 1 (s.jobHash % 2 ^ 32)).optAdv p 2 (s.jobHash / 2 ^ 32)) s

/-- The attention key of the job is bound in every tile of a Cache module that is in service (R344; log entry 201). -/
def State.bindAttn (s : State) (key : List Nat) : State :=
  (List.range 1296).foldl (fun (t : State) x => if t.siteClass x == .out then t else t.setKey x 0 ⟨key, true, 0xFF⟩) s

/-- The load itself: map, tables, tiles, golden copies, sequence table (R332), attention key, advertisement. The generations of
pages stay, since a page goes on from its last one (R299). -/
def State.loadJob (s : State) (c : JobCfg) (p : Placement) : State :=
  let cur := s.gridMap
  let pairs := ((List.range p.base.map.length).zip p.base.map).filter fun e => cur[e.1]? != some e.2
  let routers := (p.base.tables.map (·.site)).dedup
  let t := routers.foldl (fun (u : State) x => u.holdBlk (pgRTR x 0)) s
  let t := p.base.tables.foldl State.writeEntry t
  let t := changeMaps (pairs.length + 1) pairs t
  let t := routers.foldl (fun (u : State) x => u.freeBlk (pgRTR x 0)) t
  let job : Job := ⟨c, p, p.base.stages.map fun _ => .running, [], p.records, t.time, none, [], []⟩
  let t : State := { t with
    job := some job
    msgs := []
    attns := []
    pages := []
    chunks := []
    oldDirs := []
    heldQ := []
    closes := []
    ctl := { t.ctl with model := [], deferAdm := false } }
  let t := p.base.tiles.foldl (fun (u : State) i => u.loadTile i (nthD 1296 p.base.map i.ltn)) t
  let t := t.checkGolden
  let open_ := fun (r : SubstRec) => { r with cands := r.cands.filter fun x => t.siteClass x.site == .spare || t.siteClass x.site == .idle }
  let t := t.mapJob fun j => { j with records := j.records.map open_ }
  let t := if c.role = 3 then
      (t.memSet c.seqTab (List.replicate (16 * cacheSlots) 0)).bindAttn c.attnKey
    else t
  (t.checkSpares.pairEnter.advertise).event 0x08 (cborMap [(1, cborUint 1)])

/-- The load status record (R352). -/
def State.loadStatus (s : State) (code detail : Nat) (p : Placement) : List Nat :=
  let vm := (p.variants.map fun v => v.1).foldl (fun a f => a ||| 2 ^ f) 0
  layout 13 [(0, 1, code), (1, 4, detail), (5, 2, (s.sitesIn .spare).length), (7, 2, (s.sitesIn .idle).length), (9, 2, s.uncovered),
    (11, 2, vm)]

/-- A configuration as loaded: JOBHASH is the first 8 bytes of the SHA-256 digest of its image, the window 0 to 255 spans (R313). -/
def JobCfg.loaded (c : JobCfg) (image : List Nat) : JobCfg :=
  { c with hash := fromLe ((sha256 image).take 8), window := c.window % 256 }

/-- JOB_LOAD: `at_` and `len` say where the configuration image stands in the content, `part` is a part of the image whose
signature or hash does not match, `j7` whether the job uses J7 mode. -/
def execJobLoad (conn : Nat) (tag : Word) (cfg : JobCfg) (at_ len : Nat) (place : Placement) (j7 : Bool) (part : Option Nat)
    (s : State) : Out :=
  s.endContent conn tag.toNat tyJOBLOAD fun t b =>
    let cfg := cfg.loaded ((b.drop at_).take len)
    match t.loadCheck cfg place j7 part with
    | (0, _) => let u := t.loadJob cfg place; u.reply conn tag.toNat stOK (u.loadStatus 0 0 place)
    | (k, d) => t.reply conn tag.toNat stREFUSED (t.loadStatus k d place)

/-- JOB_UNLOAD (R28): live requests end with JOB_END. -/
def execJobUnload (conn : Nat) (tag : Word) (s : State) : Out :=
  s.served conn tag.toNat fun t =>
    if t.job.isSome then (t.endJob 0x15).reply conn tag.toNat stOK [] else t.reply conn tag.toNat stNOTFOUND []

/-- INVENTORY: licensed LTNs, fabrication-defective sites, retired sites, FAILED link directions (R351, R421). -/
def execInventory (conn : Nat) (tag : Word) (s : State) : Out :=
  s.served conn tag.toNat fun t =>
    let failed := (List.range 5184).filter fun n => t.linkFailed (n / 4) (n % 4)
    t.reply conn tag.toNat stOK ([t.ltns, t.badSites.length] ++ t.badSites ++ [t.nv.retired.length] ++ t.nv.retired ++
      [failed.length] ++ failed)

/-- CERT (R501): the certificate of the signing key in use. -/
def execCert (conn : Nat) (tag : Word) (s : State) : Out :=
  s.served conn tag.toNat fun t => t.reply conn tag.toNat stOK (Config.certificate t.rcp.keyId)

/-! ### Watchdog and cores (R546, R564) -/

/-- KICK. -/
def execKick (s : State) : Out := .next { s with boot := { s.boot with kick := s.time } }

/-- CORE_HALT: halts, then resumes, service cores; ignored with WLOCK while CORE_DBG is 0. -/
def execCoreHalt (halt resume : BitVec 8) (s : State) : Out :=
  if s.flag pgSVC 0x054 0 then
    .next (s.setFld pgSVC 0x048 0 8 ((s.fld pgSVC 0x048 0 8 &&& (255 - halt.toNat)) ||| resume.toNat))
  else .next (s.wlock pgSVC)

end Sys2Proof.Machine
end

