-- ==== Sys2Proof/Machine/PairOps.lean ====
section
/-! DEFINITION. The paired operation of two modules (chapter 21): HELLO, the stream of a primary, what a mirror holds and
applies, commits, takeover, handover, resynchronisation. -/

namespace Sys2Proof.Machine

open Sys2Proof

/-- Changes the pair. -/
def State.mapPair (s : State) (f : Pair → Pair) : State := { s with pair := f s.pair }

/-- A mirror, synchronised or not, whose page runs. -/
def State.mirrors (s : State) : Bool := (s.pairSt == 3 || s.pairSt == 4) && s.enabled pgPAIR

/-- A mirror is synchronised while it holds the stream complete and has met the PAIR_SENSE condition (R599). -/
def State.syncCheck (s : State) : State :=
  if s.pairSt = 4 ∧ s.pair.complete ∧ s.pair.senseOk then s.setPairSt 3 else s

/-- A primary's partner counts as synchronised once its ACK covers a COMMIT sent since the page was enabled, or since the last
gap by a RESYNC. -/
def State.protectCheck (s : State) : State :=
  if s.pairSt = 2 ∧ s.pair.need ≤ s.reg64 pgPAIR 0x060 ∧ s.reg64 pgPAIR 0x060 ≤ s.pair.acked then s.setPairSt 1 else s

/-- A replying message that waited for the mirror's ACK goes out once it is covered (R597). -/
def State.sendHeld (s : State) : State :=
  let (go, stay) := s.pair.held.partition fun (h : Nat × OutMsg) => decide (h.1 ≤ s.pair.acked)
  let t := s.mapPair fun p => { p with held := stay }
  { t with outbox := t.outbox ++ go.map (·.2) }

/-! ### HELLO (R596, R602) -/

/-- The step of an operating primary is asked for as R409 sets out, unless it is current or a change is pending. -/
def State.followStep (s : State) (step : Nat) : State :=
  if step = s.step ∨ 7 < step ∨ s.stepPend.isSome then s
  else
    let t := (s.setFld pgTIM 0x048 0 3 step).setReg64 pgTIM 0x050 (max s.time s.lastSwitch + 50 * usec)
    (execGo t).stateOr t

/-- Receipts of a former primary that is still powered: completed, no END_REASON (R603). -/
def State.sealFormer (s : State) : State :=
  let t := (s.reqs.filter Req.isLive).foldl (fun (u : State) r => u.reqReceipt r 0x00) s
  (t.binds.filter fun (b : Bind) => b.opened).foldl (fun (u : State) b =>
    u.bindReceipt ((u.job.bind fun j => u.openSlot j.cfg b.seq).getD 0) b) t

/-- A server that meets a higher EPOCH stops issuing work and becomes mirror, UNSYNCED; what it served is its partner's now. -/
def State.demote (s : State) (epoch : Nat) : State :=
  let t := (s.sealFormer.setReg pgPAIR 0x058 epoch).dropSense
  let t : State := { t with
    reqs := t.reqs.filter fun (r : Req) => !r.isLive
    attns := []
    msgs := []
    heldQ := []
    closes := [] }
  let t := t.mapPair fun p => { Pair.init with stepNo := p.stepNo, helloAt := p.helloAt, senseSince := t.time, gap := true }
  (t.setPairSt 4).advertise

/-- HELLO: the partner's EPOCH, ROLE, operating step and last committed step. -/
def execHello (epoch : Word) (role step : BitVec 8) (s : State) : Out :=
  if s.pairSt = 0 then .next s
  else
    let e := s.reg pgPAIR 0x058
    let t := if e < epoch.toNat then (if s.serving then s.demote epoch.toNat else s.setReg pgPAIR 0x058 epoch.toNat) else s
    .next (if !t.serving && role.toNat == 1 then t.followStep step.toNat else t)

/-- HELLO_SEND: every 100 µs. -/
def execHelloSend (s : State) : Out :=
  if s.pairSt = 0 then .next s
  else
    let t := s.waitTime (s.pair.helloAt + 100 * usec)
    let u := t.pairSend "HELLO" (layout 14 [(0, 4, t.reg pgPAIR 0x058), (4, 1, t.pairRole), (5, 1, t.step), (6, 8, t.reg64 pgPAIR 0x060)])
    .next (u.mapPair fun p => { p with helloAt := t.time })

/-! ### A mirror receives the stream (R598, R599) -/

/-- ADMIT: a sequence, its SUBMIT payload and the CSLOTs; a slot that is held already is taken anew, as by a RESYNC. -/
def execPairAdmit (slot : Nat) (payload : List Word) (s : State) : Out :=
  let ws := payload.map (·.toNat)
  let ns := pfield ws 0x2C 1
  if s.mirrors ∧ 101 + ns ≤ ws.length then
    let sub := ws.take (ws.length - ns)
    let old := s.reqAt slot
    let t := match old with
      | some r => { s.dropAllLocal r with reqs := s.reqs.filter fun (x : Req) => !(x.slot == slot && x.isLive) }
      | none => s
    let r := newReq sub 0 slot t.time
    let q : Req := { r with
      conn := none
      st := .live
      answers := (List.range ns).map fun j => some (0, nthD 0 ws (ws.length - ns + j)) }
    .next (({ t with reqs := t.reqs ++ [q] } : State).bindSlot q)
  else .next s

/-- DELTA: held apart until its COMMIT. Its number is that of the next step; of a later step it shows a gap. -/
def execDelta (step : Nat) (slot layer : Nat) (kind : BitVec 8) (data : List Nat) (s : State) : Out :=
  if !s.mirrors ∨ step ≤ s.pair.stepNo then .next s
  else
    let t := if (s.pair.gap || step == s.pair.stepNo + 1) && !s.injPend pgPAIR 9 then s else s.unsync
    .next (t.mapPair fun p => { p with deltas := (p.deltas.filter fun (d : Delta) => d.step == step) ++
      (if s.pair.gap then [] else p.deltas.filter fun (d : Delta) => d.step != step) ++ [⟨step, slot, layer, kind.toNat, data⟩] })

/-- STEP: a step of the primary is complete here, and acknowledged. After a gap only that of a RESYNC, which has no rows, is
taken. -/
def execPairStep (number : Nat) (seqs : List PairSeq) (s : State) : Out :=
  if !s.mirrors ∨ number ≤ s.pair.stepNo then .next s
  else
    let ack := fun (t : State) => t.pairSend "ACK" (layout 8 [(0, 8, number)])
    let take := fun (t : State) => t.mapPair fun p => { p with stepNo := number, acked := number, steps := p.steps ++ [(number, seqs)] }
    if s.pair.gap then
      if seqs.isEmpty then .next (ack (take (s.mapPair fun p => { p with gap := false, steps := [] })))
      else .next (s.mapPair fun p => { p with stepNo := number, deltas := [] })
    else if number = s.pair.stepNo + 1 then .next (ack (take s))
    else .next (s.unsync.mapPair fun p => { p with stepNo := number })

/-- A word with its poison in bit 32. -/
def unpack (v : Nat) : PWord := ⟨v % 2 ^ 32, bitOf v 32⟩

/-- A DELTA of KIND 0: T, NS, the tail index of its first row, tokens, rows. Local pages that left the window are
acknowledged, since a later step was issued, and go. -/
def State.applyTail (s : State) (c : JobCfg) (d : Delta) : State :=
  let at_ := fun (i : Nat) => nthD 0 d.data i
  let (t, ns) : Nat × Nat := (at_ 0 + at_ 1 * 2 ^ 32, at_ 2 + at_ 3 * 2 ^ 32)
  let k := at_ 5
  let size := max 1 (c.count * c.hkv * 256)
  let ws := d.data.drop (6 + k)
  let rows := (List.range (ws.length / size)).map fun i => (ws.drop (size * i)).take size
  let toks := (List.range k).map fun i => (t + 1 + i - k, at_ (6 + i))
  let u := s.setReq d.slot fun r => { r with
    t := t
    ns := ns
    handoff := true
    tail := r.tail.take (at_ 4) ++ rows
    tokens := if k = 0 then r.tokens else toks
    sent := if k = 0 then r.sent else k
    missing := r.missing.filter fun e => ns ≤ e.1 + c.window }
  u.dropLocal d.slot

/-- A DELTA of KIND 1: a sealed local page. The first page of span NS moves the tail on. -/
def State.applyLocal (s : State) (d : Delta) : State :=
  let a := nthD 0 d.data 0 + nthD 0 d.data 1 * 2 ^ 32
  let h := (d.data.drop 2).take 64
  let (fmt, hg, layer) : Nat × Nat × Nat := (pfield h 2 1, pfield h 3 1, pfield h 4 2)
  let span := pfield h 16 5
  match s.reqAt d.slot with
  | none => s
  | some r =>
    let t := s.takePage a fmt hg layer (pfield h 6 1) r.seq span
    let t := (t.waitTime (t.time + genWait)).memSetP (a + 0x100) (pageBody ((d.data.drop 66).map unpack))
    t.setReq d.slot fun x => { x with
      ns := if span = x.ns then span + 1 else x.ns
      tail := if span = x.ns then x.tail.drop 64 else x.tail
      local_ := x.local_ ++ [(span, layer, hg, a)]
      missing := x.missing ++ [(span, layer, hg)] }

/-- A DELTA of KIND 2: a Cache page and its table entry. -/
def State.applyPage (s : State) (c : JobCfg) (d : Delta) : State :=
  let a := nthD 0 d.data 0 + nthD 0 d.data 1 * 2 ^ 32
  let h := (d.data.drop 2).take 64
  let (fmt, hg, layer) : Nat × Nat × Nat := (pfield h 2 1, pfield h 3 1, pfield h 4 2)
  let span := pfield h 16 5
  match s.makePtEnt c d.slot layer hg span with
  | none => s
  | some (ent, t) =>
    let t := t.takePage a fmt hg layer (pfield h 6 1) (pfield h 8 8) span
    let t := (t.waitTime (t.time + genWait)).memSetP (a + 0x100) (pageBody ((d.data.drop 66).map unpack))
    t.memSet ent (wordsN 2 (a + t.lastGen a * 2 ^ 48))

/-- A sequence of a Cache module's mirror is freed, with its pages, chunks and directory. -/
def State.dropSeq (s : State) (c : JobCfg) (cslot : Nat) : State :=
  let e := s.seqEnt c cslot
  let t := (List.range e.dirLen).foldl (fun (u : State) i =>
    let a := u.mem64 (e.dirAt i) % 2 ^ 48
    if a = 0 then u else u.freeChunk a) s
  let t : State := { t with
    chunks := t.chunks.filter fun x => e.dirLen == 0 || x < e.dir || e.dir + 8 * e.dirLen ≤ x
    binds := t.binds.filter fun (b : Bind) => b.seq != e.seq }
  t.setSeqEnt c cslot ⟨0, 0, 0, 0, 0, 0⟩

/-- A DELTA of KIND 3: a Cache sequence-table entry; one that is closing is freed, since a mirror runs no QUERY. -/
def State.applyEntry (s : State) (c : JobCfg) (d : Delta) : State :=
  let ws := d.data
  let e : SeqEnt := ⟨pfield ws 0 8, pfield ws 8 1, pfield ws 9 1, pfield ws 10 1, 0, 0⟩
  if e.st ≠ 1 then s.dropSeq c d.slot
  else
    let old := s.binds.find? fun (b : Bind) => b.seq == e.seq
    let b : Bind := old.getD ⟨e.seq, 0, s.time, true, (0, 0, 0, 0), (0, 0), 0, 0, 0, 0, false, 0⟩
    let t := s.setSeqEnt c d.slot e
    { t with binds := (t.binds.filter fun (x : Bind) => x.seq != e.seq) ++ [{ b with opened := true }] }

/-- Applies one DELTA. -/
def State.applyDelta (s : State) (c : JobCfg) (d : Delta) : State :=
  match d.kind with
  | 0 => s.applyTail c d
  | 1 => s.applyLocal d
  | 2 => s.applyPage c d
  | 3 => s.applyEntry c d
  | _ => s

/-- A RESYNC's step replaces what the mirror held: its Cache tables are emptied, and requests that it does not name go. -/
def State.clearMirror (s : State) (c : JobCfg) (ds : List Delta) : State :=
  if c.role = 3 then
    let t := (List.range cacheSlots).foldl (fun (u : State) n => if (u.seqEnt c n).st = 0 then u else u.dropSeq c n) s
    { t with pages := [], chunks := [] }
  else if c.role = 2 then
    let gone := s.reqs.filter fun (r : Req) => r.isLive && !ds.any fun (d : Delta) => d.slot == r.slot
    let t := gone.foldl (fun (u : State) r => u.dropAllLocal r) s
    { t with reqs := t.reqs.filter fun (r : Req) => !gone.contains r }
  else s

/-- Tokens that a committed step emitted, already streamed by the primary; the last is the next step's input (R325). A
HANDOFF committed ends the work of a Prompt module's sequence. -/
def State.applySeq (s : State) (c : JobCfg) (x : PairSeq) : State :=
  s.setReq x.slot fun r =>
    if c.role = 1 then { r with handoff := true }
    else
      let k := x.toks.length
      let have_ := r.tokens.map (·.1)
      let toks := (((List.range k).zip x.toks).map fun e => (r.t + 1 + e.1 - k, e.2)).filter fun (e : Nat × Nat) => !have_.contains e.1
      let all := r.tokens ++ toks
      { r with
        tokens := all
        sent := all.length
        last := if bitOf r.flags 0 && decide (r.t < r.nprompt) then (r.promptAt r.t).getD 0
          else ((all.getLast?).map fun e => tokenOf e.2).getD r.last }

/-- One step is applied: DELTA messages in their order, then its tokens. -/
def State.applyStep (s : State) (c : JobCfg) (n : Nat) (seqs : List PairSeq) : State :=
  let ds := s.pair.deltas.filter fun (d : Delta) => d.step == n
  let t := if seqs.isEmpty then s.clearMirror c ds else s
  let t := ds.foldl (fun (u : State) d => u.applyDelta c d) t
  let t := if seqs.isEmpty then (ds.map (·.slot)).dedup.foldl (fun (u : State) n => u.applySeq c ⟨n, 0, 0, []⟩) t
    else seqs.foldl (fun (u : State) x => u.applySeq c x) t
  t.mapPair fun p => { p with deltas := p.deltas.filter fun (d : Delta) => d.step != n }

/-- COMMIT: the steps it covers are applied in their order; a complete stream makes the mirror synchronised (R598, R599). -/
def execPairCommit (number : Nat) (s : State) : Out :=
  match s.job with
  | none => .next s
  | some job =>
    if !s.mirrors ∨ s.pair.gap ∨ number ≠ s.pair.stepNo ∧ !s.pair.steps.any (fun e => e.1 == number) then .next s
    else
      let go := s.pair.steps.filter fun e => decide (e.1 ≤ number)
      let t := go.foldl (fun (u : State) e => u.applyStep job.cfg e.1 e.2) s
      let t := (t.mapPair fun p => { p with steps := p.steps.filter fun e => decide (number < e.1), complete := true }).setReg64
        pgPAIR 0x060 number
      .next t.syncCheck

/-- RELEASE: a sequence of the primary ended. -/
def execRelease (slot : Nat) (code : BitVec 8) (s : State) : Out :=
  if s.mirrors then
    match s.reqAt slot with
    | none => .next s
    | some r => .next (s.releaseReq r code.toNat)
  else .next s

/-! ### A primary (R597) -/

/-- ACK: the highest step the mirror holds complete. -/
def execPairAck (number : Nat) (s : State) : Out :=
  if s.streams then
    .next ((s.mapPair fun p => { p with acked := max p.acked (min number p.stepNo) }).pairLag.sendHeld.protectCheck)
  else .next s

/-- Sends COMMIT of a step: its number, and the metering interval whose attribution it needed. -/
def State.commitStep (s : State) (n interval : Nat) : State :=
  (s.pairSend "COMMIT" (layout 16 [(0, 8, n), (8, 8, interval)])).setReg64 pgPAIR 0x060 n

/-- Whether a slot's tokens up to a count have been sent under R553; a request that has gone has sent them. -/
def State.tokensSent (s : State) (e : Nat × Nat) : Bool :=
  match s.reqAt e.1 with
  | none => true
  | some r => decide (e.2 ≤ r.sent)

/-- STEP_COMMITTED: the oldest step whose tokens are sent, whose interval is divided and which the mirror's ACK covers. -/
def execStepCommitted (s : State) : Out :=
  match s.pair.open_ with
  | [] => .next s
  | (n, interval, upTo) :: rest =>
    if s.streams && decide (n ≤ s.pair.acked) && upTo.all s.tokensSent && (s.role != 2 || decide (interval < s.mtr.shared)) then
      .next (((s.mapPair fun p => { p with open_ := rest }).commitStep n interval).protectCheck)
    else .next s

/-- HANDOVER: the primary releases PAIR_SENSE; refused with WLOCK once it has. -/
def execHandover (s : State) : Out :=
  if s.streams && s.enabled pgPAIR then
    if s.flag pgPAIR 0x054 4 then .next s.dropSense else .next (s.wlock pgPAIR)
  else .next s

/-- The table of a live sequence of a Cache module, and its pages, as DELTA messages of the next step. -/
def State.pairSeqState (s : State) (c : JobCfg) (cslot : Nat) : State :=
  let e := s.seqEnt c cslot
  if e.st ≠ 1 then s
  else
    let t := s.pairDelta cslot 0 3 e.words
    (s.seqPages c cslot).foldl (fun (u : State) a =>
      let h := (u.memGetN a 64).map (·.v)
      u.pairDelta cslot (pfield h 4 2) 2 ([a % 2 ^ 32, a / 2 ^ 32] ++
        (u.memGetN a (64 + pageLen (pfield h 2 1) / 4)).map PWord.packed)) t

/-- RESYNC: the state of every live slot under one step number, followed by COMMIT; the steps not committed are part of it. -/
def execResync (s : State) : Out :=
  match s.job with
  | none => .next s
  | some job =>
    if s.streams && s.enabled pgPAIR then
      let c := job.cfg
      let live := (s.reqs.filter fun r => r.isLive && r.st == .live).map (·.slot)
      let t := if c.role = 3 then (List.range cacheSlots).foldl (fun (u : State) n => u.pairSeqState c n) s
        else live.foldl (fun (u : State) n => let v := u.pairAdmit n; if c.role = 2 then v.pairState c n else v) s
      let t := t.pairStep [] [] []
      let t := t.mapPair fun p => { p with open_ := [], need := p.stepNo }
      .next ((t.commitStep t.pair.stepNo (intervalOf t.time)).protectCheck)
    else .next s

/-! ### PAIR_SENSE and takeover (R599 to R601) -/

/-- PAIR_SENSE_ASSERTED: the line has read asserted for 1 ms since the page was enabled. -/
def execPairSenseAsserted (s : State) : Out :=
  if s.pairSt = 0 then .next s
  else
    let t := s.waitTime (s.pair.senseSince + msec)
    .next ((t.setFld pgPAIR 0x054 3 1 1).mapPair fun p => { p with senseOk := true }).syncCheck

/-- A live request goes on from its last committed step; its receipt starts here (R603). A Generation module sends again the
pages whose PAGE_ACK it does not know of; a Prompt module reruns the sequence. -/
def State.takeReq (s : State) (c : JobCfg) (r : Req) : State :=
  let t := s.setReq r.slot fun x => { x with
    step := none
    hand := none
    chunk := 0
    energy := (0, 0, 0, 0)
    start := s.taiPair s.time
    epoch := s.nv.epoch
    firstIv := intervalOf s.time
    rflags := s.rcptFlags
    served := 0
    taiErr := s.reg pgTIM 0x098 }
  if c.role = 1 then
    if r.handoff then t.releaseReq r 0x00 else t
  else
    r.missing.foldl (fun (u : State) (span, l, g) =>
      match r.local_.find? fun e => (e.1, e.2.1, e.2.2.1) == (span, l, g) with
      | none => u
      | some e =>
        let fmt := (c.layer l).fmt
        let j := shardOf span r.nsh
        u.sendPage r 5 (r.shard j) (r.cslot j) span l g fmt (headsIn c.hkv fmt g) (u.memGetN (e.2.2.2 + 0x100) (pageLen fmt / 4))) t

/-- A sequence of a Cache module's former mirror starts its receipt. -/
def State.takeBind (s : State) (b : Bind) : Bind :=
  { b with
    energy := (0, 0, 0, 0)
    start := s.taiPair s.time
    epoch := s.nv.epoch
    firstIv := intervalOf s.time
    rflags := s.rcptFlags
    served := 0
    taiErr := s.reg pgTIM 0x098 }

/-- The takeover (R601): assert PAIR_SENSE, raise EPOCH, become primary and say so; drop what is not committed; go on. -/
def State.takeover (s : State) (c : JobCfg) : State :=
  let t := s.raiseSense
  let t := ((t.setReg pgPAIR 0x058 ((t.reg pgPAIR 0x058 + 1) % 2 ^ 32)).setPairSt 2).advertise
  let n := t.reg64 pgPAIR 0x060
  let t := t.mapPair fun p => { Pair.init with stepNo := n, acked := n, need := n + 1, helloAt := p.helloAt, senseSince := p.senseSince }
  let t := (t.reqs.filter Req.isLive).foldl (fun (u : State) r => u.takeReq c r) t
  let t : State := { t with binds := t.binds.map fun (b : Bind) => if b.opened then t.takeBind b else b }
  ((t.bumpSat pgPAIR 0x068 1).raise pgPAIR 10 clsInfo .none false []).fwRecord fwTakeover clsRetire
    [t.reg pgPAIR 0x058, n % 2 ^ 32, n / 2 ^ 32]

/-- TAKEOVER: PAIR_SENSE has read released for 10 µs. A synchronised mirror with AUTO_TAKEOVER becomes primary; any other only
reads the line. -/
def execTakeover (s : State) : Out :=
  match s.job with
  | none => .next s
  | some job =>
    if s.pairSt = 0 ∨ s.flag pgPAIR 0x054 4 then .next s
    else
      let t := (s.elapse (10 * usec)).setFld pgPAIR 0x054 3 1 0
      if t.pairSt = 3 ∧ t.flag pgPAIR 0x04C 0 ∧ t.runs pgPAIR then .next (t.takeover job.cfg) else .next t

end Sys2Proof.Machine
end

