-- ==== Sys2Proof/Machine/Sideband.lean ====
section
/-! DEFINITION. The sideband connector: the I3C target with its status block, the status LED and pins (chapter 22). -/

namespace Sys2Proof.Machine

open Sys2Proof

/-! ### Status block (Table 22.4) -/

/-- Whether replacement is asked for: REPLACE_REQ_N is low (R533, R606). -/
def State.replaceReq (s : State) : Bool := s.reg (pgFLT 3) 0x040 != 0

/-- TMAX: the highest reading in °C, from 0 to 255; 0 while no sensor is powered. -/
def State.tmax (s : State) : Nat :=
  match s.hottest with
  | none => 0
  | some h => min 255 (h / 16 - 40)

/-- The 16 bytes that a private read returns from offset 0. -/
def State.statusBlock (s : State) : List Nat :=
  let flags := b2n s.replaceReq + 2 * b2n (s.flag pgPWR 0x06C 0) + 4 * b2n s.presOpen + 8 * b2n (!s.flag pgSEAL 0x040 0)
  let pin := if s.enabled pgPWR then s.fld pgPWR 0x060 16 14 / 10 else 0
  le 8 s.modid ++ [s.bootStage + 16 * b2n s.bootHalted, flags] ++ le 2 pin ++ le 2 (s.fld (pgFLT 3) 0x040 0 12) ++
    [s.tmax, s.sealCount]

/-! ### The I3C target (R609) -/

/-- The standby domain serves the bus from step 2 of a cold start on. -/
def State.i3cUp (s : State) : Bool := s.boot.powered

/-- A private transfer or direct CCC reaches the target when it names its dynamic address. -/
def State.i3cHere (s : State) (addr : BitVec 7) : Bool := s.i3cUp && s.i3c.addr == some addr.toNat

/-- The provisional identifier: vendor field 0x5A1 above the low bits of MODID. -/
def State.i3cPid (s : State) : Nat := 0x5A1 * 2 ^ 33 + s.modid % 2 ^ 33

/-- I3C_PRIVATE_READ: up to `n` bytes of the block from the read offset. -/
def execI3cPrivateRead (addr : BitVec 7) (n : Nat) (s : State) : Out :=
  if s.i3cHere addr then .next (s.send .i3c "READ" ((s.statusBlock.drop s.i3c.off).take n)) else .next s

/-- I3C_PRIVATE_WRITE: one byte from 0 to 15 sets the read offset; any other write is NACKed. -/
def execI3cPrivateWrite (addr : BitVec 7) (bytes : List (BitVec 8)) (s : State) : Out :=
  if s.i3cHere addr then
    match bytes with
    | [b] => if b.toNat < 16 then .next { s with i3c := { s.i3c with off := b.toNat } } else .next (s.send .i3c "NACK" [])
    | _ => .next (s.send .i3c "NACK" [])
  else .next s

/-- ENTDAA: a target without a dynamic address answers with its identifier, BCR and DCR, and takes the address. -/
def execEntdaa (addr : BitVec 7) (s : State) : Out :=
  if s.i3cUp && s.i3c.addr.isNone then
    let t := s.send .i3c "ENTDAA" [s.i3cPid, Config.i3cBcr.toNat, Config.i3cDcr.toNat]
    .next { t with i3c := { t.i3c with addr := some addr.toNat } }
  else .next s

/-- SETDASA to the static address 0x3A, while no dynamic address is held. -/
def execSetdasa (static_ addr : BitVec 7) (s : State) : Out :=
  if s.i3cUp && s.i3c.addr.isNone && static_ == 0x3A#7 then .next { s with i3c := { s.i3c with addr := some addr.toNat } }
  else .next s

/-- RSTDAA. -/
def execRstdaa (s : State) : Out := if s.i3cUp then .next { s with i3c := { s.i3c with addr := none } } else .next s

/-- GETPID: 48 bits, most significant byte first. -/
def execGetpid (addr : BitVec 7) (s : State) : Out :=
  if s.i3cHere addr then .next (s.send .i3c "GETPID" (be 6 s.i3cPid)) else .next s

/-- GETBCR. -/
def execGetbcr (addr : BitVec 7) (s : State) : Out :=
  if s.i3cHere addr then .next (s.send .i3c "GETBCR" [Config.i3cBcr.toNat]) else .next s

/-- GETDCR. -/
def execGetdcr (addr : BitVec 7) (s : State) : Out :=
  if s.i3cHere addr then .next (s.send .i3c "GETDCR" [Config.i3cDcr.toNat]) else .next s

/-- GETSTATUS: two bytes, whose value the manual does not give. -/
def execGetstatus (addr : BitVec 7) (s : State) : Out :=
  if s.i3cHere addr then
    let (v, t) := s.fresh
    .next (t.send .i3c "GETSTATUS" [v / 2 ^ 8 % 2 ^ 8, v % 2 ^ 8])
  else .next s

/-! ### Status indication (Table 22.3) -/

/-- What the status LED shows: off; HALT_CODE red flashes; amber, with one green flash every 2 s while a job runs; amber
flashing; green flashing; green dimmed; green. -/
inductive Led
  | off
  | halted (code : Nat)
  | replace (job : Bool)
  | presence
  | bringUp
  | ready
  | job
  deriving DecidableEq, Repr

/-- The status LED: the first row that holds. -/
def State.led (s : State) : Led :=
  if !s.boot.powered then .off
  else if s.bootHalted then .halted (s.fld (pgGLB 0) 0x040 8 4)
  else if s.replaceReq then .replace s.job.isSome
  else if s.presOpen then .presence
  else if s.bootStage < 11 then .bringUp
  else if s.job.isNone then .ready
  else .job

/-- STATUS[1:0]: while the presence window is open, that of the next row that holds. -/
def State.statusPins (s : State) : Nat :=
  if !s.boot.powered then 0b00
  else if s.bootHalted then 0b11
  else if s.replaceReq then 0b10
  else if s.bootStage < 11 then 0b01
  else 0b10

end Sys2Proof.Machine
end

