-- ==== Sys2Proof/Machine/BlockControl.lean ====
section
/-! DEFINITION. The common header's actions on a block: enable, halt, safe points, reset, commit and error injection
(chapter 02, R41 to R54 and R620, with each chapter's safe point and reset rules). A page is named by its PG_ID. -/

namespace Sys2Proof.Machine

open Sys2Proof

/-- A header write reaches a block that acts on it: the page is present, its tile's logic is powered, and the instance is
in service (R53 to R55). -/
def State.reaches (s : State) (pg : Nat) : Bool :=
  pageExists pg && (!isTileTy (pgTy pg) || s.siteOn (siteOfPg pg)) && !(s.blk (blkOf pg)).retired

/-- Changes block control. -/
def State.mapBlk (s : State) (b : Nat) (f : BlkCtl → BlkCtl) : State := s.setBlk b (f (s.blk b))

/-- RUN of a block that nothing stops: ENABLE 1 and HALT_REQ 0; a PRG page besides needs its region (R453), a loupe to be
armed. -/
def State.runFree (s : State) (b : Nat) : Bool :=
  let c := s.blk b
  c.enable && !c.haltReq && !c.retired && !(blkTy b == tyPRG && s.region (blkInst b) == 5) &&
    (blkTy b != tyLOUPE || (s.loupeOf (blkInst b)).armed)

/-! ### Commits (R51, R52) -/

/-- Ranges of the staged fields that refuse a value: PWR_CAP, PWR_ILIM_IN, PRG_ADJ, SVC_FENCE (Tables 15.8, 16.3, 19.9). -/
def commitOk (pg off v : Nat) : Bool :=
  let ty := pgTy pg
  if ty == tyPWR && off == 0x044 then decide (1000 ≤ bitsOf v 0 14) && decide (bitsOf v 0 14 ≤ 12500)
  else if ty == tyPWR && off == 0x048 then decide (100 ≤ bitsOf v 0 9) && decide (bitsOf v 0 9 ≤ 260)
  else if ty == tyPRG && off == 0x044 then decide (-10 ≤ sext 5 v) && decide (sext 5 v ≤ 10)
  else if ty == tySVC && off == 0x04C then decide (32 ≤ bitsOf v 0 10)
  else true

/-- A staged word takes effect; a PRG page's ADJ moves its rail. -/
def State.applyWord (s : State) (e : Nat × Staged) : State :=
  let pg := e.1 / 2 ^ 12
  let off := e.1 % 2 ^ 12
  let old := s.reg pg off
  let v := (old &&& (0xFFFF_FFFF - e.2.mask)) ||| (e.2.value &&& e.2.mask)
  if !commitOk pg off v then s.wlock pg
  else
    let t := s.setReg pg off v
    if pgTy pg == tyPRG && t.region (pgInst pg) == 2 then t.setVlog (pgInst pg) t.targetStep else t

/-- Whether the staged words of a block are refused whole: a TIM page with TAI_ANCHOR_NS of 10^9 or more (text after Table 14.6;
log entry 210). -/
def refusedWhole (mine : Tbl Staged) : Bool :=
  mine.any fun e => e.1 == pgTIM * 2 ^ 12 + 0x090 && decide (1000000000 ≤ e.2.value)

/-- Every staged field of a block changes, and COMMIT_PEND clears. -/
def State.commitNow (s : State) (b : Nat) : State :=
  let mine := s.staged.filter fun e => blkOf (e.1 / 2 ^ 12) == b
  let t : State := { s with staged := s.staged.filter fun e => blkOf (e.1 / 2 ^ 12) != b }
  if refusedWhole mine then (t.mapBlk b fun c => { c with commitAt := none }).wlock pgTIM
  else mine.foldl State.applyWord (t.mapBlk b fun c => { c with commitAt := none })

/-! ### Resets (R41 and the chapters) -/

/-- The words of a page from an offset up to, not with, another, whole. -/
def keepWords (page lo hi : Nat) : List (Nat × Nat × Nat × Nat) :=
  (List.range ((hi - lo) / 4)).map fun i => (page, lo + 4 * i, 0, 32)

/-- The fields a block's RESET leaves: what its chapter names, and what shows state that the reset does not touch (R215, R270,
R311, R454, R480, R543; log entry 40). `st` is the state of an MCC's subchannel, `bc` says that a broadcast is open. -/
def resetKeep (ty st : Nat) (bc : Bool) : List (Nat × Nat × Nat × Nat) :=
  if ty == tySPD then keepWords 0 0x048 0x04C
  else if ty == tyRTR then keepRouter
  else if ty == tyMCC then (if stACTIVE ≤ st && st ≤ stRETIRED then keepWords 0 0x044 0x048 ++ keepWords 0 0x054 0x058 else [])
  else if ty == tyOPT then keepWords 0 0x058 0x060
  else if ty == tyOEN then keepWords 0 0x044 0x04C ++ keepWords 0 0x050 0x0B0
  else if ty == tyCLK then keepWords 0 0x044 0x048 ++ keepWords 0 0x100 0x250
  else if ty == tyTIM then [(0, 0x05C, 0, 3), (0, 0x068, 0, 4)]
  else if ty == tyPRG then
    [(0, 0x04C, 0, 3)] ++ keepWords 0 0x05C 0x064 ++ keepWords 0 0x080 0x088
  else if ty == tyPWR then keepWords 0 0x068 0x070 ++ keepWords 0 0x100 0x148
  else if ty == tyMTR then [(0, 0x044, 0, 1), (0, 0x044, 2, 1)] ++ keepWords 0 0x078 0x080 ++ keepWords 0 0x0AC 0x0B0
  else if ty == tyRCP then keepWords 0 0x040 0x044 ++ keepWords 0 0x048 0x0A0
  else if ty == tySEAL then keepWords 0 0x040 0x044
  else if ty == tyFLT then keepWords 3 0x040 0x044
  else if ty == tySVC then keepWords 0 0x048 0x050 ++ (if bc then keepWords 0 0x084 0x100 else [])
  else if ty == tyGLB then keepWords 0 0x040 0x044 ++ keepWords 0 0x048 0x04C ++ keepWords 0 0x058 0x05C ++
    keepWords 1 0x040 0x054 ++ keepWords 1 0x060 0x080 ++ keepWords 3 0x040 0x044 ++ keepWords 3 0x050 0x058
  else if ty == tyFUS then keepWords 0 0x040 0x044 ++ keepWords 3 0x040 0x054
  else []

/-- Scheduled transfers in a router's buffers. -/
def State.heldXfers (s : State) (x : Nat) : Nat := ((List.range 8).map fun i => (s.buf x i).length).sum

/-- The scheduled transfers of a router are discarded and its tables cleared (R270). -/
def State.resetRouter (s : State) (x : Nat) : State :=
  { s with
    rtrTbl := tblDelRange s.rtrTbl (x * 8192) ((x + 1) * 8192)
    slotCtr := tblDelRange s.slotCtr (x * 8192) ((x + 1) * 8192)
    order := tblDelRange s.order (x * 8) ((x + 1) * 8)
    inbuf := tblDelRange s.inbuf (x * 8) ((x + 1) * 8) }

/-- What the RESET of each block does before its registers return to their reset values. -/
def State.resetBefore (s : State) (b : Nat) : State :=
  let ty := blkTy b
  let i := blkInst b
  if ty == tyOPT then
    let t := s.portDown i 0
    t.setPort i { t.port i with mbxTx := [], mbxRx := [] }
  else if ty == tyPWR then s.clearLocal.setG 0
  else s

/-- What it does after: R189, R215, R270 (the `disc` transfers that a router discarded are counted as uncorrected), R454, Tables
05.6 and 05.12, and the units whose registers show their state. -/
def State.resetAfter (s : State) (b : Nat) (disc : Nat) : State :=
  let ty := blkTy b
  let i := blkInst b
  if ty == tySEQ then
    let k := s.tile i
    let t := s.setTile i { k with threads := [], copied := [], win := [] }
    { t with keys := tblDelRange t.keys (i * 8192) ((i + 1) * 8192) }
  else if ty == tySYN then { s with sync := tblDelRange s.sync (i * 128) ((i + 1) * 128) }
  else if ty == tySPD then
    let d := s.spd i
    let t := s.setSpd i { d with banks := d.banks.map fun e => (e.1, { e.2 with cache := [] }) }
    t.setReg (pgSPD i 0) 0x048 (t.reg (pgSPD i 0) 0x048 % 4)
  else if ty == tyRTR then s.setHdr (pgRTR i 0) { s.hdr (pgRTR i 0) with unc := min 0xFFFF disc }
  else if ty == tyCLK then (if 12 ≤ i then s else s.setFacet i { s.facet i with cycBase := (s.facet i).cycles, stretches := 0 })
  else if ty == tyTIM then
    let t : State := { s with ptp := ⟨[], []⟩ }
    (match t.stepPend with
    | some p => if p.done.isEmpty then (t.dropStep 0).stepResult 0 else t.showPend
    | none => t)
  else if ty == tyMCC then s.setReg64 (pgMCC i) 0x080 (2 ^ 64 - s.hotNow i)
  else if ty == tyMTR then { s with mtr := { s.mtr with lastReg := [], lastDom := [] } }
  else if ty == tyTEL then
    { s with
      telActive := tblDelRange s.telActive (i * 4096 * 8) ((i + 1) * 4096 * 8)
      telFrozen := tblDelRange s.telFrozen (i * 4096 * 8) ((i + 1) * 4096 * 8) }
  else if ty == tyPRG then (if s.region i == 2 then s.setVlog i s.targetStep else s)
  else if ty == tyGLB then s.setFld (pgGLB 2) 0x048 16 16 0
  else if ty == tyPAIR then ({ s with pair := Pair.init } : State).dropSense
  else if ty == tyLOUPE then s.setLoupe i Loupe.init
  else s

/-- A RESET takes effect (R41, R620). -/
def State.resetNow (s : State) (b : Nat) : State :=
  let t := s.resetBefore b
  let t := if blkTy b == tyRTR then t.resetRouter (blkInst b) else t
  let t := (t.resetCommon b (resetKeep (blkTy b) (t.mcSt (blkInst b)) t.bcast.open_)).resetAfter b (s.heldXfers (blkInst b))
  t.setBlk b { t.blk b with run := t.runFree b }

/-! ### Safe points -/

/-- Blocks that are at a safe point in every cycle or at every instruction, transfer or update boundary. -/
def alwaysSafe (ty : Nat) : Bool :=
  ty == tySEQ || ty == tySYN || ty == tySPD || ty == tyTIM || ty == tyRCP || ty == tySEAL || ty == tyFLT || ty == tyGLB ||
    ty == tyFUS || ty == tyLOUPE || ty == tyPRG

/-- Time passes to a block's next periodic safe point: the 1 ms of TEL and MTR, the 10 µs of PWR, the 1 µs of SVC, the HELLO
of PAIR. -/
def State.awaitSafe (s : State) (pg : Nat) : State :=
  let ty := pgTy pg
  if ty == tyTEL || ty == tyMTR then s.waitTime (nextMs s.time)
  else if ty == tyPWR then s.waitTime ((s.time / (10 * usec) + 1) * (10 * usec))
  else if ty == tySVC then s.waitTime ((s.time / usec + 1) * usec)
  else if ty == tyPAIR then s.waitTime (s.pair.helloAt + 100 * usec)
  else s

/-- A row of a pass has entered the array and its last has not (R127). -/
def Mxa.midPass (m : Mxa) : Bool := m.instrs.any fun i => i.nextRow != 0

/-- A halting block has stopped: R128, R165, R310, R403, and a step switch is not under way. -/
def State.stopped (s : State) (pg : Nat) : Bool :=
  let ty := pgTy pg
  let i := pgInst pg
  let x := siteOfPg pg
  if ty == tyMXA then
    (s.mxa x).rows.isEmpty && (s.mxa x).replay.isNone && !(s.mxa x).passes.any fun p => p.verdict.isNone && !p.lost
  else if ty == tyVXE then (s.tile x).vxe.isEmpty
  else if ty == tyDMX then (s.dmx x (i % 2)).xfers.isEmpty
  else if ty == tyMCC then (s.mcc i).admitted.isEmpty
  else if ty == tyMPH then
    s.flag pg 0x044 0 && !(mcsOfPkg i).any s.retraining
  else if ty == tyOPT then (s.port i).egr.isEmpty && (s.port i).parts.isEmpty
  else if ty == tyCLK then (match s.stepPend with
    | none => true
    | some p => p.done.isEmpty)
  else true

/-- Whether a running block is at a safe point for a COMMIT. -/
def State.commitSafe (s : State) (pg : Nat) : Bool :=
  if pgTy pg == tyMXA then !(s.mxa (siteOfPg pg)).midPass else s.stopped pg

/-- What ENABLE = 0 does besides: PWR lifts every skip level (R480), a module leaves its pair (R594), a port goes DOWN. -/
def State.disabled (s : State) (pg : Nat) : State :=
  let t := s.mapBlk (blkOf pg) fun c => { c with enable := false, run := false, disabling := false }
  let ty := pgTy pg
  if ty == tyPWR then t.clearLocal.setG 0
  else if ty == tyPAIR then t.pairEnter
  else if ty == tyOPT then t.portDown (pgInst pg) 0
  else t

/-- The block of a page stops: RUN clears, a pending COMMIT applies (R52), a disabling or a RESET that waited takes effect. An
MXA is at level zero then, and its next row begins a ramp (R117, R128). -/
def State.haltNow (s : State) (pg : Nat) : State :=
  let b := blkOf pg
  let c := s.blk b
  let t := if c.commitAt.isSome && !c.resetPend then s.commitNow b else s
  let t := t.mapBlk b fun k => { k with run := false }
  let t := if pgTy pg == tyMXA then
      t.setMxa (siteOfPg pg) { t.mxa (siteOfPg pg) with level := 0, ramp := none, ready := false }
    else t
  let t := if c.disabling then t.disabled pg else t
  if c.resetPend && pgTy pg != tyMXA then t.resetNow b else t

/-- A block that was asked to stop does so at once if every cycle is a safe point. -/
def State.haltIf (s : State) (pg : Nat) : State := if alwaysSafe (pgTy pg) then s.haltNow pg else s

/-! ### The commands -/

/-- RUN of a block becomes 1 if nothing stops it; a router's waits of R250 begin anew, for the lists just loaded and the halt
just ended. -/
def State.restart (s : State) (pg : Nat) : State :=
  let b := blkOf pg
  let t := s.setBlk b { s.blk b with run := s.runFree b }
  if pgTy pg == tyRTR && t.runs pg && !s.runs pg then t.orderRestart (siteOfPg pg) else t

/-- Whether another enabled MCC holds the LCH of an MCC (R302). -/
def State.lchTaken (s : State) (n : Nat) : Bool :=
  s.mcLch n != 0x1FF && (List.range 384).any fun m => m != n && s.enabled (pgMCC m) && s.mcLch m == s.mcLch n

/-- ENABLE = 1. -/
def State.enableOn (s : State) (pg : Nat) : State :=
  let b := blkOf pg
  let ty := pgTy pg
  let i := pgInst pg
  let c := s.blk b
  if ty == tyMCC && !c.enable && (s.lchTaken i || s.injPend pg 14) then s.raise (pgMCC i) 14 clsInfo .none false []
  else if ty == tySPD && s.flag (pgSPD i 0) 0x048 0 then s.wlock pg
  else
    let t := s.setBlk b { c with enable := true, disabling := false }
    let t := if (t.blk b).haltReq then t else t.restart pg
    if c.enable then t
    else if ty == tyMPH then
      ((mcsOfPkg i).filter fun n => t.mcSt n == stDISABLED && !(t.blk (blkOf (pgMCC n))).retired).foldl
        (fun (u : State) n => u.setMcSt n stUNTRAINED) (t.setFld pg 0x044 0 1 0)
    else if ty == tyOPT then t.trainPort i
    else if ty == tyPAIR then t.pairEnter
    else t

/-- Whether a page refuses ENABLE = 0 with WLOCK: a PRG page outside OFF and LOST (R454), a facet generator with a region
whose logic is not gated, the other generators always (R432). -/
def State.keepsOn (s : State) (pg : Nat) : Bool :=
  let i := pgInst pg
  if pgTy pg == tyPRG then s.region i != 0 && s.region i != 5
  else if pgTy pg == tyCLK then
    decide (12 ≤ i) || (regionsOf i).any fun r => s.region r != 0 && s.region r != 1 && s.region r != 5
  else false

/-- ENABLE = 0. -/
def State.enableOff (s : State) (pg : Nat) : State :=
  let c := s.blk (blkOf pg)
  if !c.enable then s
  else if s.keepsOn pg then s.wlock pg
  else if c.run then (s.setBlk (blkOf pg) { c with disabling := true }).haltIf pg
  else s.disabled pg

/-- ENABLE (R620): a write of PG_CTRL.ENABLE. -/
def State.writeEnable (s : State) (pg : Nat) (on : Bool) : State := if on then s.enableOn pg else s.enableOff pg

/-- ENABLE. -/
def execEnable (page : Nat) (on : Bool) (s : State) : Out :=
  if s.reaches page then .next (s.writeEnable page on) else .next s

/-- A write of PG_CTRL.HALT_REQ: the block is to stop, or resumes; an MCC's also pauses or resumes a copy (R310). -/
def State.writeHalt (s : State) (pg : Nat) (on : Bool) : State :=
  let b := blkOf pg
  let c := s.blk b
  let t := s.setBlk b { c with haltReq := on }
  let t := if pgTy pg == tyMCC then t.copyPause (pgInst pg) else t
  if on then (if c.run then t.haltIf pg else t)
  else if c.disabling || c.resetPend then t
  else t.restart pg

/-- HALT_REQ. -/
def execHaltReq (page : Nat) (on : Bool) (s : State) : Out :=
  if s.reaches page then .next (s.writeHalt page on) else .next s

/-- SAFE_POINT_HALT: a halting block that runs reaches its safe point and stops. -/
def execSafePointHalt (page : Nat) (s : State) : Out :=
  if s.reaches page && s.runs page && s.halting page then
    let t := s.awaitSafe page
    if t.stopped page then .next (t.haltNow page) else .next t
  else .next s

/-- A write of PG_CTRL.RESET: at once, or, while RUN is 1, from the block's next safe point on (R41). The array of an MXA must
besides hold no row, and its reset is MXA_RESET_EFFECT's (R621). -/
def State.writeReset (s : State) (pg : Nat) : State :=
  let b := blkOf pg
  let c := s.blk b
  if pgTy pg == tyMXA then
    let t := s.setBlk b { c with resetPend := true }
    if c.run then t
    else if (t.mxa (siteOfPg pg)).rows.isEmpty then (t.setMxa (siteOfPg pg) Mxa.init).resetCommon b [] else t
  else if c.run then (s.setBlk b { c with resetPend := true }).haltIf pg
  else s.resetNow b

/-- RESET. -/
def execReset (page : Nat) (s : State) : Out :=
  if s.reaches page then .next (s.writeReset page) else .next s

/-- A write of PG_CTRL.COMMIT: applied at once while RUN is 0, pending while it is 1, without effect while one is pending.
An injected CSTALL acts at it. -/
def State.writeCommit (s : State) (pg : Nat) : State :=
  let (inj, t) : Bool × State := s.injected pg 3
  let s := if inj then t.raise pg 3 clsInfo .none true [] else t
  let c := s.blk (blkOf pg)
  if c.commitAt.isSome then s
  else if c.run then s.setBlk (blkOf pg) { c with commitAt := some s.time, commitPg := pg }
  else s.commitNow (blkOf pg)

/-- COMMIT. -/
def execCommit (page : Nat) (s : State) : Out :=
  if s.reaches page then .next (s.writeCommit page) else .next s

/-- COMMIT_APPLY: the block's next safe point, a PRG page's within 1 µs. -/
def execCommitApply (page : Nat) (s : State) : Out :=
  let b := blkOf page
  if s.reaches page && (s.blk b).commitAt.isSome then
    let t := if pgTy page == tyPRG then s.waitTime ((s.time / usec + 1) * usec) else s.awaitSafe page
    if (t.blk b).run && !t.commitSafe page then .next t else .next (t.commitNow b)
  else .next s

/-- COMMIT_STALL (R52, R620): 10 ms after the COMMIT, CSTALL is set in the page it was written to, and it stays pending. `page` is
any page of the block. -/
def execCommitStall (page : Nat) (s : State) : Out :=
  let c := s.blk (blkOf page)
  match c.commitAt with
  | some a =>
    if s.reaches page then .next ((s.waitTime (a + 10 * msec)).raise c.commitPg 3 clsInfo .none false []) else .next s
  | none => .next s

/-! ### Error injection (R44) -/

/-- Injections whose operation is not another command's: a phase, a region trip, a facet or log storm, a seal opening. -/
def State.injectNow (s : State) (pg bits : Nat) : State :=
  let ty := pgTy pg
  let i := pgInst pg
  if ty == tyPRG then
    let top := ((List.range 8).filter fun k => s.flag pg 0x05C k).getLast?
    let t := match bitOf bits 8, top with
      | true, some k => (s.injected pg 8).2.phaseFault i k false true
      | _, _ => s
    if bitOf bits 10 then t.regionTrip i 1 0 0 else t
  else if ty == tyFLT && bitOf bits 9 then
    let t := (s.injected pg 9).2
    t.setColl 12 { t.coll 12 with forced := t.time + msec }
  else if ty == tySEAL && bitOf bits 8 then
    let start := s.time
    let t := ((s.injected pg 8).2.elapse (10 * msec)).sealOpen true true
    { t with sealLoop := { t.sealLoop with injOpen := some start } }
  else s

/-- A write to PG_ERR_INJ: bits of errors the page defines are pending until an operation takes them. -/
def State.writeInj (s : State) (pg bits : Nat) : State :=
  let act := fun (t : State) =>
    let new := (List.range 32).filter fun b => bitOf bits b && errDefined pg b
    let h := t.hdr pg
    (t.setHdr pg { h with inj := new.foldl (fun a b => putBits a b 1 1) h.inj }).injectNow pg bits
  let ty := pgTy pg
  if ty == tyMTR || ty == tyRCP || ty == tySEAL || ty == tyFUS || ty == tyPAIR then s.guarded pg act else act s

/-- PG_ERR_INJ. -/
def execPgErrInj (page : Nat) (bits : Word) (s : State) : Out :=
  if s.reaches page then .next (s.writeInj page bits.toNat) else .next s

end Sys2Proof.Machine
end

