-- ==== Sys2Proof/Machine/Views.lean ====
section
/-! DEFINITION. What a read of a register word returns: the common header (Tables 02.3 to 02.6), the stored word, or, for the
read-only registers that show state kept elsewhere, that state. -/

namespace Sys2Proof.Machine

open Sys2Proof

/-- Packs fields (value, low bit) into a word. -/
def packBits (l : List (Nat × Nat)) : Nat := joinFields l % 2 ^ 32

/-- Low or high word of a 64-bit value, by offset from its low word. -/
def half64 (v d : Nat) : Nat := if d = 0 then v % 2 ^ 32 else v / 2 ^ 32 % 2 ^ 32

/-! ### The common header -/

/-- Whether a block holds no pending work (PG_STATUS.IDLE). -/
def State.idle (s : State) (pg : Nat) : Bool :=
  let ty := pgTy pg
  let x := siteOfPg pg
  if ty == tySEQ then
    (s.tile x).win.isEmpty && (s.tile x).copied.isEmpty && (List.range 8).all fun n => (s.thread x n).st != .running && !s.busy x n
  else if ty == tyMXA then (s.mxa x).instrs.isEmpty && (s.mxa x).rampTask.isNone && s.stopped pg
  else if ty == tyRTR then (List.range 8).all fun i => (s.buf x i).isEmpty
  else if ty == tySPD then (s.spd x).gathers.isEmpty && (s.spd x).initAt.isNone && (s.spd x).banks.all fun e => e.2.queue.isEmpty
  else if ty == tyMCC then (s.mcc (pgInst pg)).queue.isEmpty && s.stopped pg
  else s.stopped pg

/-- PG_STATUS (Table 02.5). -/
def State.pgStatus (s : State) (pg : Nat) : Nat :=
  let c := s.blk (blkOf pg)
  let h := s.hdr pg
  packBits [(b2n c.run, 0), (b2n (s.idle pg), 1), (b2n (h.err &&& (0xFFFF_FFFF - h.mask) != 0), 2), (b2n h.wlock, 3),
    (b2n c.commitAt.isSome, 4), (b2n h.poisonSeen, 5), (b2n c.retired, 6)]

/-- A word of the common header. -/
def State.hdrView (s : State) (pg off : Nat) : Nat :=
  let c := s.blk (blkOf pg)
  let h := s.hdr pg
  if off = 0x000 then pg
  else if off = 0x004 then 0x100
  else if off = 0x008 then s.pgStatus pg
  else if off = 0x00C then packBits [(b2n c.enable, 0), (b2n c.haltReq, 1), (b2n c.resetPend, 2)]
  else if off = 0x010 then h.err
  else if off = 0x014 then h.mask
  else if off = 0x018 then (if c.retired then 0 else h.inj)
  else if off = 0x01C then packBits [(h.corr, 0), (h.unc, 16)]
  else 0

/-! ### Tile blocks -/

/-- MXA_STATUS (Table 04.12). -/
def State.mxaStatus (s : State) (x : Nat) : Nat :=
  let m := s.mxa x
  let wait := m.fronts.any fun f => f.row != 0 && decide (f.due < s.cyc x)
  packBits [(if m.rows.isEmpty && m.cur.isNone then 7 else m.lastMode, 0), (if s.shapeEn x then m.level else 5, 3),
    (b2n m.ramp.isSome, 6), (b2n wait, 7), (b2n m.wvalid, 8), (b2n m.replay.isSome, 9), (b2n m.suspect, 10)]

/-- SYN_LOOKUP_RES (Table 06.2). -/
def State.lookupRes (s : State) (x : Nat) : Nat :=
  match s.resolve x (s.fld (pgSYN x 0) 0x040 13 3) (s.fld (pgSYN x 0) 0x040 0 13) with
  | some n => packBits [(n, 0), (1, 7), (b2n (s.obj x n).barrier, 8)]
  | none => 0

/-- Objects of a tile bound to a context. -/
def State.boundTo (s : State) (x ctx : Nat) : Nat :=
  ((List.range 128).filter fun n => (s.obj x n).bound && (s.obj x n).ctx == ctx).length

/-- A word of an object's record (Table 06.5). -/
def SyncObj.word (o : SyncObj) (i : Nat) : Nat :=
  if i = 0 then packBits [(o.vid, 0), (o.ctx, 13), (b2n o.bound, 16), (b2n o.barrier, 17)]
  else if i = 1 then (if o.barrier then packBits [(o.rc, 0), (o.phase, 16)] else o.count)
  else if i = 2 then (if o.barrier then packBits [(o.arr0, 0), (o.arr1, 16)] else 0)
  else if o.barrier then packBits [(o.part, 0), (o.last, 16)] else 0

/-- RTR_STATUS: order lists running, a map staged, a link DEGRADED. -/
def State.rtrStatus (s : State) (x : Nat) : Nat :=
  let runs := (List.range 5).filter fun o => s.rtrRuns x && orderValid (s.entry x (3 + o) 0)
  let deg := (List.range 4).any fun d => s.flag (pgRTR x 2) (0x040 + 16 * d) 3
  packBits (runs.map (fun o => (1, o)) ++ [(b2n (s.map x).staged.isSome, 5), (b2n deg, 6)])

/-- Registers of a tile block that show other state. -/
def State.tileView (s : State) (pg off : Nat) : Option Nat :=
  let ty := pgTy pg
  let p := pgPage pg
  let x := siteOfPg pg
  if ty == tyMXA then (if p = 0 ∧ off = 0x048 then some (s.mxaStatus x) else none)
  else if ty == tySEQ then
    if p = 0 ∧ off = 0x040 then some (s.ctxStateWord x)
    else if p = 1 ∧ 0x044 ≤ off ∧ off < 0x054 then some 0
    else if p = 1 ∧ off = 0x058 then
      let e := s.key x (s.fld pg 0x040 0 13)
      some (packBits [(b2n e.bound, 0), (e.mask, 8)])
    else if p = 2 ∧ off = 0x040 then some (packBits ((List.range 4).map fun e => (s.winUsed x e, 8 * e)))
    else none
  else if ty == tyVXE then
    if p = 0 ∧ off = 0x040 then
      match (s.tile x).vxe.getLast? with
      | some r => some (packBits [(1, 0), (r.task.ctx, 1), (r.task.op, 8)])
      | none => some 0
    else none
  else if ty == tyDMX then
    if p = 0 ∧ off = 0x044 then
      let d := s.dmx x (pgInst pg % 2)
      some (packBits [(d.tags.length, 0), (b2n !d.xfers.isEmpty, 7), ((d.xfers.head?.map fun k => k.task.ctx).getD 0, 8)])
    else none
  else if ty == tySYN then
    if p = 1 then
      if 0x040 ≤ off ∧ off < 0x840 then some (((s.nextRound x).obj x ((off - 0x040) / 16)).word ((off - 0x040) / 4 % 4)) else none
    else if off = 0x044 then some (s.lookupRes x)
    else if off = 0x048 then some (packBits ((List.range 4).map fun c => (s.boundTo x c, 8 * c)))
    else if off = 0x04C then some (packBits ((List.range 4).map fun c => (s.boundTo x (4 + c), 8 * c)))
    else if off = 0x050 then some (((List.range 128).filter fun n => !(s.obj x n).bound).length)
    else none
  else if ty == tyRTR then
    if p = 0 ∧ off = 0x044 then some (s.rtrStatus x)
    else if p = 1 ∧ off = 0x050 then
      match s.siteOfLtn x (s.fld pg 0x04C 0 11) with
      | some y => some (packBits [(y, 0), (1, 11)])
      | none => some 0
    else if p = 1 ∧ off = 0x054 then
      match s.ltnOfSite x with
      | some n => some (packBits [(n, 0), (1, 11)])
      | none => some 0
    else none
  else if ty == tyTEL then
    if 31 ≤ p then
      let t := 126 * (p - 31) + (off - 0x040) / 32
      if off < 0x040 || 4096 ≤ t then some 0
      else some (tblGet (fun _ => 0) s.telFrozen ((x * 4096 + t) * 8 + (off - 0x040) / 4 % 8))
    else if p = 0 ∧ off = 0x044 then some (if s.telSwap = 0 then 0 else (s.telSwap / msec - 1) % 2 ^ 32)
    else none
  else none

/-! ### Global blocks -/

/-- Word i, 0 to 15, of a loupe entry (R540). -/
def LoupeRec.word (e : LoupeRec) (i : Nat) : Nat :=
  if i = 0 then e.time % 2 ^ 32 else if i = 1 then e.time / 2 ^ 32
  else if i = 2 then packBits [(e.site, 0), (e.cls, 16), (e.ctx, 24)]
  else if i = 3 then 0
  else nthD 0 e.payload (i - 4)

/-- BC_MAP: the chunks of a word of the selected site's bitmap that it holds. -/
def State.bcMapWord (s : State) : Nat :=
  let b := s.bcSite (s.fld pgSVC 0x0CC 0 11)
  let i := s.fld pgSVC 0x0D4 0 7
  packBits (((List.range 32).filter fun k => b.have_.contains (32 * i + k)).map fun k => (1, k))

/-- Registers of the SVC page that show the selected site (R567). -/
def State.bcView (s : State) (off : Nat) : Option Nat :=
  let x := s.fld pgSVC 0x0CC 0 11
  let b := s.bcSite x
  if off = 0x0D0 then
    some (if x < 1296 then packBits [(s.bcState x, 0), (chunksOf b.len - b.have_.length, 4), (b.img, 16)] else 0)
  else if off = 0x0D8 then some s.bcMapWord
  else if 0x0E0 ≤ off ∧ off < 0x100 then some (fromLe ((b.sha.drop (off - 0x0E0)).take 4))
  else none

/-- FUS_RD_DATA and FUS_RD_INFO of the selected word (Table 20.10, R576). -/
def State.fuseView (s : State) (off : Nat) : Option Nat :=
  let i := s.fld (pgFUS 0) 0x044 0 10
  let f := s.fuse i
  let majority := decide (0x01C ≤ i) && decide (i ≤ 0x01E)
  if off = 0x048 then some (if majority then s.sealBits else f.v)
  else if off = 0x04C then some (packBits [(b2n (f.v == 0 && !f.void), 0), (b2n f.void, 1), (b2n f.corr, 2), (b2n f.unc, 3)])
  else none

/-- Registers of a global block that show other state. -/
def State.globalView (s : State) (pg off : Nat) : Option Nat :=
  let ty := pgTy pg
  let p := pgPage pg
  let i := pgInst pg
  if ty == tyMCC then
    if off = 0x050 then some (packBits [((s.mcc i).tags, 0), ((s.mcc i).queue.length, 8)])
    else if off = 0x054 then some (s.copyGranules i)
    else if off = 0x080 || off = 0x084 then some (half64 (s.hotCycles i) (off - 0x080))
    else none
  else if ty == tyCLK then
    if 12 ≤ i then none
    else if off = 0x050 || off = 0x054 then some (half64 ((s.facet i).cycles - (s.facet i).cycBase) (off - 0x050))
    else if off = 0x058 || off = 0x05C then some (half64 (s.facet i).stretches (off - 0x058))
    else none
  else if ty == tyTIM then
    if off = 0x040 || off = 0x044 then some (half64 s.time (off - 0x040))
    else if off = 0x0A0 || off = 0x0A4 then some (half64 (s.taiPair s.time).1 (off - 0x0A0))
    else if off = 0x0A8 then some (s.taiPair s.time).2
    else none
  else if ty == tyPRG then
    if off = 0x04C then
      let ok := (s.region i == 1 || s.region i == 2) && decide ((s.rgn i).settleAt ≤ s.time)
      some (putBits (s.reg pg 0x04C) 14 1 (b2n ok))
    else none
  else if ty == tyMTR then
    if off = 0x068 || off = 0x06C then some (half64 (nthD 0 s.mtr.lastReg (s.fld pg 0x060 0 7)) (off - 0x068))
    else if off = 0x070 || off = 0x074 then some (half64 (nthD 0 s.mtr.lastDom (s.fld pg 0x060 8 2)) (off - 0x070))
    else if off = 0x0A4 then some (calWord s.mtr.cal (s.fld pg 0x0A0 0 12))
    else none
  else if ty == tySEAL then
    if off = 0x040 then
      let left := match s.sealLoop.window with
        | some w => if s.time < w then min 120 ((w - s.time + second - 1) / second) else 0
        | none => 0
      some (putBits (s.reg pg 0x040) 9 8 (b2n s.presOpen + 2 * left))
    else none
  else if ty == tyFLT then
    if p = 0 then
      if off = 0x044 then some (packBits [(s.log.length, 0), (b2n (decide (4096 ≤ s.log.length)), 13), (b2n s.storm, 14)])
      else if off = 0x048 then some s.logSeq
      else if off = 0x04C then some ((s.log.head?.map (·.seqno)).getD 0)
      else if off = 0x068 then some (s.held % 2 ^ 32)
      else none
    else if p = 1 ∧ 0x040 ≤ off ∧ off < 0x080 then
      some ((s.log.head?.map fun r => nthD 0 r.words ((off - 0x040) / 4)).getD 0)
    else if p = 3 ∧ 0x050 ≤ off ∧ off < 0x084 then
      let c := s.coll ((off - 0x050) / 4)
      some (packBits [(c.entries.length, 0), (b2n !c.overflow.isEmpty, 6), (c.queue.length, 16)])
    else none
  else if ty == tyLOUPE then
    let l := s.loupeOf i
    if off = 0x050 then some (packBits [(b2n l.armed, 0), (b2n l.triggered, 1), (b2n l.stopped, 2), (l.entries.length, 3)])
    else if 0x060 ≤ off ∧ off < 0x0A0 then
      some ((l.entries[s.fld pg 0x058 0 10]?.map fun e => e.word ((off - 0x060) / 4)).getD 0)
    else none
  else if ty == tySVC then s.bcView off
  else if ty == tyGLB then
    if p = 3 ∧ off = 0x048 then
      some (((s.boot.kar.find? fun e => e.1 == s.fld pg 0x044 0 11).map (·.2)).getD 0)
    else none
  else if ty == tyFUS then
    if p = 0 then s.fuseView off else if p = 3 ∧ off = 0x040 then some s.nv.licCtr else none
  else none

/-- The bits of a register that its fields name. -/
def RDef.mask (d : RDef) : Nat := d.fields.foldl (fun a (f : RField) => a ||| (2 ^ f.w - 1) * 2 ^ f.lo) 0

/-- What a read of a word of a present page returns; an offset that the page does not define reads as 0 (R37). -/
def State.regView (s : State) (pg off : Nat) : Nat :=
  if off < 0x040 then s.hdrView pg off
  else
    let v := if isTileTy (pgTy pg) then s.tileView pg off else s.globalView pg off
    match v with
    | some w => w
    | none =>
      match regAt pg off with
      | none => 0
      | some d =>
        if pgTy pg == tyOPT && 0x200 ≤ off && off < 0x300 then s.reg pg off &&& d.mask else s.reg pg off

end Sys2Proof.Machine
end

