-- ==== Sys2Proof/Machine/RegAccess.lean ====
section
/-! DEFINITION. Register accesses: statuses, field kinds, the actions of written registers, latched reads (chapter 02, R33 to
R53). -/

namespace Sys2Proof.Machine

open Sys2Proof

/-! ### Statuses (Table 02.2) -/

def accOK : Nat := 0
def accUNMAPPED : Nat := 1
def accACCESS : Nat := 2
def accGATED : Nat := 3
def accTIMEOUT : Nat := 4

/-- Applies the meaning of another command. -/
def State.act (s : State) (f : State → Out) : State := (f s).stateOr s

/-! ### Actions of W1S fields -/

/-- What a bring-up started by a register write shows: nothing fixes it, so every part is a free value (log entry 4). -/
def bootFree (k : Nat) : BootRes :=
  let n := fun (i : Nat) => Config.freeNat (k + i)
  let odd := fun (i : Nat) => n i % 2 == 1
  { ms := (List.range 9).map n
    osReady := odd 9
    corr := (List.range 1024).filter fun i => odd (1000 + i)
    unc := (List.range 1024).filter fun i => odd (2100 + i)
    jumper := odd 10
    ref := odd 11
    dead := (List.range 72).filter fun i => odd (100 + i)
    rows := (List.range 1296).filter fun i => odd (3200 + i)
    taps := (List.range 504).map fun i => (i / 42, i % 42, n (4600 + i) % 2 ^ 32)
    noTap := ((List.range 504).filter fun i => odd (5200 + i)).map fun i => (i / 42, i % 42)
    mem := (List.range 48).map fun i =>
      ⟨i, odd (5800 + i), n (5900 + i) % 256, n (6000 + i) % 256, n (6100 + i) % 2 ^ 32, n (6200 + i) % 4⟩
    kar := ((List.range 1296).filter fun i => odd (6300 + i)).map fun i => (i, n (7700 + i) % 7)
    trimEn := odd 12
    udp := odd 13
    sealOpen := odd 14
    sealOk := odd 15 }

/-- GLB_RESET: WARM, with FULL or without, before COMPUTE. -/
def State.writeGlbReset (s : State) (v : Nat) : State :=
  let r := bootFree s.freeCtr
  let t : State := { s with freeCtr := s.freeCtr + 10000 }
  if bitOf v 0 then t.reqWarm (bitOf v 2) r else if bitOf v 1 then t.reqCompute r else s

/-- BC_CTRL, bit by bit; the content of the service SRAM is a free value. -/
def State.writeBcCtrl (s : State) (v : Nat) : State :=
  let n := s.fld pgSVC 0x088 0 19
  let sram := (List.range n).map fun i => BitVec.ofNat 8 (Config.freeNat (s.freeCtr + i))
  let run := fun (i : Nat) (f : State → Out) (t : State) => if bitOf v i then t.act f else t
  run 4 execAbort <| run 3 execBcCommit <| run 2 (execRepair []) <| run 1 execScan <|
    run 0 (execBcStart sram []) { s with freeCtr := if bitOf v 0 then s.freeCtr + n else s.freeCtr }

/-- The actions of the 1 bits written to W1S fields of a tile page. -/
def State.tileAction (s : State) (pg off v : Nat) : State :=
  let ty := pgTy pg
  let p := pgPage pg
  let x : Site := Fin.ofNat 1296 (siteOfPg pg)
  let b := fun i => bitOf v i
  if ty == tySEQ then
    if p = 0 ∧ off = 0x044 then s.act (execSeqCtxStart x (BitVec.ofNat 8 v))
    else if p = 0 ∧ off = 0x048 then s.act (execSeqCtxStop x (BitVec.ofNat 8 v))
    else if p = 1 ∧ off = 0x054 then
      if b 1 then s.act (execKsUnbind x) else if b 0 then s.act (execKsBind x (BitVec.ofNat 8 (bitsOf v 8 8))) else s
    else s
  else if ty == tySPD then (if p = 0 ∧ off = 0x044 ∧ b 0 then s.act (execInit x) else s)
  else if ty == tyRTR then
    if p = 3 ∧ off = 0x058 then
      let t := if b 0 then s.act (execTblWrite x) else s
      if b 1 then t.act (execTblRead x) else t
    else s
  else s

/-- The actions of the 1 bits written to W1S fields of a global page, in ascending bit order. -/
def State.globalAction (s : State) (pg off v : Nat) : State :=
  let ty := pgTy pg
  let p := pgPage pg
  let i := pgInst pg
  let b := fun i => bitOf v i
  let run := fun (k : Nat) (f : State → Out) (t : State) => if b k then t.act f else t
  if ty == tyMCC then (if off = 0x048 then run 0 (execRetire (Fin.ofNat 384 i)) s else s)
  else if ty == tyMPH then (if off = 0x048 then s.act (execRetrain (Fin.ofNat 48 i) (BitVec.ofNat 8 v)) else s)
  else if ty == tyOPT then
    let port : Port := Fin.ofNat 32 i
    if off = 0x054 then run 0 (execRetireLane port (Fin.ofNat 8 (bitsOf v 1 3))) s
    else if off = 0x304 then run 1 (execFlush port) (run 0 (execSend port) s)
    else if off = 0x314 then run 0 (execMbxPop port) s
    else s
  else if ty == tyTIM then
    if off = 0x058 then run 1 execStepCancel (run 0 execGo s)
    else if off = 0x0CC then run 0 execPtpTxqPop s
    else if off = 0x0DC then run 0 execPtpRxqPop s
    else s
  else if ty == tyMTR then (if off = 0x0A8 then run 1 execDiscard (run 0 execCalCommit s) else s)
  else if ty == tyRCP then (if off = 0x044 then run 0 execRollover s else s)
  else if ty == tySEAL then (if off = 0x044 then run 0 execPresClose s else s)
  else if ty == tyFLT then
    if p = 1 ∧ off = 0x080 then run 0 execFltPop s
    else if p = 2 ∧ off = 0x080 then run 0 execSwSubmit s
    else if p = 3 ∧ off = 0x044 then s.act (execFltReplaceSet (BitVec.ofNat 12 v))
    else s
  else if ty == tyLOUPE then
    let f : Facet := Fin.ofNat 12 i
    if off = 0x04C then run 2 (execClear f) (run 1 (execStop f) (run 0 (execArm f) s)) else s
  else if ty == tySVC then
    if off = 0x044 then run 0 execKick s
    else if off = 0x050 then s.act (execCoreHalt (BitVec.ofNat 8 v) (BitVec.ofNat 8 (v / 2 ^ 8)))
    else if off = 0x080 then s.writeBcCtrl v
    else s
  else if ty == tyGLB then (if p = 0 ∧ off = 0x044 then s.writeGlbReset v else s)
  else if ty == tyFUS then (if p = 2 ∧ off = 0x048 then run 0 execFuseGo s else s)
  else if ty == tyPAIR then (if off = 0x050 then run 1 execResync (run 0 execHandover s) else s)
  else s

/-- The actions of a written word's W1S fields; a 0 has no effect. -/
def State.actions (s : State) (pg off v : Nat) : State :=
  if v = 0 then s else if isTileTy (pgTy pg) then s.tileAction pg off v else s.globalAction pg off v

/-! ### Field kinds (Table 02.7) -/

/-- A field of a K register changes only while RUN is 0 and no COMMIT is pending, and counts as written only if its value
differs (R46, R48). -/
def State.kRefused (s : State) (pg : Nat) : Bool := s.runs pg || (s.blk (blkOf pg)).commitAt.isSome

/-- Stages a field's value (kind S). -/
def State.stageField (s : State) (pg off lo w v : Nat) : State :=
  let k := regKey pg off
  let old := (tblFind s.staged k).getD ⟨0, 0⟩
  let m := (2 ^ w - 1) * 2 ^ lo
  { s with staged := tblPut s.staged k ⟨old.mask ||| m, putBits old.value lo w v⟩ }

/-- One field of a written word, by its own kind (R47). W1S fields act in `actions`. DESIGN CHOICE (log entry 23): a P + K field is
guarded first, so outside the presence window it is refused even where its value would not change (R46, R48). -/
def State.writeField (s : State) (pg off value : Nat) (f : RField) : State :=
  let v := bitsOf value f.lo f.w
  let act := fun (t : State) =>
    match f.kind with
    | .l => t.setFld pg off f.lo f.w v
    | .s => if (t.blk (blkOf pg)).commitAt.isSome then t.wlock pg else t.stageField pg off f.lo f.w v
    | .k =>
      if v = t.fld pg off f.lo f.w then t
      else if t.kRefused pg then t.wlock pg else t.setFld pg off f.lo f.w v
    | .w1c => t.setFld pg off f.lo f.w (t.fld pg off f.lo f.w &&& (2 ^ f.w - 1 - v))
    | .ro => t
    | .w1s => t
  if f.kind == .w1s then s else if f.pres then s.guarded pg act else act s

/-- Read-only values that writing bit 0 clears: CLK_TOFS_MAX, PRG_IPEAK, TEL_TEMP_MAX (Tables 05.12, 14.3, 15.8). -/
def clearsOnBit0 (pg off : Nat) : Bool :=
  (pgTy pg == tyCLK && off == 0x04C && decide (pgInst pg < 12)) || (pgTy pg == tyPRG && off == 0x058) ||
    (pgTy pg == tyTEL && pgPage pg == 1 && off == 0x044)

/-- A word whose fields are those of its definition. -/
def State.writeFields (s : State) (pg off v : Nat) : State :=
  match regAt pg off with
  | none => s
  | some d => (d.fields.foldl (fun (t : State) f => t.writeField pg off v f) s).actions pg off
      (v &&& ((d.fields.filter fun f => f.kind == .w1s).foldl (fun a f => a + (2 ^ f.w - 1) * 2 ^ f.lo) 0 |||
        (if pgTy pg == tySEQ then 0xFF00 else 0) ||| (if pgTy pg == tyOPT then 0xE else 0)))

/-- MCC_ASSIGN (R302): a trained subchannel takes its logical channel, or is a spare. -/
def State.writeAssign (s : State) (pg v : Nat) : State :=
  let n := pgInst pg
  let t := s.writeFields pg 0x04C v
  if t.fld pg 0x04C 0 9 = s.fld pg 0x04C 0 9 then t
  else if s.mcSt n = stSPARE ∨ s.mcSt n = stACTIVE then
    if bitsOf v 0 9 ≤ 375 then (t.setMcSt n stACTIVE).setMcLch n (bitsOf v 0 9) else (t.setMcSt n stSPARE).setMcLch n 0x1FF
  else t

/-- PRG_REQ.TARGET (R440 to R444); the facet bus power is the last one shown. -/
def State.writePrgReq (s : State) (r v : Nat) : State :=
  let region : Region := Fin.ofNat 72 r
  match bitsOf v 0 2 with
  | 0 => s.act (execPrgReqOff region)
  | 1 => s.act (execPrgReqRetain region)
  | 2 => s.act (execPrgReqOn region (BitVec.ofNat 11 (s.fld (pgPRG r) 0x084 0 11)))
  | _ => s.act (execPrgReqInvalid region)

/-- A word of a block's own registers: those whose write does more than set fields, then the others. -/
def State.writeBlockWord (s : State) (pg off v : Nat) : State :=
  let ty := pgTy pg
  let p := pgPage pg
  let i := pgInst pg
  if clearsOnBit0 pg off then (if bitOf v 0 then s.setReg pg off 0 else s)
  else if ty == tySYN && p == 1 then
    let x : Site := Fin.ofNat 1296 i
    let n : Fin 128 := Fin.ofNat 128 ((off - 0x040) / 16)
    if off < 0x040 ∨ 0x840 ≤ off then s
    else match (off - 0x040) / 4 % 4 with
      | 0 => s.act (execSobjBind x n (BitVec.ofNat 32 v))
      | 1 => s.act (execSobjVal x n (BitVec.ofNat 32 v))
      | 3 => s.act (execSobjPart x n (BitVec.ofNat 32 v))
      | _ => s
  else if ty == tyOPT && (off == 0x080 || off == 0x084 || off == 0x088) then s.optAdv i ((off - 0x080) / 4) v
  else if ty == tyOPT && off == 0x300 then s.act (execMbxTxData (Fin.ofNat 32 i) (BitVec.ofNat 32 v))
  else if ty == tyOPT && decide (0x200 ≤ off) && decide (off < 0x300) then
    if s.reg pg off = v then s else if s.kRefused pg then s.wlock pg else s.setReg pg off v
  else if ty == tyMCC && off == 0x04C then s.writeAssign pg v
  else if ty == tyPRG && off == 0x048 then s.writePrgReq i v
  else if ty == tyPRG && off == 0x040 then
    let t := (s.setFld pg off 8 8 (bitsOf v 8 8)).setFld pg off 16 8 (bitsOf v 16 8)
    if b2n (bitOf v 0) = s.fld pg off 0 1 then t
    else if s.kRefused pg then t.wlock pg
    else t.act (execTrimChange (Fin.ofNat 72 i) (bitOf v 0))
  else if ty == tyPWR && off == 0x040 then
    let t := s.writeFields pg off v
    if bitOf v 2 then t else t.clearLocal.countReasons
  else if ty == tyPWR && (off == 0x04C || off == 0x05C) then (s.countReasons.writeFields pg off v).countReasons
  else if ty == tyMTR && off == 0x0A4 then s.act (execCalData (BitVec.ofNat 32 v))
  else if ty == tySVC && off == 0x040 then
    let t := s.writeFields pg off v
    if bitOf v 0 && !s.flag pg off 0 then t.act execKick else t
  else if ty == tyLOUPE && off == 0x048 then
    let t := s.writeFields pg off v
    if s.presOpen then t.fwRecord fwLoupe clsInfo [i, bitsOf v 0 1] else t
  else s.writeFields pg off v

/-- A word of the common header. PG_CTRL acts in the order ENABLE, HALT_REQ, COMMIT, RESET. -/
def State.writeHdr (s : State) (pg off v : Nat) : State :=
  let h := s.hdr pg
  if off = 0x008 then s.setHdr pg { h with wlock := h.wlock && !bitOf v 3, poisonSeen := h.poisonSeen && !bitOf v 5 }
  else if off = 0x00C then
    let t := (s.writeEnable pg (bitOf v 0)).writeHalt pg (bitOf v 1)
    let t := if bitOf v 3 then t.writeCommit pg else t
    if bitOf v 2 then t.writeReset pg else t
  else if off = 0x010 then s.setHdr pg { h with err := h.err &&& (0xFFFF_FFFF - v) }
  else if off = 0x014 then
    s.setHdr pg { h with mask := ((List.range 32).filter fun b => bitOf v b && errDefined pg b).foldl (fun a b => a + 2 ^ b) 0 }
  else if off = 0x018 then s.writeInj pg v
  else if off = 0x01C then
    s.setHdr pg { h with corr := if bitOf v 0 then 0 else h.corr, unc := if bitOf v 16 then 0 else h.unc }
  else s

/-- A write of a word to a present page. A retired instance takes only PG_ERR, PG_ERR_MASK, PG_ERR_CNT and WLOCK (R53). -/
def State.writeWord (s : State) (pg off v : Nat) : State :=
  if (s.blk (blkOf pg)).retired then
    if off = 0x010 ∨ off = 0x014 ∨ off = 0x01C then s.writeHdr pg off v
    else if off = 0x008 then s.writeHdr pg off (v % 32)
    else s
  else if off < 0x040 then s.writeHdr pg off v
  else s.writeBlockWord pg off v

/-! ### Latched reads (R38) -/

/-- Offsets of the low words of a block's 64-bit quantities, by page. -/
def lowWords (ty : Nat) : List (Nat × Nat) :=
  let run := fun (p off n : Nat) => (List.range n).map fun i => (p, off + 8 * i)
  if ty == tyMXA then run 1 0x040 7 else if ty == tyVXE then run 1 0x040 3 else if ty == tyDMX then run 1 0x040 4
  else if ty == tyTEL then [(1, 0x050)] else if ty == tySYN then run 0 0x060 2 else if ty == tySPD then run 1 0x040 6
  else if ty == tyRTR then (1, 0x058) :: run 4 0x040 6 else if ty == tyMCC then run 0 0x060 5
  else if ty == tyMPH then [(0, 0x050)]
  else if ty == tyOPT then [(0, 0x060), (0, 0x070), (0, 0x084)] ++ run 0 0x0A0 5
  else if ty == tyCLK then run 0 0x050 2
  else if ty == tyTIM then [(0, 0x040), (0, 0x050), (0, 0x060), (0, 0x080), (0, 0x088), (0, 0x0A0), (0, 0x0C0), (0, 0x0D0)]
  else if ty == tyPWR then run 0 0x100 9
  else if ty == tyMTR then [(0, 0x050), (0, 0x058), (0, 0x068), (0, 0x070), (0, 0x078), (0, 0x080)]
  else if ty == tyRCP then run 0 0x050 4 else if ty == tySEAL then [(0, 0x048)]
  else if ty == tyFLT then [(0, 0x050), (0, 0x058), (0, 0x060), (3, 0x048)]
  else if ty == tySVC then [(0, 0x090), (0, 0x098)]
  else if ty == tyGLB then [(0, 0x050), (1, 0x040), (2, 0x040), (3, 0x050)]
  else if ty == tyPAIR then [(0, 0x044), (0, 0x060)]
  else []

/-- The words that a read of a word latches for its requester: the high word of its 64-bit quantity, and with TAI_NOW_S and
FLT_REPORTS the words named there (Tables 14.6, 18.7). -/
def latchedWith (pg off : Nat) : List Nat :=
  let ty := pgTy pg
  if ty == tyTIM && off == 0x0A0 then [0x0A4, 0x0A8]
  else if ty == tyFLT && pgPage pg == 0 && off == 0x050 then [0x054, 0x058, 0x05C, 0x068]
  else if (lowWords ty).contains (pgPage pg, off) then [off + 4]
  else []

/-- The key of a latch: requester and address. -/
def latchKey (req addr : Nat) : Nat := req * 2 ^ 48 + addr

/-- Reads a word of a present page: the pending latch of this requester if there is one, else the word, which latches what
goes with it. A read of MBX_RX_DATA takes the next word of the head message. -/
def State.readWord (s : State) (req pg off : Nat) : Nat × State :=
  let addr := pageAddr pg + off
  match tblFind s.latches (latchKey req addr) with
  | some v => (v, { s with latches := tblDel s.latches (latchKey req addr) })
  | none =>
    if pgTy pg == tyOPT && off == 0x310 then
      let t := s.act (execMbxRxRead (Fin.ofNat 32 (pgInst pg)))
      (t.reg pg 0x310, t)
    else
      let put := fun (l : List (Nat × Nat)) (o : Nat) => tblPut l (latchKey req (pageAddr pg + o)) (s.regView pg o)
      (s.regView pg off, { s with latches := (latchedWith pg off).foldl put s.latches })

end Sys2Proof.Machine
end

