-- ==== Sys2Proof/Machine/ServiceAccess.lean ====
section
/-! DEFINITION. Accesses of the service complex: register pages, bulk memory, and scratchpads over the routed plane, with the
messages and packets that carry them, and the responses that reach tiles and service cores (chapters 02 and 07, R21, R33 to
R36, R196 to R206, R561). -/

namespace Sys2Proof.Machine

open Sys2Proof

/-! ### The way to a site (R21, R22) -/

/-- The routers of a packet's way (R259): fuel, from, to. -/
def pathSites : Nat → Nat → Nat → List Nat
  | 0, a, _ => [a]
  | n + 1, a, d =>
    match (nextPort a d).bind (neighbour a) with
    | some b => a :: pathSites n b d
    | none => [a]

/-- Whether every router on the way from one site to another forwards. -/
def State.pathOpen (s : State) (a d : Nat) : Bool := (pathSites 70 a d).all s.forwards

/-- Whether the service complex reaches a site and hears from it, through the nearest corner in service (R21, R22). -/
def State.siteReached (s : State) (x : Nat) : Bool :=
  (nearestCorner s.liveCorners x).any fun c => s.pathOpen c x && s.pathOpen x c

/-! ### Register pages (R33 to R36) -/

/-- First and last plus one of the scratchpad windows and of the views of bulk memory (Table 02.1). -/
def spdWindow : Nat := 0x10_0000_0000
def isScratch (addr : Nat) : Bool := decide (spdWindow ≤ addr) && decide (addr < spdWindow + 1152 * 0x80_0000)
def isBulk (addr : Nat) : Bool :=
  (decide (interBase ≤ addr) && decide (addr < interEnd)) || (decide (directBase ≤ addr) && decide (addr < directBase + 376 * 2 ^ 33))

/-- Whether an access is one that R34 names: a naturally aligned 32-bit read or write. -/
def Access.plain (a : Access) : Bool :=
  a.width == 4 && a.addr % 4 == 0 && (match a.op with
    | .load => true
    | .store _ => true
    | _ => false)

/-- Whether an access is a read. -/
def Access.write (a : Access) : Bool := a.op != .load

/-- How an access to the register space stands: its status and the state if it goes no further; else its page, the state with the
injection that acts at it taken, and whether that was REGPAR (R34, R44, R54). -/
def State.pageFor (s : State) (a : Access) : Except (Nat × State) (Nat × Bool × State) :=
  match pageAt a.addr with
  | none => .error (accUNMAPPED, s)
  | some pg =>
    if isTileTy (pgTy pg) && !s.siteOn (siteOfPg pg) then .error (accGATED, s)
    else if isTileTy (pgTy pg) && !s.siteReached (siteOfPg pg) then .error (accTIMEOUT, s.elapse (100 * usec))
    else if !a.plain then .error (accACCESS, s.raise pg 0 clsInfo .none false [])
    else if (s.blk (blkOf pg)).retired then .ok (pg, false, s)
    else
      match s.takeInjOf pg [0, 1] with
      | some (0, t) => .error (accACCESS, t.raise pg 0 clsInfo .none true [])
      | some (_, t) => .ok (pg, true, t.raise pg 1 clsInfo .none true [])
      | none => .ok (pg, false, s)

/-- A word written to a page. Where the access took an injection, no other one acts at it (R44), and REGPAR set in the cycle of
its own clear stays set (R50). -/
def State.pageWrite (s : State) (pg off v : Nat) (par : Bool) : State :=
  if par then
    let h := s.hdr pg
    let u := (s.setHdr pg { h with inj := h.inj - (h.inj &&& 0xC) }).writeWord pg off v
    if off = 0x00C ∧ bitOf v 2 then u
    else
      let k := u.hdr pg
      (u.setHdr pg { k with inj := k.inj ||| (h.inj &&& 0xC) }).setErr pg 1
  else s.writeWord pg off v

/-- An access to a page that does not complete within 100 µs (R35): whether a write took effect is a free value. -/
def State.pageLate (s : State) (a : Access) : State :=
  let (n, t) := (s.elapse (100 * usec)).freshNat
  match a.op, pageAt a.addr with
  | .store v, some pg => if n % 2 == 1 && a.plain then t.pageWrite pg (a.addr % 0x1000) (v % 2 ^ 32) false else t
  | _, _ => t

/-- An access to the register space: status, value, state. -/
def State.pageAccess (s : State) (a : Access) : Nat × Nat × State :=
  if a.late then (accTIMEOUT, 0, s.pageLate a)
  else match s.pageFor a with
    | .error (e, t) => (e, 0, t)
    | .ok (pg, par, t) =>
      match a.op with
      | .store v => (accOK, 0, t.pageWrite pg (a.addr % 0x1000) (v % 2 ^ 32) par)
      | _ =>
        let (v, u) := t.readWord a.req pg (a.addr % 0x1000)
        (accOK, v, u)

/-! ### Bulk memory -/

/-- An access to bulk memory: status, value, state. The subchannel must be reached through its site (R22) and serve its channel
(R286); it performs one burst of the word (R287), and a poisoned word is no value (R206, R619). -/
def State.bulkAccess (s : State) (a : Access) : Nat × Nat × State :=
  let (n, off) := s.placeOf a.addr
  let d := if s.mcSt n == stFORWARD then s.mcPartner n else n
  let i := off / 4 % 8
  if n = 0x1FF then (accUNMAPPED, 0, s)
  else if !a.plain then (accACCESS, 0, s)
  else if !s.forwards (siteOfMc n) || !s.forwards (siteOfMc d) then (accTIMEOUT, 0, s.elapse (100 * usec))
  else if !s.enabled (pgMCC n) then (accUNMAPPED, 0, s)
  else
    let (old, t) := s.burstRead d (off / 32) .clean
    match a.op with
    | .store v =>
      let new := listSet old i ⟨v % 2 ^ 32, false⟩
      let u := t.burstWrite d (off / 32) new
      (accOK, 0, if s.mcSt d == stSRC then u.storeBurst (s.mcPartner d) (off / 32) new else u)
    | _ =>
      let w := nthD ⟨0, true⟩ old i
      if w.p then (accACCESS, 0, t) else (accOK, w.v, t)

/-! ### Scratchpads (R196 to R206) -/

/-- Requester number of an access (R200): a service core's own; firmware's accesses for a message or a packet are core 0's (log
entry 199). -/
def Access.who (a : Access) : Nat := if a.req < 8 then 2040 + a.req else 2040

/-- The kind and the data of a scratchpad access. -/
def Access.kind (a : Access) : RKind × Nat :=
  match a.op with
  | .load => (.read, 0)
  | .store v => (.write, v % 2 ^ 32)
  | .amo f v => (.amo f, v % 2 ^ 32)
  | .refused => (.read, 0)

/-- LTN and word of an address in a scratchpad window, or the status that refuses it at once (R31, R202, R203; a site that
forwards nothing is GATED, log entry 199). -/
def State.scratchAt (s : State) (a : Access) : Except Nat (Nat × Nat) :=
  let ltn := (a.addr - spdWindow) / 0x80_0000
  let off := (a.addr - spdWindow) % 0x80_0000
  let x := s.ltnSite ltn
  if 0x60_0000 ≤ off ∨ s.ltns ≤ ltn ∨ 1296 ≤ x then .error accUNMAPPED
  else if a.width ≠ 4 ∨ a.addr % 4 ≠ 0 ∨ a.op = .refused then .error accACCESS
  else if !s.forwards x then .error accGATED
  else .ok (ltn, off / 4)

/-- A service request of a requester and tag. -/
def SvcReq.is (who tag : Nat) (r : SvcReq) : Bool := r.who == who && r.tag == tag

/-- A free tag of a requester, 136 to 255 (R200). -/
def State.svcTag (s : State) (who : Nat) : Option Nat :=
  ((List.range 120).map (· + 136)).find? fun t => !s.svc.any (SvcReq.is who t)

/-- Changes the record of a service request. -/
def State.svcPut (s : State) (r : SvcReq) : State := { s with svc := (s.svc.filter fun q => !q.is r.who r.tag) ++ [r] }

/-- A service request is sent, or sent again with the same requester and tag, through the corner nearest its target (R21, R201),
whose router translates the LTN (R260). With no corner or no map it waits for its timeout. -/
def State.svcSend (s : State) (r : SvcReq) : State :=
  match nearestCorner s.liveCorners (s.ltnSite r.ltn) with
  | none => s.svcPut r
  | some c =>
    match s.siteOfLtn c r.ltn with
    | none => s.svcPut r
    | some d => (s.inject ⟨r.kind.ty, c, 4, d, r.ltn, r.who, r.tag, 0, false, r.word, [⟨r.data, false⟩], 4, s.cyc c⟩).svcPut
        { r with site := some d }

/-- An access starts as a request; without a free tag it waits before its requester's others. -/
def State.svcStart (s : State) (a : Access) (ltn word : Nat) : State :=
  let c := (nearestCorner s.liveCorners (s.ltnSite ltn)).getD 0
  match s.svcTag a.who with
  | none => { s with svcWait := a :: s.svcWait }
  | some g => s.svcSend ⟨a, a.who, g, a.kind.1, ltn, word, a.kind.2, c, s.cyc c, 0, none, true⟩

/-! ### Accesses and what follows them -/

/-- An access, if it completes at once: status and value; a scratchpad's completes with its response. -/
def State.accessNow (s : State) (a : Access) : Option (Nat × Nat) × State :=
  if isScratch a.addr then
    match s.scratchAt a with
    | .error e => (some (e, 0), s)
    | .ok (ltn, w) => (none, s.svcStart a ltn w)
  else
    let (e, v, t) := if isBulk a.addr then s.bulkAccess a else s.pageAccess a
    (some (e, v), t)

/-- An access completes: its requester has the status and the value; a service core's access that is not OK raises its access
fault, which GLB page 2 records (R35, Table 20.9). -/
def State.complete (s : State) (req addr : Nat) (write : Bool) (st v : Nat) : State :=
  let t : State := { s with accesses := tblPut s.accesses req (st, v) }
  if (st == accOK && !s.injPend (pgGLB 0) 10) || decide (8 ≤ req) then t
  else
    let n := satAdd 0xFFFF (t.fld (pgGLB 2) 0x048 16 16) 1
    ((t.setReg64 (pgGLB 2) 0x040 addr).setReg (pgGLB 2) 0x048
      (packBits [(st, 0), (req, 4), (b2n write, 7), (n, 16)])).raise (pgGLB 0) 10 clsInfo .none false []

/-- A reply to a management connection, if it is still open. -/
def State.replyTo (s : State) (conn tag : Nat) (payload : List Nat) : State :=
  if s.conns.contains conn then s.reply conn tag stOK payload else s

/-- What follows an access that ended: the next one of its requester, if it continues (R34, R561). Both halves of a 64-bit access
are performed, and it has the status of the first half unless that is OK (log entry 32). -/
def State.accessEnd (s : State) (a : Access) (st v : Nat) : Option Access × State :=
  match a.then_ with
  | .done => (none, s.complete a.req a.addr a.write st v)
  | .low hi =>
    let op : AccOp := match hi with
      | some h => .store h
      | none => .load
    (some { a with addr := a.addr + 4, op := op, then_ := .high st v }, s.complete a.req a.addr a.write st v)
  | .high st0 v0 =>
    let t := s.complete a.req a.addr a.write st v
    (none, { t with accesses := tblPut t.accesses a.req (if st0 = accOK then st else st0, v0 + v * 2 ^ 32) })
  | .packet tag => (none, { s with rsps := s.rsps ++ [⟨a.req, tag, a.addr, a.write, st, v⟩] })
  | .readRun conn tag left got late =>
    if st ≠ accOK then (none, s.replyTo conn tag ([got.length, st] ++ got))
    else
      let got := got ++ [v]
      match left with
      | 0 => (none, s.replyTo conn tag ([got.length, st] ++ got))
      | n + 1 => (some { a with addr := a.addr + 4, late := late == some got.length, then_ := .readRun conn tag n got late }, s)
  | .writeRun conn tag left count late =>
    if st ≠ accOK then (none, s.replyTo conn tag [count, st])
    else match left with
      | [] => (none, s.replyTo conn tag [count + 1, st])
      | w :: l =>
        (some { a with addr := a.addr + 4, op := .store w, late := late == some (count + 1),
                       then_ := .writeRun conn tag l (count + 1) late }, s)

/-- A bound of the accesses that follow one another from an access on. -/
def Access.fuel (a : Access) : Nat :=
  match a.then_ with
  | .readRun _ _ left _ _ => left + 2
  | .writeRun _ _ left _ _ => left.length + 2
  | _ => 3

/-- Accesses of one requester one after the other, up to one that waits for its response (R36). -/
def svcRun : Nat → State → Access → State
  | 0, s, _ => s
  | n + 1, s, a =>
    match s.accessNow a with
    | (none, t) => t
    | (some (st, v), t) =>
      match t.accessEnd a st v with
      | (some b, u) => svcRun n u b
      | (none, u) => u

/-- Whether a requester waits for a response. -/
def State.svcBusy (s : State) (req : Nat) : Bool := s.svc.any fun r => r.live && r.acc.req == req

/-- Accesses whose requester waits no more start, oldest first. -/
def svcNext : Nat → State → State
  | 0, s => s
  | n + 1, s =>
    match s.svcWait.find? fun a => !s.svcBusy a.req with
    | none => s
    | some a =>
      let t := svcRun a.fuel { s with svcWait := s.svcWait.erase a } a
      if t.svcWait.length < s.svcWait.length then svcNext n t else t

/-- A requester's access: behind those it still waits for (R36). -/
def State.access (s : State) (a : Access) : State :=
  if s.svcBusy a.req || s.svcWait.any (·.req == a.req) then { s with svcWait := s.svcWait ++ [a] } else svcRun a.fuel s a

/-- A service request ends: RC_REL if its entry is to be released, its record is kept while a late response may come, and its access
has its status (R201, R208). -/
def State.svcEnd (s : State) (r : SvcReq) (rel : Bool) (st v : Nat) : State :=
  let t : State := { s with svc := s.svc.filter fun q => !q.is r.who r.tag }
  let t := match r.site with
    | some d => if rel && r.kind.atomic then
        t.inject ⟨tRCREL, r.corner, 4, d, 0x7FF, r.who, r.tag, 0, false, 0, [], 4, t.cyc r.corner⟩ else t
    | none => t
  let t := if st = accTIMEOUT && s.outstanding ⟨r.who, false, r.tag⟩ then t.svcPut { r with live := false } else t
  let u := match t.accessEnd r.acc st v with
    | (some b, u) => svcRun b.fuel u b
    | (none, u) => u
  svcNext u.svcWait.length u

/-- The service request that a response answers; a late one ends the record of its failed request. -/
def State.svcAnswer (s : State) (req tag : Nat) (f : SvcReq → State) : State :=
  match s.svc.find? (SvcReq.is req tag) with
  | none => s
  | some r =>
    if r.live then f r
    else
      let t : State := { s with svc := s.svc.filter fun q => !q.is req tag }
      svcNext t.svcWait.length t

/-- A word arrives for a service core's access: poisoned, it completes with ACCESS (R206). -/
def State.svcWord (s : State) (req tag : Nat) (w : PWord) : State :=
  s.svcAnswer req tag fun r => s.svcEnd r true (if w.p then accACCESS else accOK) (if w.p then 0 else w.v)

/-- A LOSS notice reaches the service complex (R201, R203): sent again up to three times; refused, GATED for a site whose logic is
gated, else UNMAPPED. -/
def State.lossSvc (s : State) (req tag cause : Nat) : State :=
  s.svcAnswer req tag fun r =>
    if cause = 3 then s.svcEnd r false (if s.siteOn (r.site.getD 0) then accUNMAPPED else accGATED) 0
    else if 3 ≤ r.reissues then s.svcEnd r true accTIMEOUT 0
    else s.svcSend { r with reissues := r.reissues + 1 }

/-- A service request has had no response within 2^24 cycles (R201). -/
def State.timeoutSvc (s : State) (r : SvcReq) : State := (s.waitCyc r.corner (r.first + 2 ^ 24)).svcEnd r true accTIMEOUT 0

/-! ### Responses at requesters (R198, R201) -/

/-- RD_RSP (R198): read data reaches a DMX request, a thread or a service core. -/
def execRdRsp (site : Site) (req : Nat) (rsite : Bool) (tag : Nat) (data : List PWord) (env : Env) (s : State) : Out :=
  let t := s.eject site.val tRDRSP ⟨req, rsite, tag⟩
  if tag < 136 then .next (t.rdTile site.val tag data env) else .next (t.svcWord req tag (data.headD ⟨0, false⟩))

/-- WR_ACK (R198, R283): a write of a DMX request, a thread or a service core is acknowledged. -/
def execWrAck (site : Site) (req : Nat) (rsite : Bool) (tag : Nat) (s : State) : Out :=
  let t := s.eject site.val tWRACK ⟨req, rsite, tag⟩
  if tag < 136 then .next (t.ackTile site.val tag) else .next (t.svcWord req tag ⟨0, false⟩)

/-- AMO_RSP (R198): the old value reaches the thread or the service core, which releases the replay-cache entry. -/
def execAmoRsp (site : Site) (req : Nat) (rsite : Bool) (tag : Nat) (old : PWord) (s : State) : Out :=
  let t := s.eject site.val tAMORSP ⟨req, rsite, tag⟩
  if tag < 136 then .next (if 128 ≤ tag then t.seqResponse site.val tag old else t) else .next (t.svcWord req tag old)

/-- LOSS (R201, R203, R260, R286). `words` holds the update word of a subchannel that moved. -/
def execLoss (site : Site) (req : Nat) (rsite : Bool) (tag : Nat) (cause : Fin 8) (words : List (BitVec 64)) (s : State) : Out :=
  let t := (s.eject site.val tLOSS ⟨req, rsite, tag⟩).lossUpdate site.val (words.map BitVec.toNat)
  if tag < 136 then .next (t.lossTile site.val tag cause.val) else .next (t.lossSvc req tag cause.val)

/-- REMOTE_REQUEST_TIMEOUT (R201): no response within 2^24 cycles of the first issue; of the service complex, the oldest request with
the tag whose first corner is the site. -/
def execRemoteRequestTimeout (site : Site) (tag : Nat) (s : State) : Out :=
  if tag < 136 then .next (s.timeoutTile site.val tag)
  else match s.svc.find? fun r => r.live && r.tag == tag && r.corner == site.val with
    | none => .next s
    | some r => .next (s.timeoutSvc r)

/-! ### The commands -/

/-- The operation of a service core's store command. -/
def CoreOp.op (o : CoreOp) (v : Nat) : AccOp :=
  match o with
  | .store => .store v
  | .amo f => .amo f.val v
  | .refused => .refused

/-- REGISTER_ACCESS_WRITE: a store, of which a naturally aligned 64-bit one is two 32-bit stores in ascending address order, both
performed (R34, log entry 32), or an atomic (R202). -/
def execRegisterAccessWrite (req addr width : Nat) (op : CoreOp) (value : BitVec 64) (s : State) : Out :=
  let v := value.toNat
  if width = 8 ∧ addr % 8 = 0 ∧ op = .store then
    .next (s.access ⟨req, addr, 4, .store (v % 2 ^ 32), false, .low (some (v / 2 ^ 32))⟩)
  else .next (s.access ⟨req, addr, width, op.op v, false, .done⟩)

/-- LATCHED_READ (R38): a read, which latches the high word of a 64-bit quantity; a naturally aligned 64-bit one is two 32-bit reads
(R34). -/
def execLatchedRead (req addr width : Nat) (s : State) : Out :=
  if width = 8 ∧ addr % 8 = 0 then .next (s.access ⟨req, addr, 4, .load, false, .low none⟩)
  else .next (s.access ⟨req, addr, width, .load, false, .done⟩)

/-- REG_ACCESS_TIMEOUT (R35): an access to a register page ends after 100 µs; one to a scratchpad window fails under R201, with its
request sent. -/
def execRegAccessTimeout (req addr : Nat) (write : Bool) (value : Word) (s : State) : Out :=
  let a : Access := ⟨req, addr, 4, if write then .store value.toNat else .load, true, .done⟩
  let mine := fun (r : SvcReq) => r.live && r.acc.req == req && r.acc.addr == addr
  if isScratch addr then
    let t := if s.svc.any mine then s else s.access a
    match t.svc.find? mine with
    | some r => .next (t.timeoutSvc r)
    | none => .next t
  else .next (s.access a)

/-- REG_RD: the service complex reads; the answer waits for REG_RSP. -/
def execRegRd (req addr tag : Nat) (late : Bool) (s : State) : Out := .next (s.access ⟨req, addr, 4, .load, late, .packet tag⟩)

/-- REG_WR: the service complex writes. -/
def execRegWr (req addr : Nat) (value : Word) (tag : Nat) (late : Bool) (s : State) : Out :=
  .next (s.access ⟨req, addr, 4, .store value.toNat, late, .packet tag⟩)

/-- REG_RSP: the oldest answer to a requester's tag arrives. -/
def execRegRsp (req tag : Nat) (s : State) : Out :=
  match s.rsps.find? fun r => r.req == req && r.tag == tag with
  | none => .next s
  | some r =>
    let t : State := { s with rsps := dropFirst (fun (x : RegRsp) => x.req == req && x.tag == tag) s.rsps }
    .next (t.complete req r.addr r.write r.status r.value)

/-- The requester number of a management connection; 0 to 7 are the service cores. -/
def connReq (conn : Nat) : Nat := 8 + conn

/-- REGISTER_READ (R561): 1 to 64 words; the reply carries words done, the last status, and the words. -/
def execRegisterRead (conn : Nat) (tag : Word) (addr count : Nat) (late : Option Nat) (s : State) : Out :=
  s.served conn tag.toNat fun t =>
    if count < 1 ∨ 64 < count then t.reply conn tag.toNat stBADMSG []
    else t.access ⟨connReq conn, addr, 4, .load, late == some 0, .readRun conn tag.toNat (count - 1) [] late⟩

/-- REGISTER_WRITE (R561): the reply carries words done and the last status. A WRITE without words is malformed. -/
def execRegisterWrite (conn : Nat) (tag : Word) (addr : Nat) (values : List Word) (late : Option Nat) (s : State) : Out :=
  s.served conn tag.toNat fun t =>
    match values.map BitVec.toNat with
    | [] => t.reply conn tag.toNat stBADMSG []
    | v :: l => t.access ⟨connReq conn, addr, 4, .store v, late == some 0, .writeRun conn tag.toNat l 0 late⟩

end Sys2Proof.Machine
end

