-- ==== Sys2Proof/Machine/Dispatch.lean ====
section
/-! DEFINITION. One arm per command, each a direct call of its meaning. -/

namespace Sys2Proof.Machine

open Sys2Proof

/-- What a command does to everything but the queue. -/
def exec (i : Instr) (s : State) : Host.Outcome State Fault Refusal :=
  match i with
  | .registerAccessWrite req addr width op value => Sys2Proof.Machine.execRegisterAccessWrite req addr width op value s
  | .latchedRead req addr width => Sys2Proof.Machine.execLatchedRead req addr width s
  | .regAccessTimeout req addr write value => Sys2Proof.Machine.execRegAccessTimeout req addr write value s
  | .enable page on => Sys2Proof.Machine.execEnable page on s
  | .haltReq page on => Sys2Proof.Machine.execHaltReq page on s
  | .safePointHalt page => Sys2Proof.Machine.execSafePointHalt page s
  | .reset page => Sys2Proof.Machine.execReset page s
  | .commit page => Sys2Proof.Machine.execCommit page s
  | .commitApply page => Sys2Proof.Machine.execCommitApply page s
  | .commitStall page => Sys2Proof.Machine.execCommitStall page s
  | .pgErrInj page bits => Sys2Proof.Machine.execPgErrInj page bits s
  | .rowReady site => Sys2Proof.Machine.execRowReady site s
  | .rowIssue site env mis => Sys2Proof.Machine.execRowIssue site env mis s
  | .weightGroupLoad site env => Sys2Proof.Machine.execWeightGroupLoad site env s
  | .frontEnter site => Sys2Proof.Machine.execFrontEnter site s
  | .outputDrain site accept held env => Sys2Proof.Machine.execOutputDrain site accept held env s
  | .passVerdict site => Sys2Proof.Machine.execPassVerdict site s
  | .passComplete site => Sys2Proof.Machine.execPassComplete site s
  | .shapingLevelStep site => Sys2Proof.Machine.execShapingLevelStep site s
  | .rampComplete site => Sys2Proof.Machine.execRampComplete site s
  | .mxaResetEffect site => Sys2Proof.Machine.execMxaResetEffect site s
  | .seqCtxStart site mask => Sys2Proof.Machine.execSeqCtxStart site mask s
  | .seqCtxStop site mask => Sys2Proof.Machine.execSeqCtxStop site mask s
  | .stopIdle site ctx => Sys2Proof.Machine.execStopIdle site ctx s
  | .seqInstruction site ctx env parity parity2 ramp => Sys2Proof.Machine.execSeqInstruction site ctx env parity parity2 ramp s
  | .seqLoadStore site ctx store funct3 rd rs1 rs2 imm env => Sys2Proof.Machine.execSeqLoadStore site ctx store funct3 rd rs1 rs2 imm env s
  | .task site ctx rd rs1 rs2 ramp env => Sys2Proof.Machine.execTask site ctx rd rs1 rs2 ramp env s
  | .taskWindowEntry site => Sys2Proof.Machine.execTaskWindowEntry site s
  | .taskFire site engines => Sys2Proof.Machine.execTaskFire site engines s
  | .swaitPeek site ctx rs1 rs2 => Sys2Proof.Machine.execSwaitPeek site ctx rs1 rs2 s
  | .swaitConsume site ctx rs1 rs2 => Sys2Proof.Machine.execSwaitConsume site ctx rs1 rs2 s
  | .swaitBarrier site ctx rs1 rs2 => Sys2Proof.Machine.execSwaitBarrier site ctx rs1 rs2 s
  | .ssig site ctx rs1 rs2 => Sys2Proof.Machine.execSsig site ctx rs1 rs2 s
  | .halt site ctx => Sys2Proof.Machine.execHalt site ctx s
  | .rlw site ctx rd rs1 => Sys2Proof.Machine.execRlw site ctx rd rs1 s
  | .rsw site ctx rs1 rs2 => Sys2Proof.Machine.execRsw site ctx rs1 rs2 s
  | .ramoAdd site ctx rd rs1 rs2 => Sys2Proof.Machine.execRamoAdd site ctx rd rs1 rs2 s
  | .ramoSwap site ctx rd rs1 rs2 => Sys2Proof.Machine.execRamoSwap site ctx rd rs1 rs2 s
  | .ramoMin site ctx rd rs1 rs2 => Sys2Proof.Machine.execRamoMin site ctx rd rs1 rs2 s
  | .ramoMax site ctx rd rs1 rs2 => Sys2Proof.Machine.execRamoMax site ctx rd rs1 rs2 s
  | .ramoMinu site ctx rd rs1 rs2 => Sys2Proof.Machine.execRamoMinu site ctx rd rs1 rs2 s
  | .ramoMaxu site ctx rd rs1 rs2 => Sys2Proof.Machine.execRamoMaxu site ctx rd rs1 rs2 s
  | .rcas site ctx rd rs1 rs2 rs3 => Sys2Proof.Machine.execRcas site ctx rd rs1 rs2 rs3 s
  | .cvt site env => Sys2Proof.Machine.execCvt site env s
  | .vxAdd site env => Sys2Proof.Machine.execVxAdd site env s
  | .vxSub site env => Sys2Proof.Machine.execVxSub site env s
  | .vxMul site env => Sys2Proof.Machine.execVxMul site env s
  | .vxFma site env => Sys2Proof.Machine.execVxFma site env s
  | .vxMax site env => Sys2Proof.Machine.execVxMax site env s
  | .vxMin site env => Sys2Proof.Machine.execVxMin site env s
  | .vxSel site env => Sys2Proof.Machine.execVxSel site env s
  | .vxExp site env => Sys2Proof.Machine.execVxExp site env s
  | .vxExp2 site env => Sys2Proof.Machine.execVxExp2 site env s
  | .vxLog2 site env => Sys2Proof.Machine.execVxLog2 site env s
  | .vxRcp site env => Sys2Proof.Machine.execVxRcp site env s
  | .vxRsqrt site env => Sys2Proof.Machine.execVxRsqrt site env s
  | .vxSqrt site env => Sys2Proof.Machine.execVxSqrt site env s
  | .vxTanh site env => Sys2Proof.Machine.execVxTanh site env s
  | .vxSigmoid site env => Sys2Proof.Machine.execVxSigmoid site env s
  | .vxSilu site env => Sys2Proof.Machine.execVxSilu site env s
  | .vxGelu site env => Sys2Proof.Machine.execVxGelu site env s
  | .vxSin site env => Sys2Proof.Machine.execVxSin site env s
  | .vxCos site env => Sys2Proof.Machine.execVxCos site env s
  | .vxAcc site env => Sys2Proof.Machine.execVxAcc site env s
  | .sumr site env => Sys2Proof.Machine.execSumr site env s
  | .maxr site env => Sys2Proof.Machine.execMaxr site env s
  | .smaxStep site env => Sys2Proof.Machine.execSmaxStep site env s
  | .smaxFinal site env => Sys2Proof.Machine.execSmaxFinal site env s
  | .vxMerge site env => Sys2Proof.Machine.execVxMerge site env s
  | .rmsnorm site env => Sys2Proof.Machine.execRmsnorm site env s
  | .layernorm site env => Sys2Proof.Machine.execLayernorm site env s
  | .sample site env => Sys2Proof.Machine.execSample site env s
  | .vxeTaskComplete site => Sys2Proof.Machine.execVxeTaskComplete site s
  | .dmxTransfer site k => Sys2Proof.Machine.execDmxTransfer site k s
  | .attentionPage site k env => Sys2Proof.Machine.execAttentionPage site k env s
  | .dmxRequestIssue site k entry index env => Sys2Proof.Machine.execDmxRequestIssue site k entry index env s
  | .dmxTransferComplete site k env => Sys2Proof.Machine.execDmxTransferComplete site k env s
  | .dmxTagTimeout site k tag => Sys2Proof.Machine.execDmxTagTimeout site k tag s
  | .genReadTimeout site k entry => Sys2Proof.Machine.execGenReadTimeout site k entry s
  | .telBankSwap => Sys2Proof.Machine.execTelBankSwap s
  | .sobjBind site obj value => Sys2Proof.Machine.execSobjBind site obj value s
  | .sobjVal site obj value => Sys2Proof.Machine.execSobjVal site obj value s
  | .sobjPart site obj value => Sys2Proof.Machine.execSobjPart site obj value s
  | .synLookup site value => Sys2Proof.Machine.execSynLookup site value s
  | .ksBind site mask => Sys2Proof.Machine.execKsBind site mask s
  | .ksUnbind site => Sys2Proof.Machine.execKsUnbind site s
  | .rdReq site req rsite tag dltn word count => Sys2Proof.Machine.execRdReq site req rsite tag dltn word count s
  | .wrReq site req rsite tag dltn word data => Sys2Proof.Machine.execWrReq site req rsite tag dltn word data s
  | .amoReq site req rsite tag dltn word funct operand => Sys2Proof.Machine.execAmoReq site req rsite tag dltn word funct operand s
  | .casReq site req rsite tag dltn word expected newValue => Sys2Proof.Machine.execCasReq site req rsite tag dltn word expected newValue s
  | .remoteAccessPerform site bank ecc => Sys2Proof.Machine.execRemoteAccessPerform site bank ecc s
  | .atomicWrite site bank => Sys2Proof.Machine.execAtomicWrite site bank s
  | .rcRel site req rsite tag => Sys2Proof.Machine.execRcRel site req rsite tag s
  | .rcEntryTimeout site bank => Sys2Proof.Machine.execRcEntryTimeout site bank s
  | .bankStarvation site bank => Sys2Proof.Machine.execBankStarvation site bank s
  | .rdRsp site req rsite tag data env => Sys2Proof.Machine.execRdRsp site req rsite tag data env s
  | .wrAck site req rsite tag => Sys2Proof.Machine.execWrAck site req rsite tag s
  | .amoRsp site req rsite tag old => Sys2Proof.Machine.execAmoRsp site req rsite tag old s
  | .loss site req rsite tag cause words => Sys2Proof.Machine.execLoss site req rsite tag cause words s
  | .remoteRequestTimeout site tag => Sys2Proof.Machine.execRemoteRequestTimeout site tag s
  | .spdEccWriteback site bank => Sys2Proof.Machine.execSpdEccWriteback site bank s
  | .scrubRead site bank ecc => Sys2Proof.Machine.execScrubRead site bank ecc s
  | .init site => Sys2Proof.Machine.execInit site s
  | .spdInitComplete site => Sys2Proof.Machine.execSpdInitComplete site s
  | .transferHop site out upsets => Sys2Proof.Machine.execTransferHop site out upsets s
  | .txSlotSend site slot ecc => Sys2Proof.Machine.execTxSlotSend site slot ecc s
  | .rxDelivery site => Sys2Proof.Machine.execRxDelivery site s
  | .routerStall site out => Sys2Proof.Machine.execRouterStall site out s
  | .accordAdd site route => Sys2Proof.Machine.execAccordAdd site route s
  | .routedHop site index upset => Sys2Proof.Machine.execRoutedHop site index upset s
  | .regRd req addr tag late => Sys2Proof.Machine.execRegRd req addr tag late s
  | .regWr req addr value tag late => Sys2Proof.Machine.execRegWr req addr value tag late s
  | .regRsp req tag => Sys2Proof.Machine.execRegRsp req tag s
  | .mcast rect cls words bad => Sys2Proof.Machine.execMcast rect cls words bad s
  | .mapStage site epoch pairs crc => Sys2Proof.Machine.execMapStage site epoch pairs crc s
  | .mapVerdict site => Sys2Proof.Machine.execMapVerdict site s
  | .mapCommit site epoch t => Sys2Proof.Machine.execMapCommit site epoch t s
  | .mapSwitch site => Sys2Proof.Machine.execMapSwitch site s
  | .wireSteer site dir => Sys2Proof.Machine.execWireSteer site dir s
  | .tblWrite site => Sys2Proof.Machine.execTblWrite site s
  | .tblRead site => Sys2Proof.Machine.execTblRead site s
  | .mapLookup site value => Sys2Proof.Machine.execMapLookup site value s
  | .memReq site req rsite tag offset lch words => Sys2Proof.Machine.execMemReq site req rsite tag offset lch words s
  | .memoryDataPacket site index upsets env => Sys2Proof.Machine.execMemoryDataPacket site index upsets env s
  | .mccAdmit mc => Sys2Proof.Machine.execMccAdmit mc s
  | .mccBurst mc index err => Sys2Proof.Machine.execMccBurst mc index err s
  | .hotChannel mc => Sys2Proof.Machine.execHotChannel mc s
  | .patrolScrub mc err => Sys2Proof.Machine.execPatrolScrub mc err s
  | .channelMapUpdate site lch old new => Sys2Proof.Machine.execChannelMapUpdate site lch old new s
  | .trainingComplete pkg capOk pass14 pass12 dram ranks => Sys2Proof.Machine.execTrainingComplete pkg capOk pass14 pass12 dram ranks s
  | .retrain pkg mask => Sys2Proof.Machine.execRetrain pkg mask s
  | .retrainComplete mc ok => Sys2Proof.Machine.execRetrainComplete mc ok s
  | .retire mc => Sys2Proof.Machine.execRetire mc s
  | .retirementStart => Sys2Proof.Machine.execRetirementStart s
  | .copyComplete mc bad place => Sys2Proof.Machine.execCopyComplete mc bad place s
  | .forwardExpiry mc => Sys2Proof.Machine.execForwardExpiry mc s
  | .open src seq hash j ns mtag => Sys2Proof.Machine.execOpen src seq hash j ns mtag s
  | .openAck mtag status cslot => Sys2Proof.Machine.execOpenAck mtag status cslot s
  | .close src seq cslot mtag j ns => Sys2Proof.Machine.execClose src seq cslot mtag j ns s
  | .closeComplete cslot => Sys2Proof.Machine.execCloseComplete cslot s
  | .closeAck mtag => Sys2Proof.Machine.execCloseAck mtag s
  | .page src seq span slot layer hg fmt nh ptag len data => Sys2Proof.Machine.execPage src seq span slot layer hg fmt nh ptag len data s
  | .pageAck ptag status => Sys2Proof.Machine.execPageAck ptag status s
  | .query q => Sys2Proof.Machine.execQuery q s
  | .partial_ mtag status records => Sys2Proof.Machine.execPartial_ mtag status records s
  | .handoff h => Sys2Proof.Machine.execHandoff h s
  | .replyTimeout tag => Sys2Proof.Machine.execReplyTimeout tag s
  | .workIssue kind works phases duration => Sys2Proof.Machine.execWorkIssue kind works phases duration s
  | .stepEnd results => Sys2Proof.Machine.execStepEnd results s
  | .prefillChunk slot logits gslots => Sys2Proof.Machine.execPrefillChunk slot logits gslots s
  | .substitutionTrigger byLtn n => Sys2Proof.Machine.execSubstitutionTrigger byLtn n s
  | .substSwitch stage others => Sys2Proof.Machine.execSubstSwitch stage others s
  | .substReplayEnd stage => Sys2Proof.Machine.execSubstReplayEnd stage s
  | .goldenCheck => Sys2Proof.Machine.execGoldenCheck s
  | .variantSwitch facet => Sys2Proof.Machine.execVariantSwitch facet s
  | .urgentReplacement ltn cand => Sys2Proof.Machine.execUrgentReplacement ltn cand s
  | .screeningSwap ltn => Sys2Proof.Machine.execScreeningSwap ltn s
  | .portTraining port => Sys2Proof.Machine.execPortTraining port s
  | .trainingRetry port => Sys2Proof.Machine.execTrainingRetry port s
  | .portUp port good spareOk => Sys2Proof.Machine.execPortUp port good spareOk s
  | .discovery port rec => Sys2Proof.Machine.execDiscovery port rec s
  | .echo port request trip hold => Sys2Proof.Machine.execEcho port request trip hold s
  | .laneMove port lane el => Sys2Proof.Machine.execLaneMove port lane el s
  | .laneAck port lane => Sys2Proof.Machine.execLaneAck port lane s
  | .laneOn port lane received pass => Sys2Proof.Machine.execLaneOn port lane received pass s
  | .dataFrame port f ack cvc ccount crcOk ucw => Sys2Proof.Machine.execDataFrame port f ack cvc ccount crcOk ucw s
  | .idleFrame port ack cvc ccount crcOk => Sys2Proof.Machine.execIdleFrame port ack cvc ccount crcOk s
  | .nak port ack cvc ccount => Sys2Proof.Machine.execNak port ack cvc ccount s
  | .replayTimeout port => Sys2Proof.Machine.execReplayTimeout port s
  | .retrainTimeout port => Sys2Proof.Machine.execRetrainTimeout port s
  | .retireLane port lane => Sys2Proof.Machine.execRetireLane port lane s
  | .laserSwitch engine w ok reading => Sys2Proof.Machine.execLaserSwitch engine w ok reading s
  | .optAdv port which value => Sys2Proof.Machine.execOptAdv port which value s
  | .egressTransfer port half => Sys2Proof.Machine.execEgressTransfer port half s
  | .mbxTxData port value => Sys2Proof.Machine.execMbxTxData port value s
  | .send port => Sys2Proof.Machine.execSend port s
  | .flush port => Sys2Proof.Machine.execFlush port s
  | .mbxRxRead port => Sys2Proof.Machine.execMbxRxRead port s
  | .mbxPop port => Sys2Proof.Machine.execMbxPop port s
  | .go => Sys2Proof.Machine.execGo s
  | .stepCancel => Sys2Proof.Machine.execStepCancel s
  | .stepVoltageRaise => Sys2Proof.Machine.execStepVoltageRaise s
  | .stepSettleCheck late => Sys2Proof.Machine.execStepSettleCheck late s
  | .stepSwitch facet => Sys2Proof.Machine.execStepSwitch facet s
  | .stepVoltageLower => Sys2Proof.Machine.execStepVoltageLower s
  | .droopEvent site => Sys2Proof.Machine.execDroopEvent site s
  | .stretchRateCheck facet => Sys2Proof.Machine.execStretchRateCheck facet s
  | .tapMove facet k up => Sys2Proof.Machine.execTapMove facet k up s
  | .epochMarker facet => Sys2Proof.Machine.execEpochMarker facet s
  | .referenceLoss => Sys2Proof.Machine.execReferenceLoss s
  | .referenceReturn => Sys2Proof.Machine.execReferenceReturn s
  | .lockLoss facet => Sys2Proof.Machine.execLockLoss facet s
  | .relock facet => Sys2Proof.Machine.execRelock facet s
  | .ptpTimestamp tx info => Sys2Proof.Machine.execPtpTimestamp tx info s
  | .ptpTxqPop => Sys2Proof.Machine.execPtpTxqPop s
  | .ptpRxqPop => Sys2Proof.Machine.execPtpRxqPop s
  | .prgReqOn region power => Sys2Proof.Machine.execPrgReqOn region power s
  | .prgReqRetain region => Sys2Proof.Machine.execPrgReqRetain region s
  | .prgReqOff region => Sys2Proof.Machine.execPrgReqOff region s
  | .prgReqInvalid region => Sys2Proof.Machine.execPrgReqInvalid region s
  | .ponReevaluate region power => Sys2Proof.Machine.execPonReevaluate region power s
  | .ponTimeout region => Sys2Proof.Machine.execPonTimeout region s
  | .ponDone region rows => Sys2Proof.Machine.execPonDone region rows s
  | .gateSwitchOpen region => Sys2Proof.Machine.execGateSwitchOpen region s
  | .gateDone region => Sys2Proof.Machine.execGateDone region s
  | .trimChange region value => Sys2Proof.Machine.execTrimChange region value s
  | .phaseFault region phase temp => Sys2Proof.Machine.execPhaseFault region phase temp s
  | .overLimit region avg => Sys2Proof.Machine.execOverLimit region avg s
  | .regionTrip region cause phase current => Sys2Proof.Machine.execRegionTrip region cause phase current s
  | .ibcFailure facet ibc => Sys2Proof.Machine.execIbcFailure facet ibc s
  | .domainConverterFailure domain conv => Sys2Proof.Machine.execDomainConverterFailure domain conv s
  | .supplyExcursion mv => Sys2Proof.Machine.execSupplyExcursion mv s
  | .inputCutoff mv => Sys2Proof.Machine.execInputCutoff mv s
  | .epo => Sys2Proof.Machine.execEpo s
  | .controlUpdate p10 vin iin bus => Sys2Proof.Machine.execControlUpdate p10 vin iin bus s
  | .emerg p10 => Sys2Proof.Machine.execEmerg p10 s
  | .stepRaise phases duration => Sys2Proof.Machine.execStepRaise phases duration s
  | .floor regions => Sys2Proof.Machine.execFloor regions s
  | .capUnreachableClear => Sys2Proof.Machine.execCapUnreachableClear s
  | .localSkipDecay region => Sys2Proof.Machine.execLocalSkipDecay region s
  | .thermalThreshold source temp => Sys2Proof.Machine.execThermalThreshold source temp s
  | .thermalDownStep => Sys2Proof.Machine.execThermalDownStep s
  | .thermalTrip source temp => Sys2Proof.Machine.execThermalTrip source temp s
  | .waitShare w => Sys2Proof.Machine.execWaitShare w s
  | .paceWindow w phases duration => Sys2Proof.Machine.execPaceWindow w phases duration s
  | .meterIntervalEnd m => Sys2Proof.Machine.execMeterIntervalEnd m s
  | .attribution sigs => Sys2Proof.Machine.execAttribution sigs s
  | .attributionLate => Sys2Proof.Machine.execAttributionLate s
  | .requestShare splits => Sys2Proof.Machine.execRequestShare splits s
  | .receiptSeal => Sys2Proof.Machine.execReceiptSeal s
  | .flaconBuild ok => Sys2Proof.Machine.execFlaconBuild ok s
  | .reservationRetry ok => Sys2Proof.Machine.execReservationRetry ok s
  | .signingStall => Sys2Proof.Machine.execSigningStall s
  | .rollover => Sys2Proof.Machine.execRollover s
  | .rolloverDone => Sys2Proof.Machine.execRolloverDone s
  | .sealOpen ok => Sys2Proof.Machine.execSealOpen ok s
  | .sealClose => Sys2Proof.Machine.execSealClose s
  | .calData value => Sys2Proof.Machine.execCalData value s
  | .calCommit => Sys2Proof.Machine.execCalCommit s
  | .discard => Sys2Proof.Machine.execDiscard s
  | .presenceButton ms => Sys2Proof.Machine.execPresenceButton ms s
  | .presenceExpiry => Sys2Proof.Machine.execPresenceExpiry s
  | .presClose => Sys2Proof.Machine.execPresClose s
  | .errReport page bit => Sys2Proof.Machine.execErrReport page bit s
  | .collectorInterval k => Sys2Proof.Machine.execCollectorInterval k s
  | .fltPop => Sys2Proof.Machine.execFltPop s
  | .swSubmit => Sys2Proof.Machine.execSwSubmit s
  | .fltReplaceSet bits => Sys2Proof.Machine.execFltReplaceSet bits s
  | .poisonClassify query n => Sys2Proof.Machine.execPoisonClassify query n s
  | .weightRefetch n => Sys2Proof.Machine.execWeightRefetch n s
  | .stepReissue query n work => Sys2Proof.Machine.execStepReissue query n work s
  | .inPlaceRestart ltn ranges image => Sys2Proof.Machine.execInPlaceRestart ltn ranges image s
  | .screeningRun site pack res => Sys2Proof.Machine.execScreeningRun site pack res s
  | .arm facet => Sys2Proof.Machine.execArm facet s
  | .stop facet => Sys2Proof.Machine.execStop facet s
  | .clear facet => Sys2Proof.Machine.execClear facet s
  | .connectionOpen conn => Sys2Proof.Machine.execConnectionOpen conn s
  | .submit conn tag len payload => Sys2Proof.Machine.execSubmit conn tag len payload s
  | .bind conn tag len payload => Sys2Proof.Machine.execBind conn tag len payload s
  | .prompt conn tag len payload => Sys2Proof.Machine.execPrompt conn tag len payload s
  | .promptTimeout slot => Sys2Proof.Machine.execPromptTimeout slot s
  | .bindExpiry seq => Sys2Proof.Machine.execBindExpiry seq s
  | .tokens slot => Sys2Proof.Machine.execTokens slot s
  | .resume conn tag reqid idx => Sys2Proof.Machine.execResume conn tag reqid idx s
  | .tokenRetentionExpiry slot => Sys2Proof.Machine.execTokenRetentionExpiry slot s
  | .cancel conn tag reqid => Sys2Proof.Machine.execCancel conn tag reqid s
  | .ack conn tag fnum => Sys2Proof.Machine.execAck conn tag fnum s
  | .get conn tag first last => Sys2Proof.Machine.execGet conn tag first last s
  | .subscribe conn tag period flags => Sys2Proof.Machine.execSubscribe conn tag period flags s
  | .report conn => Sys2Proof.Machine.execReport conn s
  | .registerRead conn tag addr count late => Sys2Proof.Machine.execRegisterRead conn tag addr count late s
  | .registerWrite conn tag addr values late => Sys2Proof.Machine.execRegisterWrite conn tag addr values late s
  | .begin conn tag ty len hash => Sys2Proof.Machine.execBegin conn tag ty len hash s
  | .data conn tag ty off bytes => Sys2Proof.Machine.execData conn tag ty off bytes s
  | .osimg conn tag version ok res => Sys2Proof.Machine.execOsimg conn tag version ok res s
  | .seqimg conn tag => Sys2Proof.Machine.execSeqimg conn tag s
  | .pack conn tag packid version major ok => Sys2Proof.Machine.execPack conn tag packid version major ok s
  | .licence conn tag lic => Sys2Proof.Machine.execLicence conn tag lic s
  | .jobLoad conn tag cfg at_ len place j7 part => Sys2Proof.Machine.execJobLoad conn tag cfg at_ len place j7 part s
  | .jobUnload conn tag => Sys2Proof.Machine.execJobUnload conn tag s
  | .inventory conn tag => Sys2Proof.Machine.execInventory conn tag s
  | .cert conn tag => Sys2Proof.Machine.execCert conn tag s
  | .kick => Sys2Proof.Machine.execKick s
  | .watchdogExpiry res => Sys2Proof.Machine.execWatchdogExpiry res s
  | .coreHalt halt resume => Sys2Proof.Machine.execCoreHalt halt resume s
  | .bcStart sram bad => Sys2Proof.Machine.execBcStart sram bad s
  | .broadcastChunk site intact => Sys2Proof.Machine.execBroadcastChunk site intact s
  | .scan => Sys2Proof.Machine.execScan s
  | .repair bad => Sys2Proof.Machine.execRepair bad s
  | .bcCommit => Sys2Proof.Machine.execBcCommit s
  | .imageCommit site => Sys2Proof.Machine.execImageCommit site s
  | .abort => Sys2Proof.Machine.execAbort s
  | .mgmtLinkDown => Sys2Proof.Machine.execMgmtLinkDown s
  | .coldStart res => Sys2Proof.Machine.execColdStart res s
  | .warm res => Sys2Proof.Machine.execWarm res s
  | .full res => Sys2Proof.Machine.execFull res s
  | .compute res => Sys2Proof.Machine.execCompute res s
  | .osReadyTimeout res => Sys2Proof.Machine.execOsReadyTimeout res s
  | .fuseGo => Sys2Proof.Machine.execFuseGo s
  | .fuseProgramDone ok => Sys2Proof.Machine.execFuseProgramDone ok s
  | .hello epoch role step => Sys2Proof.Machine.execHello epoch role step s
  | .helloSend => Sys2Proof.Machine.execHelloSend s
  | .pairAdmit slot payload => Sys2Proof.Machine.execPairAdmit slot payload s
  | .pairStep number seqs => Sys2Proof.Machine.execPairStep number seqs s
  | .delta step slot layer kind data => Sys2Proof.Machine.execDelta step slot layer kind data s
  | .pairCommit number => Sys2Proof.Machine.execPairCommit number s
  | .release slot code => Sys2Proof.Machine.execRelease slot code s
  | .pairAck number => Sys2Proof.Machine.execPairAck number s
  | .stepCommitted => Sys2Proof.Machine.execStepCommitted s
  | .handover => Sys2Proof.Machine.execHandover s
  | .resync => Sys2Proof.Machine.execResync s
  | .takeover => Sys2Proof.Machine.execTakeover s
  | .i3cPrivateRead da n => Sys2Proof.Machine.execI3cPrivateRead da n s
  | .i3cPrivateWrite da bytes => Sys2Proof.Machine.execI3cPrivateWrite da bytes s
  | .entdaa da => Sys2Proof.Machine.execEntdaa da s
  | .setdasa sa da => Sys2Proof.Machine.execSetdasa sa da s
  | .rstdaa => Sys2Proof.Machine.execRstdaa s
  | .getpid da => Sys2Proof.Machine.execGetpid da s
  | .getbcr da => Sys2Proof.Machine.execGetbcr da s
  | .getdcr da => Sys2Proof.Machine.execGetdcr da s
  | .getstatus da => Sys2Proof.Machine.execGetstatus da s
  | .connectionClose conn => Sys2Proof.Machine.execConnectionClose conn s
  | .undefinedClassOrType conn magic version cls ty len tag => Sys2Proof.Machine.execUndefinedClassOrType conn magic version cls ty len tag s
  | .mgmtLinkUp => Sys2Proof.Machine.execMgmtLinkUp s
  | .nextTreeReady => Sys2Proof.Machine.execNextTreeReady s
  | .pairSenseAsserted => Sys2Proof.Machine.execPairSenseAsserted s

end Sys2Proof.Machine
end

