-- ==== Sys2Proof/Safety.lean ====
section
/-! DEFINITION. What claims are stated in: the canonical form of the block's memories, which parts of the state a command
leaves alone, and the words of a register a command may change. -/

namespace Sys2Proof.Machine

open Sys2Proof

/-- Every memory of the block in canonical form: scratchpads, instruction memories, bulk memory, the staging of a broadcast. -/
def State.memOk (s : State) : Bool :=
  Memory.wf s.spad && Memory.wf s.imem && Memory.wf s.dram && Memory.wf s.staging

/-- The two states hold the same memories. -/
def SameMem (s t : State) : Prop :=
  t.spad = s.spad ∧ t.spadPoison = s.spadPoison ∧ t.imem = s.imem ∧ t.dram = s.dram ∧ t.staging = s.staging

/-- Every register word reads alike in the two states but those that `p` names. -/
def SameRegsBut (s t : State) (p : Nat → Nat → Prop) : Prop :=
  ∀ pg off, off < 0x1000 → ¬ p pg off → t.reg pg off = s.reg pg off

/-- A state with what an error report touches left blank: registers, page headers, block control, the error log and its
collectors, the loupes, messages sent. -/
def State.butLog (s : State) : State :=
  { s with regs := [], hdrs := [], blks := [], log := [], logSeq := 0, colls := [], loupes := [], outbox := [] }

/-- The two states differ at most in what an error report touches. -/
def LogFrame (s t : State) : Prop := t.butLog = s.butLog

/-- A state with device time and the facet clocks left blank. -/
def State.butTime (s : State) : State := { s with time := 0, facets := [] }

/-- A requester whose access is performed at once: it waits for no other of its accesses, and, of a service core, no access
fault is to be injected. -/
def State.accessFree (s : State) (req : Nat) : Bool :=
  !s.svcBusy req && !s.svcWait.any (fun a => a.req == req) && (decide (8 ≤ req) || !s.injPend (pgGLB 0) 10)

/-- A page that an access comes to: a global one, or one of a tile whose logic is powered and whose router is reached. -/
def State.pageReached (s : State) (pg : Nat) : Bool :=
  !isTileTy (pgTy pg) || (s.siteOn (siteOfPg pg) && s.siteReached (siteOfPg pg))

/-- No message of the pair stream would be discarded: none is sent, or the pair port in use has JOBOK and no discard to inject. -/
def State.pairClear (s : State) : Bool :=
  !s.runs pgPAIR || s.pairPort.all fun p => s.jobOk p && !s.injPend (pgOPT p) 12

/-- It is a context's turn to issue an instruction, in the tile's next cycle that is not skipped (R134, R462). -/
def State.canIssue (s : State) (site ctx : Nat) : Prop := (s.unskip site).nextTurn site = some ctx

/-- The state in which that instruction executes: the turn has passed on. -/
def State.atIssue (s : State) (site ctx : Nat) : State := (s.unskip site).passTurn site ctx

/-- A thread after an instruction of `len` bytes that gave `v` to its register `rd`. -/
def Thread.after (t : Thread) (rd v len : Nat) : Thread :=
  { t.set rd v with pc := (t.pc + len) % 2 ^ 32, instret := t.instret + 1, block := .none }

/-- What a remote instruction does that is not refused (R139, R200, R260): from `u` to `t` its request is kept with both operands and
sent to the site of its LTN, if the tile's router has a map, and its thread waits for the response. -/
def RequestSent (x c : Nat) (kind : RKind) (rd a v b : Nat) (u t : State) : Prop :=
  t.packets = u.packets ++ (match u.siteOfLtn x (bitsOf a 21 11) with
    | some d => [⟨kind.ty, x, 4, d, bitsOf a 21 11, (u.reqOf x).1, 128 + c, 0, (u.reqOf x).2, bitsOf a 0 21, [⟨v, false⟩], 4, u.cyc x⟩]
    | none => []) ∧
  (t.remOf x (128 + c)).map (fun r => (r.kind, r.word, r.data, r.b)) = some (kind, bitsOf a 0 21, [⟨v, false⟩], b) ∧
  t.thread x c = { u.thread x c with block := .remote (128 + c) rd } ∧
  t = { u with tiles := t.tiles, packets := t.packets }

/-- The two states differ at most in device time and the facet clocks. -/
def TimeFrame (s t : State) : Prop := t.butTime = s.butTime

end Sys2Proof.Machine
end

