-- ==== Sys2Proof/Certificates/Slice0/Obligations.lean ====
section
/-! DEFINITION. What is claimed of the block: the statements for the provers. -/

open Sys2Proof Sys2Proof.Machine

/-- A step takes the command at the front of the queue and runs it on the rest.

On an empty queue half a nanosecond of device time passes and nothing else changes but the facet clocks (the model's
choice, log entry 2). -/
def Obligations.StepRunsFrontCommand : Prop :=
   (∀ (c : Instr) (rest : List Instr) (s : State), step { s with pending := c :: rest } = exec c { s with pending := rest }) ∧
   (∀ s : State, s.pending = [] → ∃ t, step s = .next t ∧ t.time = s.time + 8 ∧ TimeFrame s t)

/-- ENABLE, HALT_REQ and SAFE_POINT_HALT of the engine blocks MXA, VXE, DMX, SYN, RTR and TEL (Table 02.6, R620): what each
does to the block's ENABLE, HALT_REQ and RUN, and that no other block's control changes. A router's order lists besides wait
anew from then on (R250).

RESET of a VXE or a DMX that does not run (R41): every register of the block has its reset value, PG_CTRL its own, and
the registers of every other block are unchanged; RETIRED stays. -/
def Obligations.BlockControlWrites : Prop :=
   (∀ (pg : Nat) (s : State), s.reaches pg = true →
      pgTy pg = tyMXA ∨ pgTy pg = tyVXE ∨ pgTy pg = tyDMX ∨ pgTy pg = tySYN ∨ pgTy pg = tyRTR ∨ pgTy pg = tyTEL →
      ((s.blk (blkOf pg)).haltReq = false →
        ∃ t, exec (.enable pg true) s = .next t ∧ t.enabled pg = true ∧ t.runs pg = true ∧
          (∀ b, b ≠ blkOf pg → t.blk b = s.blk b) ∧ t = { s with blks := t.blks, order := t.order } ∧ (pgTy pg ≠ tyRTR → t.order = s.order)) ∧
      (s.enabled pg = true → s.runs pg = false →
        ∃ t, exec (.enable pg false) s = .next t ∧ t.enabled pg = false ∧ t.runs pg = false ∧
          (∀ b, b ≠ blkOf pg → t.blk b = s.blk b) ∧ t = { s with blks := t.blks }) ∧
      (s.runs pg = false →
        ∃ t, exec (.haltReq pg true) s = .next t ∧ (t.blk (blkOf pg)).haltReq = true ∧ t.runs pg = false ∧
          (∀ b, b ≠ blkOf pg → t.blk b = s.blk b) ∧ t = { s with blks := t.blks }) ∧
      (s.enabled pg = true → (s.blk (blkOf pg)).disabling = false → (s.blk (blkOf pg)).resetPend = false →
        ∃ t, exec (.haltReq pg false) s = .next t ∧ (t.blk (blkOf pg)).haltReq = false ∧ t.runs pg = true ∧
          (∀ b, b ≠ blkOf pg → t.blk b = s.blk b) ∧ t = { s with blks := t.blks, order := t.order } ∧ (pgTy pg ≠ tyRTR → t.order = s.order)) ∧
      (pgTy pg = tyVXE ∨ pgTy pg = tyDMX → s.runs pg = true → (s.blk (blkOf pg)).haltReq = true →
        (s.blk (blkOf pg)).disabling = false → (s.blk (blkOf pg)).resetPend = false → (s.blk (blkOf pg)).commitAt = none →
        s.stopped pg = true →
        ∃ t, exec (.safePointHalt pg) s = .next t ∧ t.runs pg = false ∧ t.enabled pg = s.enabled pg ∧
          (∀ b, b ≠ blkOf pg → t.blk b = s.blk b) ∧ t = { s with blks := t.blks })) ∧
   (∀ (pg : Nat) (s : State), s.reaches pg = true → pgTy pg = tyVXE ∨ pgTy pg = tyDMX → s.runs pg = false →
      ∃ t, exec (.reset pg) s = .next t ∧
        (∀ p off, off < 0x1000 → blkOf p = blkOf pg → t.reg p off = (regReset (regKey p off)).toNat) ∧
        (∀ p off, off < 0x1000 → blkOf p ≠ blkOf pg → t.reg p off = s.reg p off) ∧
        t.enabled pg = false ∧ t.runs pg = false ∧ (t.blk (blkOf pg)).resetPend = false ∧
        (t.blk (blkOf pg)).retired = (s.blk (blkOf pg)).retired ∧
        (∀ b, b ≠ blkOf pg → t.blk b = s.blk b) ∧ SameMem s t ∧ t.tiles = s.tiles ∧ t.time = s.time)

/-- COMMIT and COMMIT_APPLY (R51) for a block other than a power region with one staged word: the staged bits of the
register take their staged values, the others stay, COMMIT_PEND is clear and nothing of the block stays staged; a value
outside the register's range, and a TAI_ANCHOR_NS of 10^9 or more, changes no register and sets WLOCK; a COMMIT while the
block runs only waits.

COMMIT_STALL (R52, R620) sets CSTALL, bit 3 of the PG_ERR of the page that the COMMIT was written to, 10 ms after it, and it stays
pending; PG_ERR_INJ (R44)
makes the defined bits written to it pending on a page whose injections wait for an operation. -/
def Obligations.StagedCommits : Prop :=
   (∀ (pg key : Nat) (e : Staged) (s : State), s.reaches pg = true → bitOf (s.hdr pg).inj 3 = false →
      (s.staged.filter fun x => blkOf (x.1 / 2 ^ 12) == blkOf pg) = [(key, e)] → pgTy (key / 2 ^ 12) ≠ tyPRG →
      let v := (s.reg (key / 2 ^ 12) (key % 2 ^ 12) &&& (0xFFFF_FFFF - e.mask)) ||| (e.value &&& e.mask)
      let ok := commitOk (key / 2 ^ 12) (key % 2 ^ 12) v = true ∧ (key = pgTIM * 2 ^ 12 + 0x090 → e.value < 1000000000)
      let done := fun t : State =>
        (ok → t.reg (key / 2 ^ 12) (key % 2 ^ 12) = v % 2 ^ 32 ∧ t.hdrs = s.hdrs) ∧
          (¬ ok → t.regs = s.regs ∧ (t.hdr (key / 2 ^ 12)).wlock = true) ∧
          (∀ p off, off < 0x1000 → regKey p off ≠ key → t.reg p off = s.reg p off) ∧
          (t.blk (blkOf pg)).commitAt = none ∧ (t.staged.filter fun x => blkOf (x.1 / 2 ^ 12) == blkOf pg) = [] ∧
          t = { s with regs := t.regs, blks := t.blks, staged := t.staged, hdrs := t.hdrs }
      ((s.blk (blkOf pg)).commitAt = none → s.runs pg = false → ∃ t, exec (.commit pg) s = .next t ∧ done t) ∧
      ((s.blk (blkOf pg)).commitAt = none → s.runs pg = true →
        ∃ t, exec (.commit pg) s = .next t ∧ (t.blk (blkOf pg)).commitAt = some s.time ∧ (t.blk (blkOf pg)).commitPg = pg ∧ t = { s with blks := t.blks }) ∧
      ((s.blk (blkOf pg)).commitAt ≠ none → s.runs pg = true → pgTy pg = tyVXE ∨ pgTy pg = tyDMX → s.stopped pg = true →
        ∃ t, exec (.commitApply pg) s = .next t ∧ done t)) ∧
   ((∀ (pg a : Nat) (s : State), let at_ := (s.blk (blkOf pg)).commitPg
      s.reaches pg = true → (s.blk (blkOf pg)).commitAt = some a → bitOf (s.hdr at_).mask 3 = true →
      ∃ t, exec (.commitStall pg) s = .next t ∧ bitOf (t.hdr at_).err 3 = true ∧ (∀ p, p ≠ at_ → t.hdr p = s.hdr p) ∧
        (t.blk (blkOf pg)).commitAt = some a ∧ t.time = max s.time (a + 10 * msec) ∧ t.regs = s.regs ∧ SameMem s t) ∧
    (∀ (pg : Nat) (b : Fin 32) (s : State), s.reaches pg = true →
      pgTy pg = tyMXA ∨ pgTy pg = tyVXE ∨ pgTy pg = tyDMX ∨ pgTy pg = tySPD ∨ pgTy pg = tyRTR ∨ pgTy pg = tyMCC →
      errDefined pg b.val = true →
      ∃ t, exec (.pgErrInj pg (BitVec.ofNat 32 (2 ^ b.val))) s = .next t ∧
        bitOf (t.hdr pg).inj b.val = true ∧ (t.hdr pg).err = (s.hdr pg).err ∧
        (∀ p, p ≠ pg → t.hdr p = s.hdr p) ∧ t = { s with hdrs := t.hdrs }))

/-- R38. A 64-bit quantity occupies two registers, the low word at the lower offset. For every such quantity of every page, a read of the
low word by a requester returns it and latches the high word for that requester, and the next read of the high word by the same requester
returns the latched value, which is then gone; a read of the high word with no latch pending returns its current value. -/
def Obligations.LatchedReads : Prop :=
  ∀ (req pg off : Nat) (s : State),
    let lo := pageAddr pg + off
    let hi := pageAddr pg + (off + 4)
    pageAt lo = some pg → pageAt hi = some pg → lo % 0x1000 = off → lo % 4 = 0 → (lowWords (pgTy pg)).contains (pgPage pg, off) = true →
    s.accessFree req = true → s.pageReached pg = true → (s.hdr pg).inj = 0 →
    (tblFind s.latches (latchKey req lo) = none → ∃ t, exec (.latchedRead req lo 4) s = .next t ∧
      tblFind t.accesses req = some (accOK, s.regView pg off) ∧ tblFind t.latches (latchKey req hi) = some (s.regView pg (off + 4)) ∧
      t = { s with accesses := t.accesses, latches := t.latches }) ∧
    (∀ v, tblFind s.latches (latchKey req hi) = some v → ∃ t, exec (.latchedRead req hi 4) s = .next t ∧
      tblFind t.accesses req = some (accOK, v) ∧ tblFind t.latches (latchKey req hi) = none ∧
      t = { s with accesses := t.accesses, latches := t.latches }) ∧
    (tblFind s.latches (latchKey req hi) = none → ∃ t, exec (.latchedRead req hi 4) s = .next t ∧
      tblFind t.accesses req = some (accOK, s.regView pg (off + 4)))

/-- R48. A K field counts as written only if the value written differs from its current value: a write of its current value
to a K field, here DMX_OUTSTANDING, succeeds while the block runs and sets no WLOCK, one of another value is refused with
WLOCK, and one while the block does not run takes effect.

A store to an address that no page, scratchpad window or bulk view covers, or of a width of 2 to a page, has no effect but its
status: UNMAPPED or ACCESS (R34, R35, Table 02.2); a write of an L field sets it (Table 02.7). An aligned 64-bit read of two
words of the page is two 32-bit reads (R34). The requesters 8 and up are not service cores.

REG_RD, REG_WR and REG_RSP (R33, R35): the service complex performs the access, the answer carries its status and value,
and REG_RSP completes the access of the requester, for a service core with its access fault unless it is OK (Table 20.9);
REG_ACCESS_TIMEOUT ends an access with TIMEOUT after 100 µs. -/
def Obligations.RegisterAccesses : Prop :=
   (∀ (req addr : Nat) (n : Fin 2592) (v : BitVec 5) (s : State), let pg := pgId tyDMX n.val 0
      pageAt addr = some pg → addr % 0x1000 = 0x040 →
      s.accessFree req = true → s.pageReached pg = true → (s.blk (blkOf pg)).retired = false → (s.hdr pg).inj = 0 →
      ∃ t, exec (.registerAccessWrite req addr 4 .store (v.zeroExtend 64)) s = .next t ∧
        tblFind t.accesses req = some (0, 0) ∧
        (v.toNat = s.fld pg 0x040 0 5 → t.reg pg 0x040 = s.reg pg 0x040 ∧ t.hdrs = s.hdrs) ∧
        (v.toNat ≠ s.fld pg 0x040 0 5 → s.runs pg = true → t.reg pg 0x040 = s.reg pg 0x040 ∧ (t.hdr pg).wlock = true) ∧
        (s.runs pg = false → (s.blk (blkOf pg)).commitAt = none → t.fld pg 0x040 0 5 = v.toNat ∧ t.hdrs = s.hdrs) ∧
        SameRegsBut s t (fun p off => p = pg ∧ off = 0x040) ∧ SameMem s t) ∧
   ((∀ (req addr width : Nat) (op : CoreOp) (v : BitVec 64) (s : State), 8 ≤ req → s.accessFree req = true → addr < 0x1_0000_0000 →
      pageAt addr = none → width ≠ 8 →
      exec (.registerAccessWrite req addr width op v) s = .next { s with accesses := tblPut s.accesses req (1, 0) }) ∧
    (∀ (req : Nat) (v : BitVec 64) (s : State), 8 ≤ req → s.accessFree req = true → bitOf (s.hdr (pgFLT 0)).mask 0 = true →
      ∃ t, exec (.registerAccessWrite req (pageAddr (pgFLT 0) + 0x040) 2 .store v) s = .next t ∧
        tblFind t.accesses req = some (2, 0) ∧ bitOf (t.hdr (pgFLT 0)).err 0 = true ∧ t.regs = s.regs) ∧
    (∀ (req : Nat) (s : State), s.accessFree req = true → (s.hdr (pgFLT 0)).inj = 0 → s.latches = [] →
      ∃ t, exec (.latchedRead req (pageAddr (pgFLT 0) + 0x040) 8) s = .next t ∧
        tblFind t.accesses req = some (0, s.regView (pgFLT 0) 0x040 + s.regView (pgFLT 0) 0x044 * 2 ^ 32) ∧
        t = { s with accesses := t.accesses }) ∧
    (∀ (req : Nat) (v : BitVec 64) (s : State), s.accessFree req = true → (s.blk (blkOf (pgFLT 0))).retired = false →
      (s.hdr (pgFLT 0)).inj = 0 →
      ∃ t, exec (.registerAccessWrite req (pageAddr (pgFLT 0) + 0x040) 4 .store v) s = .next t ∧
        tblFind t.accesses req = some (0, 0) ∧ t.fld (pgFLT 0) 0x040 0 8 = v.toNat % 2 ^ 8 ∧
        SameRegsBut s t (fun p off => p = pgFLT 0 ∧ off = 0x040) ∧
        t = { s with accesses := t.accesses, regs := t.regs })) ∧
   ((∀ (req tag : Nat) (s : State), s.accessFree req = true → (s.blk (blkOf (pgFLT 0))).retired = false →
      (s.hdr (pgFLT 0)).inj = 0 → tblFind s.latches (latchKey req (pageAddr (pgFLT 0) + 0x040)) = none →
      (∃ t, exec (.regRd req (pageAddr (pgFLT 0) + 0x040) tag false) s = .next t ∧
        t.rsps = s.rsps ++ [⟨req, tag, pageAddr (pgFLT 0) + 0x040, false, 0, s.reg (pgFLT 0) 0x040⟩] ∧
        t.regs = s.regs ∧ SameMem s t) ∧
      ∀ v : Word, ∃ t, exec (.regWr req (pageAddr (pgFLT 0) + 0x040) v tag false) s = .next t ∧
        t.rsps = s.rsps ++ [⟨req, tag, pageAddr (pgFLT 0) + 0x040, true, 0, 0⟩] ∧
        t.fld (pgFLT 0) 0x040 0 8 = v.toNat % 2 ^ 8 ∧ SameRegsBut s t (fun p off => p = pgFLT 0 ∧ off = 0x040) ∧ SameMem s t) ∧
    (∀ (r : RegRsp) (rest : List RegRsp) (s : State), s.rsps = r :: rest → 8 ≤ r.req →
      exec (.regRsp r.req r.tag) s =
        .next { s with rsps := rest, accesses := tblPut s.accesses r.req (r.status, r.value) }) ∧
    (∀ (r : RegRsp) (rest : List RegRsp) (s : State), s.rsps = r :: rest → r.req < 8 → r.status ≠ 0 → r.addr < 2 ^ 64 →
      bitOf (s.hdr (pgGLB 0)).mask 10 = true →
      ∃ t, exec (.regRsp r.req r.tag) s = .next t ∧ tblFind t.accesses r.req = some (r.status, r.value) ∧
        t.reg64 (pgGLB 2) 0x040 = r.addr ∧ bitOf (t.hdr (pgGLB 0)).err 10 = true ∧ t.rsps = rest ∧ SameMem s t) ∧
    (∀ (req addr : Nat) (v : Word) (s : State), 8 ≤ req → s.accessFree req = true → addr < 0x10_0000_0000 →
      ∃ t, exec (.regAccessTimeout req addr false v) s = .next t ∧ tblFind t.accesses req = some (4, 0) ∧
        t.time = s.time + 100 * usec ∧ t.regs = s.regs ∧ SameMem s t))

/-- Current shaping (R116 to R119): a row that becomes ready raises the level by one and starts a ramp when the array is not
at full level, in a cycle that is not skipped; SHAPING_LEVEL_STEP takes a ramp to its next level 128 cycles after the last, and a gap
down one level; RAMP_COMPLETE ends a ramp at level 5. Nothing changes but the array, counters and device time.

FRONT_ENTER (R93, R109, R110) moves the one front under way, whose groups are all loaded, by one array row, and the rows of its pass
are late by what it waited; MXA_RESET_EFFECT
(R621) leaves an array without rows empty, its registers at their reset values and no reset pending.

WEIGHT_GROUP_LOAD and ROW_ISSUE (R92, R101, R107, R108) with no error on the words read: the first group of a pass's
operands is usable the cycle after its 32 that are not skipped, and an admitted row joins the array with the token, key and seed that its
metadata give (R79 to R82). -/
def Obligations.MatrixArrayLoads : Prop :=
   (∀ (x : Site) (s : State), s.siteOn x.val = true → s.mxaRuns x.val = true → s.flag (pgMXA x.val 0) 0x040 1 = true →
      let u := s.unskip x.val
      let m := s.mxa x.val
      (m.ready = false → m.cur.isSome = true → m.suspect = false → m.level < 5 → m.ramp = none →
        ∃ t, exec (.rowReady x) s = .next t ∧ (t.mxa x.val).ready = true ∧ (t.mxa x.val).level = m.level + 1 ∧
          (t.mxa x.val).ramp = (if m.level = 4 then none else some (u.cyc x.val)) ∧
          t = { u with tiles := t.tiles, regs := t.regs, telActive := t.telActive }) ∧
      (∀ c, m.ramp = some c → m.level < 4 →
        ∃ t, exec (.shapingLevelStep x) s = .next t ∧ (t.mxa x.val).level = m.level + 1 ∧ s.time ≤ t.time ∧
          (t.mxa x.val).ramp = some (t.cyc x.val) ∧ SameMem s t ∧ t.sync = s.sync) ∧
      (∀ g, m.ramp = none → m.gapSince = some g → 0 < m.level → m.ready = false →
        ∃ t, exec (.shapingLevelStep x) s = .next t ∧ (t.mxa x.val).level = m.level - 1 ∧ s.time ≤ t.time ∧
          (t.mxa x.val).ramp = none ∧ SameMem s t ∧ t.sync = s.sync) ∧
      (∀ c, m.ramp = some c → m.level = 4 → m.rampTask = none →
        ∃ t, exec (.rampComplete x) s = .next t ∧ (t.mxa x.val).level = 5 ∧ (t.mxa x.val).ramp = none ∧ s.time ≤ t.time ∧
          SameMem s t ∧ t.sync = s.sync)) ∧
   ((∀ (x : Site) (f : MFront) (o : MOps) (s : State), (s.mxa x.val).fronts = [f] → (s.mxa x.val).opset (f.entry, f.pass) = some o →
      o.ends.length = 4 → 0 < f.row → f.row < 127 →
      ∃ t, exec (.frontEnter x) s = .next t ∧
        (∃ d, (t.mxa x.val).fronts = [{ f with row := f.row + 1, due := d }]) ∧
        (∃ w, (t.mxa x.val).rows = (s.mxa x.val).rows.map fun r =>
          if r.opsEntry == f.entry && r.opsPass == f.pass then { r with delay := r.delay + w } else r) ∧ (t.mxa x.val).active = (s.mxa x.val).active ∧ SameMem s t) ∧
    (∀ (x : Site) (s : State), (s.blk (blkId tyMXA x.val)).resetPend = true → (s.mxa x.val).rows = [] →
      ∃ t, exec (.mxaResetEffect x) s = .next t ∧ t.mxa x.val = Mxa.init ∧
        (∀ p off, off < 0x1000 → blkOf p = blkId tyMXA x.val → t.reg p off = (regReset (regKey p off)).toNat) ∧
        (t.blk (blkId tyMXA x.val)).resetPend = false ∧ (∀ b, b ≠ blkId tyMXA x.val → t.blk b = s.blk b) ∧ SameMem s t)) ∧
   ((∀ (x : Site) (i : MInstr) (j : Nat) (s : State), s.siteOn x.val = true → s.mxaRuns x.val = true →
      (s.mxa x.val).suspect = false → (s.mxa x.val).fronts = [] → (s.mxa x.val).ops = [] →
      (s.mxa x.val).loadTarget = some (i, j) → i.task.warrEn = false → (s.hdr (pgSPD x.val 0)).inj = 0 →
      ∃ t o, exec (.weightGroupLoad x []) s = .next t ∧ (t.mxa x.val).ops = [o] ∧ o.entry = i.task.entry ∧ o.pass = j ∧
        o.ends = [s.after x.val (max (s.cyc x.val) 1) 31] ∧ o.cols.length = i.task.cols ∧
        (t.mxa x.val).fronts = [⟨i.task.entry, j, 0, 0⟩] ∧ (t.mxa x.val).rows = (s.mxa x.val).rows ∧ SameMem s t) ∧
    (∀ (x : Site) (i : MInstr) (k : List Nat) (s : State), let m := s.mxa x.val
      let a := i.task.gaddr 22 i.nextPass + 8 * i.nextRow
      let w0 := s.spadWord x.val (a / 4)
      let w1 := s.spadWord x.val (a / 4 + 1)
      m.cur = some i → m.active = some (i.task.entry, i.nextPass) → m.fronts = [] → s.mxaAdmits x.val i.nextRow = true →
      (s.hdr (pgSPD x.val 0)).inj = 0 → bitOf (s.hdr (pgMXA x.val 0)).inj 10 = false → w0.p = false → w1.p = false → bitsOf w1.v 20 12 = 0 → i.task.mode < 5 →
      s.resolveKey x.val i.task.ctx (bitsOf w1.v 8 12) = some k →
      ∃ t r, exec (.rowIssue x [] none) s = .next t ∧ (t.mxa x.val).rows = m.rows ++ [r] ∧
        r.entry = i.task.entry ∧ r.pass = i.nextPass ∧ r.row = i.nextRow ∧ r.issue = t.cyc x.val ∧
        r.token = w0.v + w1.v % 2 ^ 8 * 2 ^ 32 ∧ r.keyIdx = bitsOf w1.v 8 12 ∧
        (k ≠ [] → r.seed = seedOf k ⟨i.task.stream, r.token, (i.task.kbase + i.task.pos i.nextPass) % 2 ^ 24,
          i.nextPass % 2 ^ 16, 0x01⟩) ∧
        SameMem s t))

/-- OUTPUT_DRAIN, PASS_VERDICT and PASS_COMPLETE (R95, R103, R113, R123, R124): an output of a pass that is not the last of its
chain group is the partial sum that the next pass starts from; in ELASTIC mode a drain that cannot accept an output holds it,
takes nothing that it holds until it can, and loses nothing; a pass without a mismatch is verified; a first mismatch begins a
replay of its group, whose rows and later ones leave; a verified and drained pass of a task without signals completes. -/
def Obligations.MatrixArrayOutputs : Prop :=
  (∀ (x : Site) (acc : Bool) (r : MRow) (n : Nat) (i : MInstr) (o : MOps) (s : State), let m := s.mxa x.val
    m.nextOut = some (r, n) → m.instr r.entry = some i → m.opset (r.opsEntry, r.opsPass) = some o →
    i.task.lastOf r.pass = false → i.task.cols = 128 → i.task.pos r.pass = 0 →
    let c := r.outs.length
    let init := nthD ⟨0, false⟩ r.init c
    ∃ t, exec (.outputDrain x acc none []) s = .next t ∧
      tblGet (fun _ => (⟨0, false⟩ : PWord)) (t.mxa x.val).chain (r.row * 256 + c) =
        ⟨(outputOf i.task.mode r o c init.v).1, r.poison || nthD false o.poison c || init.p⟩ ∧
      s.time ≤ t.time ∧ SameMem s t ∧ t.sync = s.sync) ∧
  (∀ (x : Site) (r : MRow) (n : Nat) (i : MInstr) (o : MOps) (s : State), let m := s.mxa x.val
    m.nextOut = some (r, n) → m.instr r.entry = some i → m.opset (r.opsEntry, r.opsPass) = some o →
    i.task.lastOf r.pass = true → s.bubble x.val = false →
    ∃ t, exec (.outputDrain x false none []) s = .next t ∧
      (∃ q ∈ (t.mxa x.val).rows, q.entry = r.entry ∧ q.pass = r.pass ∧ q.row = r.row ∧ q.held = r.held ++ [r.outs.length] ∧
        q.outs.length = r.outs.length + 1) ∧ SameMem s t ∧ t.sync = s.sync) ∧
  (∀ (x : Site) (c : Fin 128) (r : MRow) (i : MInstr) (s : State), let m := s.mxa x.val
    (m.rows.find? fun r => r.held.contains c.val) = some r → m.instr r.entry = some i →
    ∃ t, exec (.outputDrain x false (some c) []) s = .next t ∧ t = { s with time := t.time, facets := t.facets, regs := t.regs }) ∧
  (∀ (x : Site) (p : MPass) (i : MInstr) (s : State), let m := s.mxa x.val
    m.passes.find? (fun p => p.lastIssue.isSome && p.verdict.isNone) = some p → m.instr p.entry = some i →
    (s.hdr (pgMXA x.val 0)).inj = 0 →
    (p.mis = none → m.replay = none →
      ∃ t, exec (.passVerdict x) s = .next t ∧
        t.mxa x.val = m.mapPass p.entry p.pass (fun y => { y with verdict := some true }) ∧ SameMem s t ∧ t.sync = s.sync) ∧
    (∀ v, p.mis = some v → m.replay = none → s.fld (pgMXA x.val 0) 0x044 0 8 = 0 →
      let first := i.task.group p.pass * i.task.chainLen
      ∃ t, exec (.passVerdict x) s = .next t ∧
        (t.mxa x.val).replay = some ⟨p.entry, first, first + i.task.chainLen - 1, false⟩ ∧
        (t.mxa x.val).active = none ∧ (t.mxa x.val).ready = false ∧
        (∀ r ∈ (t.mxa x.val).rows, r ∈ m.rows ∧ m.before r.entry r.pass i.task.entry first = true) ∧
        (∀ e ∈ (t.mxa x.val).chain, e ∈ m.chain ∧ (t.mxa x.val).awaits e.1 = true) ∧ SameMem s t)) ∧
  (∀ (x : Site) (p : MPass) (i : MInstr) (s : State), let m := s.mxa x.val
    m.passes.find? (fun p => !p.lost) = some p → m.instr p.entry = some i → p.verdict = some true → p.drained = i.task.m →
    i.task.sigs = [] →
    ∃ t, exec (.passComplete x) s = .next t ∧
      (∀ q ∈ (t.mxa x.val).passes, ¬ (q.entry = p.entry ∧ q.pass = p.pass)) ∧
      (i.task.lastOf p.pass = true → t.reg64 (pgMXA x.val 1) 0x040 =
        (s.reg64 (pgMXA x.val 1) 0x040 + i.task.chainLen) % 2 ^ 64) ∧
      (p.pass + 1 = i.task.count → ∀ q ∈ (t.mxa x.val).instrs, q.task.entry ≠ p.entry) ∧ SameMem s t ∧ t.sync = s.sync)

/-- SEQ_CTX_START, SEQ_CTX_STOP, STOP_IDLE and HALT (R131 to R133): a startable context runs from its START with cleared
registers and fault record; a stopped one that is not BUSY is IDLE and its unfired tasks have left the windows; a HALT
retires and ends the thread. -/
def Obligations.ContextControl : Prop :=
  ∀ (x : Site) (c : Ctx) (s : State), s.siteOn x.val = true →
    (s.startable x.val c.val = true → (s.hdr (pgSEQ x.val 0)).inj = 0 →
      ∃ t, exec (.seqCtxStart x (BitVec.ofNat 8 (2 ^ c.val))) s = .next t ∧
        t.thread x.val c.val = ⟨.running, 2 * s.fld (pgSEQ x.val 0) (0x060 + 4 * c.val) 1 17, [], 0, .none, false, false⟩ ∧
        t.reg (pgSEQ x.val 0) (0x080 + 4 * c.val) = 0 ∧ t.reg (pgSEQ x.val 0) (0x0A0 + 4 * c.val) = 0 ∧
        SameRegsBut s t (fun p off => p = pgSEQ x.val 0 ∧ (off = 0x080 + 4 * c.val ∨ off = 0x0A0 + 4 * c.val)) ∧
        t = { s with tiles := t.tiles, regs := t.regs }) ∧
    ((s.thread x.val c.val).st ≠ .idle → s.busy x.val c.val = false →
      ∃ t, exec (.seqCtxStop x (BitVec.ofNat 8 (2 ^ c.val))) s = .next t ∧
        (t.thread x.val c.val).st = .idle ∧ (t.thread x.val c.val).block = .none ∧
        (∀ k ∈ (t.tile x.val).win ++ (t.tile x.val).copied.map (·.task), k.ctx ≠ c.val) ∧ t = { s with tiles := t.tiles }) ∧
    ((s.thread x.val c.val).stopping = true → s.busy x.val c.val = false →
      ∃ t, exec (.stopIdle x c) s = .next t ∧ (t.thread x.val c.val).st = .idle ∧
        (t.thread x.val c.val).stopping = false ∧ t = { s with tiles := t.tiles }) ∧
    (s.canIssue x.val c.val →
      ∃ t, exec (.halt x c) s = .next t ∧ (t.thread x.val c.val).st = .halted ∧
        (t.thread x.val c.val).pc = ((s.thread x.val c.val).pc + 4) % 2 ^ 32 ∧
        (t.thread x.val c.val).instret = (s.thread x.val c.val).instret + 1 ∧
        t = { s.atIssue x.val c.val with tiles := t.tiles })

/-- SEQ_INSTRUCTION (R134, R135, R137), in the thread whose turn it is: a register-register instruction writes its RV32IM result to rd,
advances the pc by 4 and retires, whatever else the tile holds; the all-zero halfword is illegal and faults the context, whose
thread stops; so does a parity error of the word fetched.

SEQ_LOAD_STORE (R138, R191, R206, R212) in the thread whose turn it is, with no error on the access: a load of each width
loads its bytes of the word unless that is poisoned, which faults the context; SW stores the register with a clear poison bit, SB
and SH merge it into the word, whose poison bit stays; a misaligned address, one beyond the scratchpad and an undefined width fault
the context. Every other byte of every scratchpad is unchanged.

Remote instructions (R139, R200, R204) in the thread whose turn it is: RLW, RSW, the six RAMO and RCAS each send one request
packet with the tag of the context to the site of the LTN, and the thread waits for the response; an LTN beyond the licence, or a
word beyond the scratchpad, faults the context and sends nothing. -/
def Obligations.ThreadExecution : Prop :=
   (∀ (x : Site) (c : Ctx) (env : Env) (ramp : Bool) (s : State), s.canIssue x.val c.val → (s.hdr (pgSEQ x.val 0)).inj = 0 →
      let th := s.thread x.val c.val
      th.pc + 2 < imemBytes →
      (∀ w v, w = s.imemHalf x.val th.pc + s.imemHalf x.val (th.pc + 2) * 2 ^ 16 → s.imemHalf x.val th.pc % 4 = 3 →
        bitsOf w 0 7 = 0x33 →
        aluOp (bitsOf w 25 7) (bitsOf w 12 3) (th.get (bitsOf w 15 5)) (th.get (bitsOf w 20 5)) = some v →
        ∃ t, exec (.seqInstruction x c env false false ramp) s = .next t ∧ t.thread x.val c.val = th.after (bitsOf w 7 5) v 4 ∧
          t = { s.atIssue x.val c.val with tiles := t.tiles }) ∧
      (s.imemHalf x.val th.pc = 0 → th.faultRec = false →
        ∃ t, exec (.seqInstruction x c env false false ramp) s = .next t ∧ (t.thread x.val c.val).st = .faulted ∧
          (t.thread x.val c.val).regs = th.regs ∧ SameMem s t ∧ t.sync = s.sync) ∧
      (th.faultRec = false →
        ∃ t, exec (.seqInstruction x c env true false ramp) s = .next t ∧ (t.thread x.val c.val).st = .faulted ∧
          (t.thread x.val c.val).regs = th.regs ∧ SameMem s t ∧ t.sync = s.sync)) ∧
   (∀ (x : Site) (c : Ctx) (f3 : BitVec 3) (rd rs1 rs2 : BitVec 5) (imm : BitVec 12) (s : State),
      let th := s.thread x.val c.val
      let addr := (th.get rs1.toNat + sx 12 32 imm.toNat) % 2 ^ 32
      let w := s.spadWord x.val (addr / 4)
      let v := th.get rs2.toNat
      s.canIssue x.val c.val → (s.hdr (pgSPD x.val 0)).inj = 0 → s.copying x.val = false →
      (∀ n, accessBytes false f3.toNat = some n → addr % n = 0 → addr < spadBytes →
        (w.p = false →
          ∃ t, exec (.seqLoadStore x c false f3 rd rs1 rs2 imm []) s = .next t ∧
            t.thread x.val c.val = th.after rd.toNat (loadValue f3.toNat (addr % 4) w.v) 4 ∧ SameMem s t ∧ t.sync = s.sync) ∧
        (w.p = true → th.faultRec = false →
          ∃ t, exec (.seqLoadStore x c false f3 rd rs1 rs2 imm []) s = .next t ∧ (t.thread x.val c.val).st = .faulted ∧
            (t.thread x.val c.val).regs = th.regs ∧ SameMem s t)) ∧
      (∀ n, accessBytes true f3.toNat = some n → addr % n = 0 → addr < spadBytes →
        ∃ t, exec (.seqLoadStore x c true f3 rd rs1 rs2 imm []) s = .next t ∧
          t.spadWord x.val (addr / 4) = (if n = 4 then ⟨v, false⟩ else ⟨putBits w.v (8 * (addr % 4)) (8 * n) v, w.p⟩) ∧
          t.thread x.val c.val = th.after 0 0 4 ∧
          (∀ a, a < spadKey x.val (addr / 4 * 4) ∨ spadKey x.val (addr / 4 * 4) + 4 ≤ a → memByte t.spad a = memByte s.spad a) ∧
          t.imem = s.imem ∧ t.dram = s.dram ∧ t.sync = s.sync) ∧
      ∀ store : Bool, (accessBytes store f3.toNat).all (fun n => decide (addr % n ≠ 0)) = true ∨ spadBytes ≤ addr →
        th.faultRec = false →
        ∃ t, exec (.seqLoadStore x c store f3 rd rs1 rs2 imm []) s = .next t ∧ (t.thread x.val c.val).st = .faulted ∧
          (t.thread x.val c.val).regs = th.regs ∧ SameMem s t) ∧
   (∀ (x : Site) (c : Ctx) (rd rs1 rs2 rs3 : BitVec 5) (s : State), s.canIssue x.val c.val →
      let th := s.thread x.val c.val
      let u := s.atIssue x.val c.val
      let a := th.get rs1.toNat
      let v := th.get rs2.toNat
      let w := th.get rs3.toNat
      let d := rd.toNat
      (bitsOf a 21 11 < s.ltns → bitsOf a 0 21 < spadWords →
        (∃ t, exec (.rlw x c rd rs1) s = .next t ∧ RequestSent x.val c.val .read d a 0 0 u t) ∧
        (∃ t, exec (.rsw x c rs1 rs2) s = .next t ∧ RequestSent x.val c.val .write 0 a v 0 u t) ∧
        (∃ t, exec (.ramoAdd x c rd rs1 rs2) s = .next t ∧ RequestSent x.val c.val (.amo 0) d a v 0 u t) ∧
        (∃ t, exec (.ramoSwap x c rd rs1 rs2) s = .next t ∧ RequestSent x.val c.val (.amo 1) d a v 0 u t) ∧
        (∃ t, exec (.ramoMin x c rd rs1 rs2) s = .next t ∧ RequestSent x.val c.val (.amo 2) d a v 0 u t) ∧
        (∃ t, exec (.ramoMax x c rd rs1 rs2) s = .next t ∧ RequestSent x.val c.val (.amo 3) d a v 0 u t) ∧
        (∃ t, exec (.ramoMinu x c rd rs1 rs2) s = .next t ∧ RequestSent x.val c.val (.amo 4) d a v 0 u t) ∧
        (∃ t, exec (.ramoMaxu x c rd rs1 rs2) s = .next t ∧ RequestSent x.val c.val (.amo 5) d a v 0 u t) ∧
        (∃ t, exec (.rcas x c rd rs1 rs2 rs3) s = .next t ∧ RequestSent x.val c.val .cas d a v w u t)) ∧
      (s.ltns ≤ bitsOf a 21 11 ∨ spadWords ≤ bitsOf a 0 21 → th.faultRec = false →
        ∀ e ∈ ([.rlw x c rd rs1, .rsw x c rs1 rs2, .ramoAdd x c rd rs1 rs2, .ramoSwap x c rd rs1 rs2, .ramoMin x c rd rs1 rs2,
          .ramoMax x c rd rs1 rs2, .ramoMinu x c rd rs1 rs2, .ramoMaxu x c rd rs1 rs2, .rcas x c rd rs1 rs2 rs3] : List Instr),
          ∃ t, exec e s = .next t ∧ (t.thread x.val c.val).st = .faulted ∧ t.packets = s.packets ∧ SameMem s t))

/-- TASK, TASK_WINDOW_ENTRY and TASK_FIRE (R140 to R144): TASK stamps the task with the entry counter, returns that in rd and
begins its copying, or blocks on a full window; a copied task that passes its checks enters the window in order, one that fails them
faults its context; the candidate of the vector engine leaves the window and runs, and its consumed counts leave their
semaphores.

SWAIT and SSIG (R143, R148, R178, R183) in the thread whose turn it is: a satisfied CONSUME takes its count, a satisfied PEEK takes
none, an unsatisfied wait blocks the thread and changes no object, a signal adds its value up to 65,535; SWAIT on a barrier retires
once the participant's round was released (R176). -/
def Obligations.TasksAndWaits : Prop :=
   ((∀ (x : Site) (c : Ctx) (rd rs1 rs2 : BitVec 5) (s : State), s.canIssue x.val c.val →
      let th := s.thread x.val c.val
      let eng := th.get rs2.toNat % 8
      let e := (s.tile x.val).entryCtr
      (s.hdr (pgSPD x.val 0)).inj = 0 → s.copying x.val = false →
      (4 ≤ eng ∨ s.winUsed x.val eng < winDepth eng →
        ∃ t, exec (.task x c rd rs1 rs2 false []) s = .next t ∧
          (t.tile x.val).copied.map (·.task) = (s.tile x.val).copied.map (·.task) ++
            [⟨c.val, e, eng, [], [], th.get rs1.toNat, false, false⟩] ∧
          (t.tile x.val).entryCtr = (e + 1) % 2 ^ 32 ∧
          t.thread x.val c.val = th.after rd.toNat e 4 ∧ SameMem s t ∧ t.sync = s.sync) ∧
      (eng < 4 → winDepth eng ≤ s.winUsed x.val eng →
        ∃ t, exec (.task x c rd rs1 rs2 false []) s = .next t ∧ t.thread x.val c.val = { th with block := .window eng } ∧
          t = { s.atIssue x.val c.val with tiles := t.tiles })) ∧
    (∀ (x : Site) (k : Copy) (l : List Copy) (s : State), (s.tile x.val).copied = k :: l → k.done = true →
      (k.task.engine < 4 → (s.hdr (enginePg x.val k.task.engine)).inj = 0) → (s.hdr (pgSYN x.val 0)).inj = 0 →
      (entryCheck s x.val k.made = none →
        ∃ t, exec (.taskWindowEntry x) s = .next t ∧
          t.tile x.val = { s.tile x.val with copied := l, win := (s.tile x.val).win ++ [k.made] } ∧ t = { s with tiles := t.tiles }) ∧
      (∀ code det, entryCheck s x.val k.made = some (code, det, none) → (s.thread x.val k.task.ctx).faultRec = false →
        ∃ t, exec (.taskWindowEntry x) s = .next t ∧ (t.thread x.val k.task.ctx).st = .faulted ∧
          (t.tile x.val).copied = l.filter (fun j => j.task.ctx != k.task.ctx) ∧ SameMem s t ∧ t.sync = s.sync)) ∧
    (∀ (x : Site) (k : Task) (s : State), let u := (s.unskip x.val).nextRound x.val
      s.siteOn x.val = true → s.runs (pgSEQ x.val 0) = true → s.clocked x.val = true → s.halting (pgSEQ x.val 0) = false →
      u.candidate x.val 1 = some k → k.engine = 1 → u.waitsOk x.val [] k = true → u.seqCandidate x.val = none →
      ∃ t, exec (.taskFire x 2) s = .next t ∧ (t.tile x.val).vxe = (s.tile x.val).vxe ++ [⟨k, false, true⟩] ∧
        (t.tile x.val).win = (s.tile x.val).win.filter (fun j => j.entry != k.entry) ∧
        t.sync = (u.consume x.val (u.consumption x.val k.ctx k.waits)).sync ∧ SameMem s t ∧ t.packets = s.packets)) ∧
   (∀ (x : Site) (c : Ctx) (rs1 rs2 : BitVec 5) (n : Nat) (s : State), s.canIssue x.val c.val →
      let u := (s.atIssue x.val c.val).nextRound x.val
      let th := s.thread x.val c.val
      let o := u.obj x.val n
      let vid := th.get rs1.toNat % 2 ^ 13
      let count := th.get rs2.toNat % 2 ^ 16
      s.halting (pgSYN x.val 0) = false → (s.hdr (pgSYN x.val 0)).inj = 0 → s.resolve x.val c.val vid = some n →
      (o.barrier = false → count ≠ 0 → count ≤ o.count →
        (∃ t, exec (.swaitConsume x c rs1 rs2) s = .next t ∧ t.obj x.val n = { o with count := o.count - count } ∧
          t.thread x.val c.val = th.after 0 0 4 ∧ t = { u with tiles := t.tiles, sync := t.sync }) ∧
        ∃ t, exec (.swaitPeek x c rs1 rs2) s = .next t ∧ t.thread x.val c.val = th.after 0 0 4 ∧ t = { u with tiles := t.tiles }) ∧
      (o.barrier = false → o.count < count →
        ∃ t, exec (.swaitConsume x c rs1 rs2) s = .next t ∧
          t.thread x.val c.val = { th with block := .swait vid count 0 (s.swaitEntry x.val c.val) } ∧
          t = { u with tiles := t.tiles }) ∧
      (o.barrier = true → barrierCountOk count = true →
        bitOf o.last (count % 16) = bitOf count 4 → bitOf (if bitOf count 4 then o.arr1 else o.arr0) (count % 16) = false →
        ∃ t, exec (.swaitBarrier x c rs1 rs2) s = .next t ∧ t.thread x.val c.val = th.after 0 0 4 ∧
          t = { u with tiles := t.tiles }) ∧
      ((s.obj x.val n).barrier = false → (s.obj x.val n).count + th.get rs2.toNat % 2 ^ 8 ≤ 65535 →
        ∃ t, exec (.ssig x c rs1 rs2) s = .next t ∧
          t.obj x.val n = { s.obj x.val n with count := (s.obj x.val n).count + th.get rs2.toNat % 2 ^ 8 } ∧
          t.thread x.val c.val = th.after 0 0 4 ∧ (∀ m, m < 128 → m ≠ n → t.obj x.val m = s.obj x.val m) ∧ SameMem s t))

/-- The key store and the sync object records (R157, R171, R174, R175, R167): KS_BIND binds the entry of KS_INDEX to the
staged key and mask, KS_UNBIND unbinds it; SOBJ_BIND, SOBJ_VAL and SOBJ_PART of an object whose owner is not active give it
the written binding, count or participants; SYN_LOOKUP holds what it looks up.

TEL_BANK_SWAP (R164): at the next 1 ms boundary every tile's active bank freezes as it stands and the other one, empty,
becomes active. With no occupancy and no filler rows being counted the frozen bank is the active one. -/
def Obligations.KeysSyncRecordsAndActivity : Prop :=
   (∀ (x : Site) (s : State), s.siteOn x.val = true →
      (∀ mask : BitVec 8, ∃ t, exec (.ksBind x mask) s = .next t ∧
        t.key x.val (s.fld (pgSEQ x.val 1) 0x040 0 13) =
          ⟨[s.reg (pgSEQ x.val 1) 0x044, s.reg (pgSEQ x.val 1) 0x048, s.reg (pgSEQ x.val 1) 0x04C, s.reg (pgSEQ x.val 1) 0x050],
            true, mask.toNat⟩ ∧
        (∀ k, k < 8192 → k ≠ s.fld (pgSEQ x.val 1) 0x040 0 13 → t.key x.val k = s.key x.val k) ∧
        t = { s with keys := t.keys, regs := t.regs }) ∧
      (∃ t, exec (.ksUnbind x) s = .next t ∧ (t.key x.val (s.fld (pgSEQ x.val 1) 0x040 0 13)).bound = false ∧
        (∀ k, k < 8192 → k ≠ s.fld (pgSEQ x.val 1) 0x040 0 13 → t.key x.val k = s.key x.val k) ∧ t = { s with keys := t.keys }) ∧
      (∀ (n : Fin 128) (v : Word), s.ownerActive x.val n.val = false →
        (s.ctxActive x.val (bitsOf v.toNat 13 3) = false → bitOf v.toNat 16 = true → (s.hdr (pgSYN x.val 0)).inj = 0 →
          s.resolve x.val (bitsOf v.toNat 13 3) (bitsOf v.toNat 0 13) = none →
          ∃ t, exec (.sobjBind x n v) s = .next t ∧
            t.obj x.val n.val = freshObj true (bitOf v.toNat 17) (bitsOf v.toNat 13 3) (bitsOf v.toNat 0 13) ∧
            (∀ m, m < 128 → m ≠ n.val → t.obj x.val m = s.obj x.val m) ∧ t = { s with sync := t.sync }) ∧
        ((s.obj x.val n.val).barrier = false →
          ∃ t, exec (.sobjVal x n v) s = .next t ∧
            t.obj x.val n.val = { s.obj x.val n.val with count := v.toNat % 2 ^ 16 } ∧
            (∀ m, m < 128 → m ≠ n.val → t.obj x.val m = s.obj x.val m) ∧ t = { s with sync := t.sync }) ∧
        ((s.obj x.val n.val).barrier = true →
          ∃ t, exec (.sobjPart x n v) s = .next t ∧ (t.obj x.val n.val).part = v.toNat % 2 ^ 16 ∧
            (t.obj x.val n.val).arr0 = 0 ∧ (t.obj x.val n.val).arr1 = 0 ∧ (t.obj x.val n.val).phase = 0 ∧
            (∀ m, m < 128 → m ≠ n.val → t.obj x.val m = s.obj x.val m) ∧ t = { s with sync := t.sync })) ∧
      ∀ v : Word, ∃ t, exec (.synLookup x v) s = .next t ∧ t.reg (pgSYN x.val 0) 0x040 = v.toNat % 2 ^ 16 ∧
        SameRegsBut s t (fun p off => p = pgSYN x.val 0 ∧ off = 0x040) ∧ t = { s with regs := t.regs }) ∧
   (∀ s : State, (∀ e ∈ s.tiles, (s.tile e.1).occ = [] ∧ s.shapeEn e.1 = false) →
      ∃ t, exec .telBankSwap s = .next t ∧ t.telFrozen = s.telActive ∧ t.telActive = [] ∧
        t.time = max s.time (nextMs s.telSwap) ∧ t.telSwap = t.time ∧ t.regs = s.regs ∧ SameMem s t ∧ t.sync = s.sync)

/-- The element-wise operations and special functions of the vector engine (R68, R150, Table 05.4) on a task of one AF16
element: the word at O holds the operation's value of the operands, NaNs made canonical, poisoned if an operand is, and no
other byte of a scratchpad changes; the task is performed. -/
def Obligations.VectorElementwise : Prop :=
  ∀ (x : Site) (k : Task) (b : Bool) (s : State), (s.tile x.val).vxe.getLast? = some ⟨k, false, b⟩ →
    (s.hdr (pgSPD x.val 0)).inj = 0 → s.copying x.val = false → k.n = 1 → k.vcount = 1 → k.fa = 0xD → k.fb = 0xD → k.fcd = 0xD → k.fo = 0xD →
    k.off 4 % 4 = 0 →
    let w := fun i => s.spadWord x.val (k.off i / 4)
    let c := fun i => if isNaN16 ((w i).v % 2 ^ 16) then 0x7E00 else (w i).v % 2 ^ 16
    ∀ e ∈ ([(.cvt x [], 0x00, 1, (c 0, false)), (.vxAdd x [], 0x01, 2, afAdd (c 0) (c 1)), (.vxSub x [], 0x02, 2, afSub (c 0) (c 1)),
        (.vxMul x [], 0x03, 2, afMul (c 0) (c 1)), (.vxFma x [], 0x04, 3, afFma (c 0) (c 1) (c 2)),
        (.vxMax x [], 0x05, 2, (af16Max (c 0) (c 1), false)), (.vxMin x [], 0x06, 2, (af16Min (c 0) (c 1), false)),
        (.vxSel x [], 0x07, 4, (selOf [c 0, c 1, c 2, c 3], false)), (.vxExp x [], 0x10, 1, special expNum (c 0)),
        (.vxExp2 x [], 0x11, 1, special exp2Num (c 0)), (.vxLog2 x [], 0x12, 1, special log2Num (c 0)),
        (.vxRcp x [], 0x13, 1, special rcpNum (c 0)), (.vxRsqrt x [], 0x14, 1, special rsqrtNum (c 0)),
        (.vxSqrt x [], 0x15, 1, special sqrtNum (c 0)), (.vxTanh x [], 0x16, 1, special tanhNum (c 0)),
        (.vxSigmoid x [], 0x17, 1, special sigmoidNum (c 0)), (.vxSilu x [], 0x18, 1, special siluNum (c 0)),
        (.vxGelu x [], 0x19, 1, special geluNum (c 0)), (.vxSin x [], 0x1A, 1, special sinNum (c 0)),
        (.vxCos x [], 0x1B, 1, special cosNum (c 0))] : List (Instr × Nat × Nat × (Nat × Bool))),
      k.op = e.2.1 →
        ∃ t, exec e.1 s = .next t ∧
          t.spadWord x.val (k.off 4 / 4) = ⟨e.2.2.2.1 % 2 ^ 16, (List.range e.2.2.1).any fun i => (w i).p⟩ ∧
          (∀ a, a < spadKey x.val (k.off 4) ∨ spadKey x.val (k.off 4) + 4 ≤ a → memByte t.spad a = memByte s.spad a) ∧
          (t.tile x.val).vxe = (s.tile x.val).vxe.dropLast ++ [⟨k, true, true⟩] ∧
          t.imem = s.imem ∧ t.dram = s.dram ∧ t.sync = s.sync ∧ t.time = (s.unskip x.val).time

/-- ACC, SUMR, MAXR and SMAX_FINAL (R151, R152, R228) on a task of one AF16 element, with its key resolved: the result of one
keyed step, of the tree reduction, of the maximum, and of the division by the state's sum.

SMAX_STEP, RMSNORM, LAYERNORM, SAMPLE and MERGE (R152 to R156, R342) on a task of one vector (for MERGE of any length):
the new state and α of one softmax step, the normalised element, the sampler's word, and the merged record.

VXE_TASK_COMPLETE (R149): the oldest performed task of the engine leaves it, is counted, and its signal terms are
applied. -/
def Obligations.VectorReductionsAndTasks : Prop :=
   (∀ (x : Site) (k : Task) (b : Bool) (key : List Nat) (s : State), (s.tile x.val).vxe.getLast? = some ⟨k, false, b⟩ →
      (s.hdr (pgSPD x.val 0)).inj = 0 → (s.hdr (pgVXE x.val 0)).inj = 0 → s.copying x.val = false → k.n = 1 → k.vcount = 1 →
      k.fa = 0xD → k.fo = 0xD → k.off 4 % 4 = 0 →
      k.vinit = false → k.rmeta = false → s.resolveKey x.val k.ctx k.vkey = some key →
      let w := s.spadWord x.val (k.off 0 / 4)
      let st := s.spadWord x.val (k.off 2 / 4)
      let a := if isNaN16 (w.v % 2 ^ 16) then 0x7E00 else w.v % 2 ^ 16
      ∀ e ∈ ([(.vxAcc x [], 0x20, (srCode (k.seed key k.vtoken k.vkblock 0x02) 0 0 0 a).1, w.p),
          (.sumr x [], 0x21, (sumrOf k key (k.vtoken % 2 ^ 40) k.vkblock [a]).1, w.p), (.maxr x [], 0x22, maxOf [a], w.p),
          (.smaxFinal x [], 0x31, (afDiv a (st.v / 2 ^ 16)).1, w.p || st.p)] : List (Instr × Nat × Nat × Bool)),
        k.op = e.2.1 →
          ∃ t, exec e.1 s = .next t ∧ t.spadWord x.val (k.off 4 / 4) = ⟨e.2.2.1 % 2 ^ 16, e.2.2.2⟩ ∧
            (∀ q, q < spadKey x.val (k.off 4) ∨ spadKey x.val (k.off 4) + 4 ≤ q → memByte t.spad q = memByte s.spad q) ∧
            (t.tile x.val).vxe = (s.tile x.val).vxe.dropLast ++ [⟨k, true, true⟩] ∧ t.sync = s.sync ∧ t.dram = s.dram) ∧
   (∀ (x : Site) (k : Task) (b : Bool) (key : List Nat) (s : State), (s.tile x.val).vxe.getLast? = some ⟨k, false, b⟩ →
      (s.hdr (pgSPD x.val 0)).inj = 0 → (s.hdr (pgVXE x.val 0)).inj = 0 → s.copying x.val = false → k.vcount = 1 → k.off 4 % 4 = 0 → k.rmeta = false →
      s.resolveKey x.val k.ctx k.vkey = some key →
      let el := fun i => let v := (s.spadWord x.val (k.off i / 4)).v % 2 ^ 16; if isNaN16 v then 0x7E00 else v
      let p := fun i => (s.spadWord x.val (k.off i / 4)).p
      let tok := k.vtoken % 2 ^ 40
      let put := fun (t : State) => (t.tile x.val).vxe = (s.tile x.val).vxe.dropLast ++ [⟨k, true, true⟩] ∧ t.sync = s.sync ∧
        t.dram = s.dram ∧ t.freeCtr = s.freeCtr + 1
      (k.op = 0x30 → k.n = 1 → k.fa = 0xD → k.we = false → k.off 5 % 4 = 0 → k.off 5 ≠ k.off 4 →
        let r := (smaxStepOf k key tok ((s.spadWord x.val (k.off 2 / 4)).v % 2 ^ 16)
          ((s.spadWord x.val (k.off 2 / 4)).v / 2 ^ 16) [el 0]).1
        ∃ t, exec (.smaxStep x []) s = .next t ∧
          t.spadWord x.val (k.off 4 / 4) = ⟨(r.1 + r.2.1 * 2 ^ 16) % 2 ^ 32, p 2 || p 0⟩ ∧
          t.spadWord x.val (k.off 5 / 4) = ⟨r.2.2.1 % 2 ^ 16, p 2 || p 0⟩ ∧ put t) ∧
      (k.n = 1 → k.fa = 0xD → k.fb = 0xD → k.fcd = 0xD → k.fo = 0xD →
        (k.op = 0x38 →
          ∃ t, exec (.rmsnorm x []) s = .next t ∧ put t ∧
            t.spadWord x.val (k.off 4 / 4) = ⟨nthD 0 (normOf k key tok 0 [el 0] [el 1]).1 0 % 2 ^ 16, p 0 || p 1⟩) ∧
        (k.op = 0x39 →
          let mu := (divByCount (sumrOf k key tok 0 [el 0]).1 1).1
          let y := nthD 0 (normOf k key tok 1 [(afSub (el 0) mu).1] [el 1]).1 0
          ∃ t, exec (.layernorm x []) s = .next t ∧ put t ∧
            t.spadWord x.val (k.off 4 / 4) = ⟨(afAdd y (el 2)).1 % 2 ^ 16, p 0 || p 1 || p 2⟩)) ∧
      (k.op = 0x3C → k.n = 1 → k.fa = 0xD → (s.key x.val (4096 + k.vkey)).bound = true →
        bitOf (s.key x.val (4096 + k.vkey)).mask k.ctx = true →
        ∃ t, exec (.sample x []) s = .next t ∧ put t ∧
          t.spadWord x.val (k.off 4 / 4) =
            ⟨(sampleOf k key (s.key x.val (4096 + k.vkey)).words tok [el 0]).1 % 2 ^ 32, p 0⟩) ∧
      (k.op = 0x32 → k.fo = 0xD →
        let la := VSt.load ⟨⟨s.unskip x.val, []⟩, [], false, false⟩ x.val k (k.inp 0) 0 k.n
        let lb := la.2.load x.val k (k.inp 1) 0 k.n
        let m := mergeOf (k.seed key tok k.vkblock 0x05) k.vpstep (la.1.map (·.1)) (lb.1.map (·.1))
        ∃ t, exec (.vxMerge x []) s = .next t ∧ put t ∧
          t.spad = (VSt.store (lb.2.flag m.2) x.val k (k.out 0) 0
            (m.1.map fun e => (e, la.1.any (·.2) || lb.1.any (·.2)))).io.s.spad)) ∧
   (∀ (x : Site) (r : VxeRun) (l : List VxeRun) (s : State), (s.tile x.val).vxe = r :: l → r.performed = true → r.ok = true →
      r.task.sigs = [] →
      ∃ t, exec (.vxeTaskComplete x) s = .next t ∧ (t.tile x.val).vxe = l ∧
        t.reg64 (pgVXE x.val 1) 0x040 = (s.reg64 (pgVXE x.val 1) 0x040 + 1) % 2 ^ 64 ∧
        (r.task.op = 0x3C → t.reg64 (pgVXE x.val 1) 0x050 = (s.reg64 (pgVXE x.val 1) 0x050 + 1) % 2 ^ 64) ∧
        (t.tile x.val).win = (s.tile x.val).win ∧ t.sync = s.sync ∧ SameMem s t)

/-- The rows of a DMA transfer (R231): a row of `len` bytes is split into requests that ascend and together carry `len`
bytes, and none crosses a 256-byte boundary (128 bytes for a remote scratchpad) of its source or of its destination. -/
def Obligations.DmaRowsSplitAtBoundaries : Prop :=
  ∀ (lim page src dst len : Nat) (ss ds : Space), 0 < lim →
    let l := splitRow lim page ss ds len src dst len
    (l.map (·.len)).sum = len ∧
    (∀ q ∈ l, 0 < q.len ∧ q.saddr % lim + q.len ≤ lim ∧ q.daddr % lim + q.len ≤ lim ∧ q.gen = false ∧ q.page = page) ∧
    ∀ i q, l[i]? = some q → q.saddr = src + ((l.take i).map (·.len)).sum ∧ q.daddr = dst + ((l.take i).map (·.len)).sum

/-- DMX_TRANSFER, ATTENTION_PAGE and DMX_REQUEST_ISSUE (R158, R161, R200, R230, R231, R234, R235): a fired task is split into its
requests; the first request that need not wait, of a remote scratchpad, takes the lowest free tag and goes to the site of its LTN;
one whose subchannel already has 16 tags of the tile outstanding is not issued.

DMX_TRANSFER_COMPLETE, DMX_TAG_TIMEOUT and GEN_READ_TIMEOUT (R158, R162, R163, R219, R233, R298): the oldest transfer with
every write acknowledged writes its status record if it asks for one, leaves, counts, and applies its completion signals;
a tag outstanding for 2^24 cycles, or a check whose data reads could not all issue, ends its transfer with TIMEOUT, and the tag
is free unless its response may still come (log entry 197). -/
def Obligations.DmaTasks : Prop :=
   (∀ (x : Site) (k : Fin 2) (s : State),
      (∀ y, (s.dmx x.val k.val).unsplit false = some y →
        ∃ t, exec (.dmxTransfer x k) s = .next t ∧ t = { s with tiles := t.tiles } ∧
          t.dmx x.val k.val = (s.dmx x.val k.val).mapXfer y.task.entry
            fun z => { z with split := true, reqs := transferReqs z.task }) ∧
      (∀ y, (s.dmx x.val k.val).unsplit true = some y → (s.hdr (pgSPD x.val 0)).inj = 0 →
        let refs := pageRefs ((List.range (2 * y.task.pcount)).map fun i => s.spadWord x.val (y.task.plist / 4 + i))
        ∃ t, exec (.attentionPage x k []) s = .next t ∧ SameMem s t ∧ t.sync = s.sync ∧ t.packets = s.packets ∧
          ((∀ r ∈ refs, pageOk r.1 = true) → t.dmx x.val k.val = (s.dmx x.val k.val).mapXfer y.task.entry fun z =>
            { z with split := true, st := .running, reqs := ((List.range refs.length).zip refs).flatMap fun e => pageReqs y.task e.1 e.2 })) ∧
      ∀ (entry index tag : Nat) (y : DXfer) (q : DReq), let u := s.unskip x.val
        s.siteOn x.val = true → (s.hdr (pgDMX x.val k.val 0)).inj = 0 → (s.dmx x.val k.val).xfer entry = some y →
        (s.dmx x.val k.val).freeTag = some tag → y.reqs[index]? = some q → y.allowed q = true →
        (y.reqs.take index).all (s.reqWaits x.val k.val y) = true →
        (∀ d, q.sspace = .remote → q.dspace = .own → s.siteOfLtn x.val (q.saddr / 2 ^ 32) = some d →
          ∃ t g, exec (.dmxRequestIssue x k entry index []) s = .next t ∧
            t.packets = s.packets ++ [⟨tRD, x.val, 4, d, q.saddr / 2 ^ 32, (s.reqOf x.val).1, reqTag k.val tag, 0, (s.reqOf x.val).2,
              q.saddr % 2 ^ 23 / 4, [], 4, u.cyc x.val⟩] ∧
            (t.dmx x.val k.val).tags = (s.dmx x.val k.val).tags ++ [g] ∧ g.tag = tag ∧ g.entry = entry ∧ g.req = q ∧ g.site = d ∧
            (t.dmx x.val k.val).xfers = ((s.dmx x.val k.val).mapXfer entry fun z => { z with reqs := z.reqs.eraseIdx index }).xfers ∧
            t = { u with tiles := t.tiles, packets := t.packets, telActive := t.telActive }) ∧
        (q.sspace.mem = true → s.mcOfAddr x.val q.saddr ≠ 0x1FF → 16 ≤ s.mcTags x.val (s.mcOfAddr x.val q.saddr) →
          ∃ t, exec (.dmxRequestIssue x k entry index []) s = .next t ∧ TimeFrame s t)) ∧
   (∀ (x : Site) (k : Fin 2) (s : State), (s.hdr (pgSPD x.val 0)).inj = 0 → s.copying x.val = false →
      (∀ y l, (s.dmx x.val k.val).xfers = y :: l → (s.dmx x.val k.val).drained y = true → y.st = .running →
        ∃ u t : State, exec (.dmxTransferComplete x k []) s = .next t ∧ t = u.signals x.val (y.task.signalsOf false) ∧
          (u.dmx x.val k.val).xfers = (y :: l).filter (fun z => z.task.entry != y.task.entry) ∧
          (u.dmx x.val k.val).tags = (s.dmx x.val k.val).tags ∧
          u.reg64 (pgDMX x.val k.val 1) 0x040 = (s.reg64 (pgDMX x.val k.val 1) 0x040 + 1) % 2 ^ 64 ∧
          u.sync = s.sync ∧ u.packets = s.packets ∧ u.imem = s.imem ∧ u.dram = s.dram ∧
          (y.task.statEn = false → u.spad = s.spad) ∧
          (y.task.statEn = true → y.task.stat % 8 = 0 → y.task.stat + 8 ≤ spadBytes →
            u.spadWord x.val (y.task.stat / 4) = ⟨0, false⟩ ∧ u.spadWord x.val (y.task.stat / 4 + 1) = ⟨0, false⟩ ∧
            ∀ a, a < spadKey x.val y.task.stat ∨ spadKey x.val y.task.stat + 8 ≤ a → memByte u.spad a = memByte s.spad a)) ∧
      (∀ (tag : Fin 64) g y, (s.dmx x.val k.val).tags.find? (fun h => h.tag == tag.val) = some g →
        (s.dmx x.val k.val).xfer g.entry = some y → (s.thread x.val y.task.ctx).faultRec = false →
        ∃ t, exec (.dmxTagTimeout x k tag) s = .next t ∧ (t.thread x.val y.task.ctx).st = .faulted ∧
          (t.dmx x.val k.val).tags = (if s.outstanding ⟨g.who, g.rsite, reqTag k.val g.tag⟩ then (s.dmx x.val k.val).tags
            else (s.dmx x.val k.val).tags.filter fun h => h.tag != tag.val) ∧
          (∀ z ∈ (t.dmx x.val k.val).xfers, z.task.entry ≠ g.entry) ∧ SameMem s t ∧ t.sync = s.sync) ∧
      ∀ (entry : Nat) y g, (s.dmx x.val k.val).xfer entry = some y → y.openCheck = some g →
        (s.thread x.val y.task.ctx).faultRec = false →
        ∃ t, exec (.genReadTimeout x k entry) s = .next t ∧ (t.thread x.val y.task.ctx).st = .faulted ∧
          (∀ z ∈ (t.dmx x.val k.val).xfers, z.task.entry ≠ entry) ∧ SameMem s t ∧ t.sync = s.sync)

/-- REMOTE_ACCESS_PERFORM and ATOMIC_WRITE (R197, R198, R204 to R207): a bank performs the access it takes next; a write
stores its word, an atomic holds the old value and then stores the new value of Table 07.4, keeps the old one in its
replay cache and answers it.

The new value of an atomic (Table 07.4): addition modulo 2^32, the operand, the signed and unsigned minimum and maximum,
and compare-and-swap.

RC_REL, RC_ENTRY_TIMEOUT, BANK_STARVATION, SPD_ECC_WRITEBACK, SCRUB_READ, INIT and SPD_INIT_COMPLETE (R199, R208, R210,
R213, R214): no entry of the requester stays after its release; an expired entry leaves its cache; a starved access keeps
its place; a written-back word leaves the bank's list; the scrub row moves on; an initialisation of 12,288 cycles leaves
every word of that scratchpad zero and clean and the others as they were. -/
def Obligations.BanksAndAtomics : Prop :=
   (∀ (x : Site) (b : Fin 128) (a : BankAcc) (s : State), s.siteOn x.val = true → (s.hdr (pgSPD x.val 0)).inj = 0 →
      s.copying x.val = false →
      ((s.bank x.val b.val).atomic = none → (s.bank x.val b.val).next = some a → a.word % 128 = b.val → a.word < spadWords →
        (a.kind = .write → ∃ t, exec (.remoteAccessPerform x b .clean) s = .next t ∧ t.spadWord x.val a.word = ⟨a.data.v % 2 ^ 32, a.data.p⟩ ∧
          (t.bank x.val b.val).queue = (s.bank x.val b.val).queue.erase a ∧
          (∀ c, c < spadKey x.val (4 * a.word) ∨ spadKey x.val (4 * a.word) + 4 ≤ c → memByte t.spad c = memByte s.spad c) ∧
          t.imem = s.imem ∧ t.dram = s.dram ∧ t.sync = s.sync) ∧
        (a.kind = .read → ∃ t, exec (.remoteAccessPerform x b .clean) s = .next t ∧
          (t.bank x.val b.val).queue = (s.bank x.val b.val).queue.erase a ∧ SameMem s t ∧ t.sync = s.sync) ∧
        (a.kind.atomic = true → (s.spadWord x.val a.word).p = false →
          ∃ t, exec (.remoteAccessPerform x b .clean) s = .next t ∧ SameMem s t ∧
            t.bank x.val b.val = { s.bank x.val b.val with
              queue := (s.bank x.val b.val).queue.erase a, atomic := some (a, s.spadWord x.val a.word) })) ∧
      ∀ old : PWord, (s.bank x.val b.val).atomic = some (a, old) → a.word % 128 = b.val → a.word < spadWords →
        ∃ t, exec (.atomicWrite x b) s = .next t ∧
          t.spadWord x.val a.word = ⟨atomicNew a.kind old.v a.data.v a.b % 2 ^ 32, false⟩ ∧
          (t.bank x.val b.val).atomic = none ∧
          (t.bank x.val b.val).cache = (s.bank x.val b.val).cache ++ [⟨a.req, a.rsite, a.tag, old, s.cyc x.val⟩] ∧
          t.reg64 (pgSPD x.val 1) 0x050 = (s.reg64 (pgSPD x.val 1) 0x050 + 1) % 2 ^ 64 ∧
          (∀ c, c < spadKey x.val (4 * a.word) ∨ spadKey x.val (4 * a.word) + 4 ≤ c → memByte t.spad c = memByte s.spad c) ∧
          t.imem = s.imem ∧ t.dram = s.dram ∧ t.sync = s.sync) ∧
   (∀ (a b c : Word),
      atomicNew (.amo 0) a.toNat b.toNat c.toNat = (a + b).toNat ∧
      atomicNew (.amo 1) a.toNat b.toNat c.toNat = b.toNat ∧
      atomicNew (.amo 2) a.toNat b.toNat c.toNat = (if a.toInt ≤ b.toInt then a else b).toNat ∧
      atomicNew (.amo 3) a.toNat b.toNat c.toNat = (if a.toInt ≤ b.toInt then b else a).toNat ∧
      atomicNew (.amo 4) a.toNat b.toNat c.toNat = (if a ≤ b then a else b).toNat ∧
      atomicNew (.amo 5) a.toNat b.toNat c.toNat = (if a ≤ b then b else a).toNat ∧
      atomicNew .cas a.toNat b.toNat c.toNat = (if a = b then c else a).toNat) ∧
   (∀ (x : Site) (b : Fin 128) (s : State),
      (∀ (req tag : Nat) (rsite : Bool), (s.hdr (pgSPD x.val 0)).inj = 0 → ∃ t, exec (.rcRel x req rsite tag) s = .next t ∧
        t = { s with tiles := t.tiles, packets := t.packets } ∧
        ∀ e ∈ (t.spd x.val).banks, ∀ c ∈ e.2.cache, c.who ≠ ⟨req, rsite, tag⟩) ∧
      (∀ e l, (s.bank x.val b.val).cache = e :: l → ∃ t, exec (.rcEntryTimeout x b) s = .next t ∧
        t.bank x.val b.val = { s.bank x.val b.val with cache := l } ∧ SameMem s t ∧ t.sync = s.sync) ∧
      (∀ a, (s.bank x.val b.val).queue.find? (fun y => !y.starved) = some a → ∃ t, exec (.bankStarvation x b) s = .next t ∧
        (t.bank x.val b.val).queue.map (fun y => (y.word, y.kind, y.data)) =
          (s.bank x.val b.val).queue.map (fun y => (y.word, y.kind, y.data)) ∧
        t.reg (pgSPD x.val 0) 0x054 = (b.val + a.req * 2 ^ 7 + a.tag * 2 ^ 18 + b2n a.rsite * 2 ^ 26) % 2 ^ 32 ∧
        SameMem s t ∧ t.sync = s.sync) ∧
      (∃ t, exec (.spdEccWriteback x b) s = .next t ∧ t = { s with tiles := t.tiles } ∧
        t.bank x.val b.val = { s.bank x.val b.val with writeBack := (s.bank x.val b.val).writeBack.drop 1 }) ∧
      (s.siteOn x.val = true → s.enabled (pgSPD x.val 0) = true → s.flag (pgSPD x.val 0) 0x040 0 = true →
        s.halting (pgSPD x.val 0) = false → (s.bank x.val b.val).queue = [] → (s.bank x.val b.val).atomic = none →
        ∃ t, exec (.scrubRead x b .clean) s = .next t ∧ SameMem s t ∧
          (t.bank x.val b.val).scrubRow = (if (s.bank x.val b.val).scrubRow = 12287 then 0 else (s.bank x.val b.val).scrubRow + 1)) ∧
      (s.siteOn x.val = true → s.enabled (pgSPD x.val 0) = false →
        ∃ t, exec (.init x) s = .next t ∧ (t.spd x.val).initAt = some (s.cyc x.val) ∧ t.fld (pgSPD x.val 0) 0x048 0 2 % 2 = 1 ∧
          t = { s with tiles := t.tiles, regs := t.regs }) ∧
      ∀ c, (s.spd x.val).initAt = some c → ∃ t, exec (.spdInitComplete x) s = .next t ∧
        (∀ w, w < spadWords → t.spadWord x.val w = ⟨0, false⟩) ∧ t.fld (pgSPD x.val 0) 0x048 0 2 = 2 ∧
        (t.spd x.val).initAt = none ∧
        (∀ y w, y ≠ x.val → w < spadWords → memWord t.spad (spadKey y (4 * w)) = memWord s.spad (spadKey y (4 * w))) ∧
        t.imem = s.imem ∧ t.dram = s.dram ∧ t.sync = s.sync)

/-- RD_REQ, WR_REQ, AMO_REQ and CAS_REQ (R197, R203, R204, R207, R260): a request for words of the scratchpad of the right
tile queues its accesses at their banks; a request beyond the scratchpad, or whose tile does not serve, changes no
memory and is answered with LOSS of cause REFUSED.

RD_RSP, WR_ACK, AMO_RSP, LOSS and REMOTE_REQUEST_TIMEOUT at a thread that waits for the request's tag (R139, R198, R201,
R206, R208): the response's word goes to the destination register and the instruction retires; a loss sends the request
again with the site of its LTN as it now is; a refused request faults the context with ADDR; and 2^24 cycles without a
response raise the access fault. -/
def Obligations.RemoteAccesses : Prop :=
   (∀ (x : Site) (req tag dltn word : Nat) (rsite : Bool) (s : State),
      let w : Who := ⟨req, rsite, tag⟩
      (∀ (data : List PWord) (n : Nat) (fn : Fin 6) (a b : Word), s.requestLoss x.val dltn word 1 = none →
        s.inQueue x.val (bankOf word) w = false →
        (n = 1 → ∃ t, exec (.rdReq x req rsite tag dltn word n) s = .next t ∧
          t.bank x.val (bankOf word) = { s.bank x.val (bankOf word) with
            queue := (s.bank x.val (bankOf word)).queue ++ [⟨req, rsite, tag, .read, word, ⟨0, false⟩, 0, s.cyc x.val, false⟩] } ∧
          t = { s with tiles := t.tiles, packets := t.packets }) ∧
        (data.length = 1 → ∃ t v, data = [v] ∧ exec (.wrReq x req rsite tag dltn word data) s = .next t ∧
          t.bank x.val (bankOf word) = { s.bank x.val (bankOf word) with
            queue := (s.bank x.val (bankOf word)).queue ++ [⟨req, rsite, tag, .write, word, v, 0, s.cyc x.val, false⟩] } ∧
          t = { s with tiles := t.tiles, packets := t.packets }) ∧
        ((s.bank x.val (bankOf word)).cache.find? (fun e => e.who == w) = none →
          (∃ t, exec (.amoReq x req rsite tag dltn word fn a) s = .next t ∧
            t.bank x.val (bankOf word) = { s.bank x.val (bankOf word) with queue := (s.bank x.val (bankOf word)).queue ++
              [⟨req, rsite, tag, .amo fn.val, word, ⟨a.toNat, false⟩, 0, s.cyc x.val, false⟩] } ∧
            t = { s with tiles := t.tiles, packets := t.packets }) ∧
          ∃ t, exec (.casReq x req rsite tag dltn word a b) s = .next t ∧
            t.bank x.val (bankOf word) = { s.bank x.val (bankOf word) with queue := (s.bank x.val (bankOf word)).queue ++
              [⟨req, rsite, tag, .cas, word, ⟨a.toNat, false⟩, b.toNat, s.cyc x.val, false⟩] } ∧
            t = { s with tiles := t.tiles, packets := t.packets })) ∧
      (s.requestLoss x.val dltn word 1 = some 3 → ∀ e ∈ ([.rdReq x req rsite tag dltn word 1,
          .wrReq x req rsite tag dltn word [⟨0, false⟩], .amoReq x req rsite tag dltn word 0 0,
          .casReq x req rsite tag dltn word 0 0] : List Instr),
        ∃ t, exec e s = .next t ∧ SameMem s t ∧ t.tiles = s.tiles ∧ t.sync = s.sync)) ∧
   (∀ (x : Site) (c : Ctx) (rd req : Nat) (rsite : Bool) (r : RemOut) (v : Word) (s : State),
      let tag := 128 + c.val
      let th := s.thread x.val c.val
      s.remOf x.val tag = some r → r.tag = tag → (s.tile x.val).late.contains tag = false → th.st = .running → th.block = .remote tag rd →
      (r.kind = .read → ∃ t, exec (.rdRsp x req rsite tag [⟨v.toNat, false⟩] []) s = .next t ∧
        t.thread x.val c.val = th.after rd v.toNat 4 ∧
        (t.tile x.val).rem = (s.tile x.val).rem.filter (fun q => q.tag != tag) ∧
        t = { s with tiles := t.tiles, packets := t.packets }) ∧
      (r.kind = .write → rd = 0 → ∃ t, exec (.wrAck x req rsite tag) s = .next t ∧
        t.thread x.val c.val = th.after 0 0 4 ∧
        t = { s with tiles := t.tiles, packets := t.packets }) ∧
      (∀ d, r.kind.atomic = true → r.site = some d → ∃ t, exec (.amoRsp x req rsite tag ⟨v.toNat, false⟩) s = .next t ∧
        t.thread x.val c.val = th.after rd v.toNat 4 ∧
        (∃ p ∈ t.packets, p.ty = tRCREL ∧ p.dsite = d ∧ p.req = r.who ∧ p.rsite = r.rsite ∧ p.tag = tag) ∧ t = { s with tiles := t.tiles, packets := t.packets }) ∧
      (r.reissues < 3 → ∀ d, s.siteOfLtn x.val r.ltn = some d →
        ∃ t, exec (.loss x req rsite tag 2 []) s = .next t ∧ t.thread x.val c.val = th ∧
          (∃ p ∈ t.packets, p.ty = r.kind.ty ∧ p.dsite = d ∧ p.tag = tag ∧ p.addr = r.word) ∧ SameMem s t) ∧
      (th.faultRec = false → ∃ t, exec (.loss x req rsite tag 3 []) s = .next t ∧ (t.thread x.val c.val).st = .faulted ∧
        SameMem s t) ∧
      (th.faultRec = false → ∃ t, exec (.remoteRequestTimeout x tag) s = .next t ∧ (t.thread x.val c.val).st = .faulted ∧
        t.time ≥ s.time ∧ SameMem s t))

/-- TRANSFER_HOP (R242, R248, R249): the transfer at the head of the source that the output's current entry names (the sum of
an accord route) goes, with its own words, to the next router's input buffer, to the receive agent, or out of the grid at an
optical port; memory and the tiles' engines are unchanged.

TX_SLOT_SEND and RX_DELIVERY (R184, R244 to R246): a transmit slot whose ARM semaphore has a count left takes one, sends
the words of its next buffer under its route and, if it asks for it, signals DONE; a slot with an unbound identifier stops and
faults its context; a delivered transfer's words, and its header record where the slot asks for it, stand in the slot's next
buffer before its arrival is signalled. The engine recorded with such a signal is a free value (log entry 4). -/
def Obligations.ScheduledTransfers : Prop :=
   (∀ (x : Site) (o : Fin 5) (p : OrderPos) (y : Xfer) (s : State),
      skipOpen 2050 s x.val o.val (s.orderPos x.val o.val) = some p →
      let oe := s.entry x.val (3 + o.val) p.entry
      let r := ent oe 0 2 9
      let e := s.entry x.val 2 r
      let src := routeSrc e
      ent oe 0 1 1 = 0 → routeValid e = true → ent e 0 2 3 = o.val → s.rtrRuns x.val = true →
      s.routeHead x.val r e = some y → y.words.length = 16 * routeFlits e → s.injPend (pgRTR x.val 0) 11 = false →
      (o.val = 4 → ∃ t, exec (.transferHop x o []) s = .next t ∧
        t.buf x.val 5 = s.buf x.val 5 ++ [{ y with rid := ent e 0 5 10 }] ∧
        t.buf x.val src = dropFirst (fun z => z.rid == r) (s.buf x.val src) ∧ SameMem s t ∧ t.tiles = s.tiles ∧ t.sync = s.sync) ∧
      (∀ n, neighbour x.val o.val = some n → s.forwards n = true → (s.link n (oppositeDir o.val)).readyLow = false →
        s.portRoom n (oppositeDir o.val) y.flits = true → (s.hdr (pgRTR n 0)).inj = 0 →
        s.linkFailed n (oppositeDir o.val) = false →
        ∃ t, exec (.transferHop x o []) s = .next t ∧
          t.buf n (oppositeDir o.val) = s.buf n (oppositeDir o.val) ++ [{ y with rid := ent e 0 15 9 }] ∧
          t.buf x.val src = dropFirst (fun z => z.rid == r) (s.buf x.val src) ∧ SameMem s t ∧ t.tiles = s.tiles ∧ t.sync = s.sync) ∧
      (attachment x.val o.val = .optical → o.val ≠ 4 → ent e 0 10 5 = 0 → bufRoom (s.buf x.val 6) y = true →
        ∃ t, exec (.transferHop x o []) s = .next t ∧
          t.buf x.val 6 = s.buf x.val 6 ++ [{ y with rid := ent e 0 5 10 }] ∧
          t.buf x.val src = dropFirst (fun z => z.rid == r) (s.buf x.val src) ∧ SameMem s t ∧ t.tiles = s.tiles ∧ t.sync = s.sync)) ∧
   ((∀ (x : Site) (n : Fin 1024) (s : State),
      let e := s.entry x.val 0 n.val
      let ctx := ent e 0 2 3
      let base := (ent e 1 0 23 + s.slotK x.val 0 n.val % (ent e 3 0 12 + 1) * 64 * txFlits e) / 4
      s.rtrRuns x.val = true → s.halting (pgSYN x.val 0) = false →
      (∀ a, s.slotArm x.val n.val = some a → s.leaves x.val a (s.usedBefore x.val n.val) = true → (s.hdr (pgSPD x.val 0)).inj = 0 →
        ∃ (u t : State) (y : Xfer), exec (.txSlotSend x n .clean) s = .next t ∧
          (ent e 0 31 1 = 0 → t = u) ∧
          (ent e 0 31 1 = 1 → ∃ eng, t = ({ u with freeCtr := u.freeCtr + 1 } : State).signals x.val [⟨ctx, ent e 0 18 13, 1, eng, true⟩]) ∧
          u.obj x.val a = { s.obj x.val a with count := (s.obj x.val a).count - 1 } ∧
          u.buf x.val 4 = s.buf x.val 4 ++ [y] ∧ y.rid = ent e 3 20 9 ∧
          y.words = (List.range (16 * txFlits e)).map (fun i => s.spadWord x.val ((base + i) % spadWords)) ∧
          u.slotK x.val 0 n.val = s.slotK x.val 0 n.val + 1 ∧ SameMem s u) ∧
      ∀ v, s.slotOpen x.val n.val = true → s.slotLost x.val n.val = some v →
        ∃ t eng, exec (.txSlotSend x n .clean) s = .next t ∧ t.slotStopped x.val n.val = true ∧
          t = ({ s.setSlotK x.val 2 n.val 1 with freeCtr := s.freeCtr + 1 } : State).syncFault x.val ctx fSYNC eng v 0 9 false) ∧
    ∀ (x : Site) (y : Xfer) (l : List Xfer) (s : State), s.buf x.val 5 = y :: l →
      let e := s.entry x.val 1 y.rid
      let k := s.slotK x.val 1 y.rid % (ent e 2 0 12 + 1)
      let base := (ent e 1 0 23 + k * 64 * rxFlits e) / 4
      let hb := (ent e 3 0 23 + 16 * k) / 4
      let hs := if ent e 3 23 1 = 1 then y.hdrRecord else []
      (rxValid e = true → y.words.length = 16 * rxFlits e → base + 16 * rxFlits e ≤ spadWords → hb + 4 ≤ spadWords →
        s.copying x.val = false → s.injPend (pgRTR x.val 0) 11 = false →
        ∃ (u t : State) (eng : Nat), exec (.rxDelivery x) s = .next t ∧
          t = u.signals x.val [⟨ent e 0 1 3, ent e 0 4 13, ent e 0 17 8, eng, true⟩] ∧
          u.buf x.val 5 = l ∧ u.slotK x.val 1 y.rid = s.slotK x.val 1 y.rid + 1 ∧
          (∀ i w, hs[i]? = some w → u.spadWord x.val (hb + i) = ⟨w.v % 2 ^ 32, w.p⟩) ∧
          (∀ i w, y.words[i]? = some w → (base + i < hb ∨ hb + hs.length ≤ base + i) →
            u.spadWord x.val (base + i) = ⟨w.v % 2 ^ 32, w.p⟩) ∧
          (∀ a, (a < spadKey x.val (4 * base) ∨ spadKey x.val (4 * (base + 16 * rxFlits e)) ≤ a) →
            (a < spadKey x.val (4 * hb) ∨ spadKey x.val (4 * (hb + hs.length)) ≤ a) → memByte u.spad a = memByte s.spad a) ∧
          u.imem = s.imem ∧ u.dram = s.dram ∧ u.sync = s.sync) ∧
      (rxValid e = false → ∃ t, exec (.rxDelivery x) s = .next t ∧ bitOf (t.hdr (pgRTR x.val 0)).err 11 = true ∧
        SameMem s t ∧ t.sync = s.sync))

/-- ROUTER_STALL and ACCORD_ADD (R250, R253 to R255, R284): an output whose route entry passed nothing for 2^24 cycles, or at
which a memory data packet waited that long, sets STALL and records it; an accord node whose operands have all arrived, with
equal tokens and a bound key, forms their sum element by element and takes them from their buffers; an unbound key faults the
node's context.

WIRE_STEER, TBL_WRITE, TBL_READ and MAP_LOOKUP (R267, R271, Table 09.8): the routers at both ends of a link steer a wire to
the next free spare and record it; the staged data goes into the selected entry of a stopped router and is refused with WLOCK while it runs; the selected entry is
read back; the LTN to look up is held. -/
def Obligations.RoutersAndTheirTables : Prop :=
   ((∀ (x : Site) (o : Fin 5) (s : State), s.rtrRuns x.val = true →
      (∀ p, s.routeAt x.val o.val = some p → (∀ c, s.memSince x.val o.val = some c → p.last ≤ c) →
        ∃ t kind, exec (.routerStall x o) s = .next t ∧ (kind = 1 ∨ kind = 4) ∧ bitOf (t.hdr (pgRTR x.val 0)).err 10 = true ∧
          t.reg (pgRTR x.val 0) 0x04C =
            (o.val + p.entry * 2 ^ 3 + ent (s.entry x.val (3 + o.val) p.entry) 0 2 9 * 2 ^ 13 + kind * 2 ^ 22) % 2 ^ 32 ∧
          LogFrame { s with order := t.order, time := t.time, facets := t.facets } t) ∧
      ∀ c, s.memSince x.val o.val = some c → (∀ p, s.routeAt x.val o.val = some p → c < p.last) →
        ∃ t, exec (.routerStall x o) s = .next t ∧ bitOf (t.hdr (pgRTR x.val 0)).err 10 = true ∧
          t.reg (pgRTR x.val 0) 0x04C =
            (o.val + (s.orderPos x.val o.val).entry * 2 ^ 3 + 0x1FF * 2 ^ 13 + 2 ^ 22) % 2 ^ 32 ∧
          LogFrame { s with packets := t.packets, time := t.time, facets := t.facets } t) ∧
    ∀ (x : Site) (r : Fin 512) (h : Xfer) (rest : List Xfer) (p : OrderPos) (s : State),
      let e := s.entry x.val 2 r.val
      let o := ent e 0 2 3
      let ctx := ent e 2 28 3
      routeValid e = true → ent e 0 1 1 = 1 → s.rtrRuns x.val = true →
      skipOpen 2050 s x.val o (s.orderPos x.val o) = some p → ent (s.entry x.val (3 + o) p.entry) 0 1 1 = 0 →
      ent (s.entry x.val (3 + o) p.entry) 0 2 9 = r.val →
      (routeOps e).map (fun src => s.headOf x.val src r.val) = (h :: rest).map some →
      (s.buf x.val 7).any (fun y => y.rid == r.val) = false →
      (s.resolveKey x.val ctx h.keyIdx = none →
        ∃ t eng, exec (.accordAdd x r) s = .next t ∧
          t = ({ s.evtInfo x.val o p.entry r.val evKey 0 ctx with freeCtr := s.freeCtr + 1 } : State).ctxFault x.val ctx fKEY eng h.keyIdx) ∧
      ∀ key, s.resolveKey x.val ctx h.keyIdx = some key → s.injPend (pgRTR x.val 0) 11 = false →
        s.injPend (pgRTR x.val 0) 12 = false →
        (∀ y ∈ h :: rest, y.token = h.token ∧ y.keyIdx = h.keyIdx ∧ y.pstep = h.pstep ∧ y.badHdr = false ∧
          y.words.length = 16 * routeFlits e) →
        let sum := accordSum (seedOf key ⟨ent e 2 0 16, h.token, ent e 3 0 24, h.pstep, 0x04⟩) (ent e 2 16 12)
          ((h :: rest).map fun y => halves y.words)
        ∃ t, exec (.accordAdd x r) s = .next t ∧
          t.buf x.val 7 = s.buf x.val 7 ++ [{ h with words := joinHalves sum.1, rid := r.val }] ∧
          (∀ src ∈ routeOps e, t.buf x.val src = dropFirst (fun z => z.rid == r.val) (s.buf x.val src)) ∧
          (sum.2 = true → t.fld (pgRTR x.val 0) 0x048 0 1 = 1) ∧
          t = { s with inbuf := t.inbuf, regs := t.regs, hdrs := t.hdrs }) ∧
   (∀ (x : Site) (s : State),
      (∀ (d : Dir) w rest, (s.link x.val d.val).steer = w :: rest → s.fld (pgRTR x.val 2) (0x040 + 16 * d.val) 8 4 < 8 →
        ∃ t, exec (.wireSteer x d) s = .next t ∧
          t.fld (pgRTR x.val 2) (0x040 + 16 * d.val) 8 4 = s.fld (pgRTR x.val 2) (0x040 + 16 * d.val) 8 4 + 1 ∧
          t.reg (pgRTR x.val 2) (0x044 + 16 * d.val) = w % 2 ^ 32 ∧ bitOf (t.hdr (pgRTR x.val 0)).err 14 = true ∧
          (∀ n, neighbour x.val d.val = some n → t.reg (pgRTR n 2) (0x044 + 16 * oppositeDir d.val) = w % 2 ^ 32 ∧
            bitOf (t.hdr (pgRTR n 0)).err 14 = true) ∧
          (t.link x.val d.val).steer = rest ∧ (t.link x.val d.val).retired = (s.link x.val d.val).retired ++ [w] ∧
          LogFrame { s with links := t.links } t) ∧
      (∀ sel, s.tblSel x.val = some sel →
        let idx := s.fld (pgRTR x.val 3) 0x044 0 10
        (s.runs (pgRTR x.val 0) = false → sel ≠ 2 ∨ idx < 512 →
          ∃ t, exec (.tblWrite x) s = .next t ∧
            t.entry x.val sel idx = (List.range 4).map (fun i => s.reg (pgRTR x.val 3) (0x048 + 4 * i)) ∧
            (∀ i, i < 1024 → i ≠ idx → t.entry x.val sel i = s.entry x.val sel i) ∧
            t = { s with rtrTbl := t.rtrTbl, slotCtr := t.slotCtr }) ∧
        (s.runs (pgRTR x.val 0) = true ∨ (sel = 2 ∧ 512 ≤ idx) →
          ∃ t, exec (.tblWrite x) s = .next t ∧ (t.hdr (pgRTR x.val 3)).wlock = true ∧ t = { s with hdrs := t.hdrs }) ∧
        ∃ t, exec (.tblRead x) s = .next t ∧
          (∀ i : Fin 4, t.reg (pgRTR x.val 3) (0x048 + 4 * i.val) =
            nthD 0 (s.entry x.val sel (if sel = 2 then idx % 512 else idx)) i.val % 2 ^ 32) ∧
          SameRegsBut s t (fun p off => p = pgRTR x.val 3 ∧ 0x048 ≤ off ∧ off < 0x058) ∧ t = { s with regs := t.regs }) ∧
      ∀ v : Word, ∃ t, exec (.mapLookup x v) s = .next t ∧ t.reg (pgRTR x.val 1) 0x04C = v.toNat % 2 ^ 11 ∧
        SameRegsBut s t (fun p off => p = pgRTR x.val 1 ∧ off = 0x04C) ∧ t = { s with regs := t.regs })

/-- ROUTED_HOP and MCAST (R259 to R262): the packet whose turn it is goes along its row to its column, then along the column,
one router a hop, and is ejected at its destination; one whose DLTN is not the site's own becomes a LOSS of cause MOVED, a
request whose CRC fails one of cause 1, and one whose header check fails is discarded. A multicast of a class that no site
acts on at once is delivered at every site its branches reach from the corner nearest to its rectangle.

Routing by rows and columns (R259): from every site of the grid a packet for another site leaves by a port with a
neighbour, which is one step nearer; at its own site it leaves the network.

A routed packet's flits (R258): the header check and the CRC that a router forms hold of them, and the header holds every
field at its place. -/
def Obligations.RoutedPackets : Prop :=
   ((∀ (x : Site) (i ch : Nat) (p : Packet) (s : State),
      let o := p.outAt x.val
      (s.packetsAt x.val)[i]? = some p → channelOf p.ty = some ch → s.served4 x.val p ch = true →
      (∀ n, neighbour x.val o = some n → s.injPend (pgRTR n 0) 13 = false →
        (∃ t, exec (.routedHop x i .intact) s = .next t ∧
          t.packets = s.packets.erase p ++ [{ p with at_ := n, inPort := oppositeDir o, since := s.cyc n }] ∧
          t.rrLast x.val o ch = p.inPort ∧ SameMem s t ∧ t.tiles = s.tiles ∧ t.sync = s.sync) ∧
        (∃ t, exec (.routedHop x i .hchk) s = .next t ∧ t.packets = s.packets.erase p ∧
          bitOf (t.hdr (pgRTR n 0)).err 13 = true ∧ SameMem s t ∧ t.tiles = s.tiles ∧ t.sync = s.sync) ∧
        ∀ d, ch = 0 → s.requesterSite n p.req p.rsite = some d → ∃ t, exec (.routedHop x i .crc) s = .next t ∧
          t.packets = s.packets.erase p ++ [⟨tLOSS, n, 4, d, 0x7FF, p.req, p.tag, 1, p.rsite, 0, [], 4, s.cyc n⟩] ∧
          bitOf (t.hdr (pgRTR n 0)).err 13 = true ∧ SameMem s t ∧ t.tiles = s.tiles ∧ t.sync = s.sync) ∧
      (nextPort x.val p.dsite = none → ch ≠ 0 ∨ p.dltn = 0x7FF ∨ s.ltnOfSite x.val = some p.dltn →
        ∃ t, exec (.routedHop x i .intact) s = .next t ∧ t.rrLast x.val 4 ch = p.inPort ∧
          t = { s with packets := s.packets.erase p ++ [{ p with inPort := 5 }], rr := t.rr }) ∧
      (nextPort x.val p.dsite = none → ch = 0 → p.dltn ≠ 0x7FF → s.ltnOfSite x.val ≠ some p.dltn →
        ∀ d, s.requesterSite x.val p.req p.rsite = some d → ∃ t, exec (.routedHop x i .intact) s = .next t ∧
          t.packets = s.packets.erase p ++ [⟨tLOSS, x.val, 4, d, 0x7FF, p.req, p.tag, 2, p.rsite, 0, [], 4, s.cyc x.val⟩] ∧
          t = { s with packets := t.packets, regs := t.regs, rr := t.rr })) ∧
    ∀ (rect : Word) (cls : BitVec 8) (ws : List Word) (bad : List (Nat × Nat)) (s : State), cls ∉ [0x11, 0x12, 0x20] →
      (∀ c, s.mcastCorner rect.toNat = some c →
        ∃ t, exec (.mcast rect cls ws bad) s = .next t ∧
          t.delivered = s.delivered ++ (mcastReach (s.branch bad) c rect.toNat).1.map (fun x => (x, cls.toNat, ws.map (·.toNat))) ∧
          t = { s with delivered := t.delivered, regs := t.regs }) ∧
      (s.mcastCorner rect.toNat = none → exec (.mcast rect cls ws bad) s = .next s)) ∧
   (∀ a d : Site, let dist := fun u v : Nat => (colOf u - colOf v) + (colOf v - colOf u) + ((rowOf u - rowOf v) + (rowOf v - rowOf u))
      (nextPort a.val d.val = none ↔ a = d) ∧
      ∀ o, nextPort a.val d.val = some o → ∃ n, neighbour a.val o = some n ∧ n < 1296 ∧ dist n d.val + 1 = dist a.val d.val) ∧
   (∀ p : Packet, hchkHolds p.flits = true ∧ crcHolds p.flits = true ∧ p.flits.length = p.payload.length + 4 ∧
      bitsOf p.header 0 5 = p.ty % 2 ^ 5 ∧ bitsOf p.header 5 11 = p.dsite % 2 ^ 11 ∧ bitsOf p.header 16 11 = p.dltn % 2 ^ 11 ∧
      bitsOf p.header 27 11 = p.req % 2 ^ 11 ∧ bitsOf p.header 38 8 = p.tag % 2 ^ 8 ∧ bitsOf p.header 46 6 = p.payload.length ∧
      bitsOf p.header 52 3 = p.cause % 2 ^ 3 ∧ bitOf p.header 55 = p.rsite)

/-- MAP_STAGE, MAP_VERDICT, MAP_COMMIT and MAP_SWITCH (R264, R265): a router stages the copy of its map with the pairs applied
and sends its verdict to the nearest corner; a verdict that arrived there reaches firmware; a commit of the epoch staged with
verdict 0 is kept until its time, any other sets MAPERR and changes no map; at the time the staged copy becomes the map. -/
def Obligations.LtnMapSwitches : Prop :=
  ∀ (x : Site) (s : State), s.forwards x.val = true →
    let m := s.map x.val
    (∀ (epoch crc : Word) (pairs : List (Nat × Nat)), pairs.length ≤ 16 →
      let new := stageMap m.sites s.ltns pairs
      let v := mapVerdictOf m epoch.toNat new crc.toNat
      ∃ t, exec (.mapStage x epoch pairs crc) s = .next t ∧
        t.map x.val = { m with staged := some (epoch.toNat, new, v), commit := none } ∧
        t.reg (pgRTR x.val 1) 0x044 = 1 + v * 2 ∧ t.reg (pgRTR x.val 1) 0x048 = epoch.toNat ∧
        (∀ c, nearestCorner s.liveCorners x.val = some c → t.packets = s.packets ++
          [⟨tVERDICT, x.val, 4, c, 0x7FF, x.val, 0, 0, true, epoch.toNat, [⟨v, false⟩], 4, s.cyc x.val⟩]) ∧
        t = { s with maps := t.maps, regs := t.regs, packets := t.packets }) ∧
    (∀ p, s.packets.find? (fun q => q.ty == tVERDICT && q.req == x.val && q.inPort == 5) = some p →
      ∃ t, exec (.mapVerdict x) s = .next t ∧ (x.val, p.addr, (p.words.headD ⟨0, false⟩).v) ∈ t.verdicts ∧
        t = { s with packets := t.packets, verdicts := t.verdicts }) ∧
    (∀ (epoch : Word) (at_ : Nat),
      (∀ new, m.staged = some (epoch.toNat, new, 0) → s.injPend (pgRTR x.val 0) 15 = false → s.facetTime (facetOf x.val) ≤ at_ →
        ∃ t, exec (.mapCommit x epoch at_) s = .next t ∧ t.map x.val = { m with commit := some at_ } ∧
          t.reg64 (pgRTR x.val 1) 0x058 = at_ % 2 ^ 64 ∧ t = { s with maps := t.maps, regs := t.regs }) ∧
      ((∀ new, m.staged ≠ some (epoch.toNat, new, 0)) →
        ∃ t, exec (.mapCommit x epoch at_) s = .next t ∧ bitOf (t.hdr (pgRTR x.val 0)).err 15 = true ∧ LogFrame s t)) ∧
    ∀ e new v at_, m.staged = some (e, new, v) → m.commit = some at_ → ∃ t, exec (.mapSwitch x) s = .next t ∧
      t.map x.val = ⟨true, e, new, none, none⟩ ∧ t.reg (pgRTR x.val 1) 0x040 = e % 2 ^ 32 ∧ at_ ≤ t.time ∧
      t = { s with maps := t.maps, regs := t.regs, tiles := t.tiles, time := t.time, facets := t.facets }

/-- The interleaved view (R280): every byte of it lies in one logical channel at one offset, and every byte of every
channel at one address of it; the direct view is linear in each channel (R279). -/
def Obligations.BulkMemoryViewsAreBijective : Prop :=
  (∀ a, interBase ≤ a → a < interEnd →
    (lchOf a).1 < 376 ∧ (lchOf a).2 < 2 ^ 33 ∧ interOf (lchOf a).1 (lchOf a).2 = a) ∧
  (∀ lch off, lch < 376 → off < 2 ^ 33 →
    interBase ≤ interOf lch off ∧ interOf lch off < interEnd ∧ lchOf (interOf lch off) = (lch, off) ∧
    lchOf (directBase + lch * 2 ^ 33 + off) = (lch, off))

/-- MEM_REQ, MEMORY_DATA_PACKET, MCC_ADMIT and CHANNEL_MAP_UPDATE (R278, R281 to R290): a read request goes to the site of the
subchannel that the router's map names, and is refused where it names none; arrived there for the channel that the subchannel
holds, it joins its queue with its arrival number, and otherwise is answered with the update word; a data packet moves one
router on, and at its tile its words stand in the scratchpad; the controller admits the request of its next source while its
tags last; an update word changes an entry that equals OLD.

MCC_BURST (R283, R287, R288, R295, R296, R307) with no error: a write stores the words of the request that lie in the burst,
in the spare too while the subchannel is copied, and no byte outside those bursts, and gives the burst the poison signature
exactly when a word written whole is poisoned; the last burst of a read sends the words read to the requester, when the
router's memory port has room for them, frees the request's tags and changes no memory.

HOT_CHANNEL and PATROL_SCRUB (R292, R297): the condition that held 100,000 cycles sets HOT once; a scrub read takes the next
burst and changes no memory. -/
def Obligations.BulkMemoryTraffic : Prop :=
   (∀ (x : Site) (n : Mc) (s : State),
      (∀ (req tag offset words lch : Nat) (rsite : Bool), s.forwards x.val = true →
        let isIt := fun (p : Packet) => p.at_ == x.val && p.ty == tMEM && p.req == req && p.rsite == rsite && p.tag == tag &&
          p.inPort == 5
        (s.packets.find? isIt = none → s.mcOf x.val lch ≠ 0x1FF →
          req < 2040 ∨ rsite = true ∨ s.coreReqs req (s.mcOf x.val lch) < 16 →
          ∃ t, exec (.memReq x req rsite tag offset lch words) s = .next t ∧
            t = { s with packets := s.packets ++ [⟨tMEM, x.val, 4, siteOfMc (s.mcOf x.val lch), 0x7FF, req, tag, 0, rsite,
              memAddr (offset % 2 ^ 33) (s.mcOf x.val lch) lch (min 64 (max 1 words)), [], 4, s.cyc x.val⟩] }) ∧
        (s.packets.find? isIt = none → s.mcOf x.val lch = 0x1FF → ∀ d, s.requesterSite x.val req rsite = some d →
          ∃ t, exec (.memReq x req rsite tag offset lch words) s = .next t ∧
            t.packets = s.packets ++ [⟨tLOSS, x.val, 4, d, 0x7FF, req, tag, 3, rsite, 0, [], 4, s.cyc x.val⟩] ∧
            t = { s with packets := t.packets, regs := t.regs }) ∧
        ∀ p, s.packets.find? isIt = some p → bitsOf p.addr 33 9 = n.val → s.mcSt n.val = stACTIVE →
          s.enabled (pgMCC n.val) = true → s.injPend pgSVC 9 = false →
          2040 ≤ req ∨ bitsOf p.addr 0 33 + 4 * bitsOf p.addr 51 6 < 2 ^ 33 - s.fld pgSVC 0x04C 0 10 * 2 ^ 20 →
          (bitsOf p.addr 42 9 = s.mcLch n.val → (s.mcc n.val).queue.length < 1024 →
            ∃ t src, exec (.memReq x req rsite tag offset lch words) s = .next t ∧
              (t.mcc n.val).queue = (s.mcc n.val).queue ++ [⟨req, rsite, tag, bitsOf p.addr 0 33, bitsOf p.addr 51 6 + 1, none, src,
                (s.mcc n.val).arrivals, [], [], 0⟩] ∧
              (t.mcc n.val).arrivals = (s.mcc n.val).arrivals + 1 ∧ (t.mcc n.val).admitted = (s.mcc n.val).admitted ∧
              t = { s with packets := dropFirst isIt s.packets, mccs := t.mccs, regs := t.regs }) ∧
          (bitsOf p.addr 42 9 ≠ s.mcLch n.val → ∀ d, s.requesterSite (siteOfMc n.val) req rsite = some d →
            let w := updateWord (bitsOf p.addr 42 9) n.val (s.holderOf (bitsOf p.addr 42 9))
            ∃ t, exec (.memReq x req rsite tag offset lch words) s = .next t ∧
              t.packets = dropFirst isIt s.packets ++ [⟨tLOSS, siteOfMc n.val, 4, d, 0x7FF, req, tag, 2, rsite, 0, [⟨w, false⟩], 4,
                s.cyc (siteOfMc n.val)⟩] ∧
              t = { s with packets := t.packets, regs := t.regs })) ∧
      (∀ (i : Nat) (p : Packet) (pos : Option OrderPos),
        let here := s.packets.filter fun q => q.at_ == x.val && q.ty == tDATA
        here[i]? = some p → s.rtrRuns x.val = true → (here.take i).any (fun q => q.buf == p.buf && p.buf < 4) = false →
        s.openAt x.val (memOut x.val p.dsite p.req p.kind) = some pos →
        (∀ o r, nextPort x.val p.dsite = some o → neighbour x.val o = some r → s.forwards r = true →
          (s.link r (oppositeDir o)).readyLow = false → s.portRoom r (oppositeDir o) p.dataFlits = true →
          (s.hdr (pgRTR r 0)).inj = 0 → s.linkFailed r (oppositeDir o) = false →
          ∃ t, exec (.memoryDataPacket x i [] []) s = .next t ∧
            t.packets = s.packets.erase p ++
                [{ p with at_ := r, inPort := 8 + memOut r p.dsite p.req p.kind, buf := oppositeDir o, since := s.cyc r }] ∧ SameMem s t ∧ t.tiles = s.tiles) ∧
        (∀ g y, nextPort x.val p.dsite = none → p.kind = 1 → p.tag < 128 → s.dtag x.val p.tag = some g →
          g.writing = false → g.req.gen = false → (s.dmx x.val (p.tag / 64)).xfer g.entry = some y → g.req.dspace = .own →
          s.injPend (pgSPD x.val 0) 8 = false → s.copying x.val = false → g.req.daddr / 4 + p.words.length ≤ spadWords →
          ∃ t, exec (.memoryDataPacket x i [] []) s = .next t ∧
            (∀ j w, p.words[j]? = some w → t.spadWord x.val (g.req.daddr / 4 + j) = ⟨w.v % 2 ^ 32, w.p⟩) ∧
            (∀ h ∈ (t.dmx x.val (p.tag / 64)).tags, h.tag ≠ g.tag) ∧ t.packets = s.packets.erase p ∧ t.dram = s.dram ∧ t.sync = s.sync)) ∧
      (∀ src q, s.mcServes n.val = true → s.halting (pgMCC n.val) = false → s.retraining n.val = false →
        (s.mcc n.val).nextSrc = some src → (s.mcc n.val).queue.find? (fun r => r.src == src) = some q →
        (s.mcc n.val).tags + (burstsOf q.offset q.words).length ≤ 192 →
        ∃ t, exec (.mccAdmit n) s = .next t ∧
          (t.mcc n.val).admitted = (s.mcc n.val).admitted ++ [{ q with left := burstsOf q.offset q.words }] ∧
          (t.mcc n.val).queue = (s.mcc n.val).queue.filter (fun r => r.seq != q.seq) ∧ (t.mcc n.val).lastSrc = q.src ∧
          t = { s with mccs := t.mccs, regs := t.regs }) ∧
      ∀ lch old new : BitVec 9, s.forwards x.val = true → (s.chanMap x.val).length = 376 →
        ∃ t, exec (.channelMapUpdate x lch old new) s = .next t ∧
          (∀ c, t.mcOf x.val c =
            if c = lch.toNat ∧ lch.toNat < 376 ∧ (old = 0x1FF ∨ s.mcOf x.val lch.toNat = old.toNat) then new.toNat else s.mcOf x.val c) ∧
          t = { s with chanMaps := t.chanMaps, delivered := t.delivered }) ∧
   (∀ (n : Mc) (i b : Nat) (q : MemReq) (rest : List Nat) (s : State), (s.mcc n.val).admitted[i]? = some q → q.left = b :: rest →
      (s.mcc n.val).blocked q b = false → (s.hdr (pgMCC n.val)).inj = 0 → b < 2 ^ 28 →
      let site := siteOfMc n.val
      (∀ data, q.data = some data →
        let d := if s.mcSt n.val = stSRC then s.mcPartner n.val else n.val
        ∃ t, exec (.mccBurst n i .clean) s = .next t ∧
          (∀ m, m = n.val ∨ m = d →
            (∀ e ∈ wordsIn q b, ∀ w, data[e.2]? = some w → memWord t.dram (dramKey m (32 * b + 4 * e.1)) = w.v % 2 ^ 32) ∧
            ((wordsIn q b).length = 8 → data.length = q.words →
              t.burstClean m b = (wordsIn q b).all fun e => !(nthD (PWord.mk 0 true) data e.2).p)) ∧
          (∀ a, (∀ m, m = n.val ∨ m = d → a < dramKey m (32 * b) ∨ dramKey m (32 * b) + 32 ≤ a) → memByte t.dram a = memByte s.dram a) ∧
          t.spad = s.spad ∧ t.imem = s.imem ∧ t.sync = s.sync ∧ t.tiles = s.tiles) ∧
      (q.data = none → rest = [] → s.forwards site = true → ∀ d, s.requesterSite site q.req q.rsite = some d →
        let ws := ((q.got ++ (wordsIn q b).map fun e => (e.2, nthD (PWord.mk 0 true) (s.burstWords n.val b) e.1)).mergeSort
          fun u v => u.1 ≤ v.1).map (·.2)
        let p := memPacket site d q.req q.tag 1 n.val q.offset ws (memDir site) (s.cyc site)
        s.portRoom site (memDir site) p.dataFlits = true →
        ∃ t, exec (.mccBurst n i .clean) s = .next t ∧ t.packets = s.packets ++ [p] ∧
          (t.mcc n.val).admitted.all (fun r => r.seq != q.seq) = true ∧
          SameMem s t ∧ t.dramClean = s.dramClean ∧ t.tiles = s.tiles)) ∧
   (∀ (n : Mc) (s : State),
      (∀ c, (s.mcc n.val).hotSince = some c → (s.mcc n.val).hotDone = false →
        ∃ t, exec (.hotChannel n) s = .next t ∧ (t.mcc n.val).hotDone = true ∧ bitOf (t.hdr (pgMCC n.val)).err 13 = true ∧
          LogFrame { s with mccs := t.mccs, time := t.time, facets := t.facets } t) ∧
      (s.flag (pgMCC n.val) 0x040 0 = true → s.enabled (pgMCC n.val) = true → s.halting (pgMCC n.val) = false →
        s.retraining n.val = false → stSPARE ≤ s.mcSt n.val → s.mcSt n.val < stRETIRED → (s.hdr (pgMCC n.val)).inj = 0 →
        ∃ t, exec (.patrolScrub n .clean) s = .next t ∧ (t.mcc n.val).scrub = ((s.mcc n.val).scrub + 1) % 2 ^ 28 ∧
          (s.mcc n.val).scrubAt + scrubStep (s.fld (pgMCC n.val) 0x040 4 8) ≤ t.time ∧ SameMem s t ∧ t.dramClean = s.dramClean))

/-- TRAINING_COMPLETE, RETRAIN and RETRAIN_COMPLETE (R300, R303, R304): every live subchannel that passed is SPARE with every burst
carrying the poison signature, one that did not is DISABLED; a retrain marks a serving subchannel, and ends with its mark
cleared and one more counted.

RETIRE, RETIREMENT_START, COPY_COMPLETE and FORWARD_EXPIRY (R302, R305 to R307, Table 10.6): a retired subchannel waits, copies to
the spare chosen for it, which takes its channel; at the end of the copy the spare is ACTIVE and holds every byte, and the
subchannel forwards for 1 ms and is RETIRED; one that is retired while it receives a copy gives its partner back. Where the
copies of a job's only golden granule come to lie in one facet, copy B moves to an address given for it (R358). -/
def Obligations.SubchannelLife : Prop :=
   ((∀ (p : Pkg) (p14 p12 : BitVec 8) (dram : Word) (ranks : Fin 4) (s : State), s.enabled (pgMPH p.val) = true →
      s.flag (pgMPH p.val) 0x044 0 = false → s.flag (pgMPH p.val) 0x040 0 = true →
      s.injPend (pgMPH p.val) 11 = false →
      ∃ t, exec (.trainingComplete p true p14 p12 dram ranks) s = .next t ∧
        (∀ k, k < 8 → s.mcLive (8 * p.val + k) = true →
          (bitOf p14.toNat k = true ∨ bitOf p12.toNat k = true →
            t.mcSt (8 * p.val + k) = stSPARE ∧ t.mcLch (8 * p.val + k) = 0x1FF ∧ ∀ b, b < 2 ^ 28 → t.burstClean (8 * p.val + k) b = false) ∧
          (bitOf p14.toNat k = false → bitOf p12.toNat k = false → t.mcSt (8 * p.val + k) = stDISABLED)) ∧
        t.reg (pgMPH p.val) 0x04C = dram.toNat % 2 ^ 28 ∧ t.flag (pgMPH p.val) 0x044 0 = true ∧ t.spad = s.spad ∧ t.imem = s.imem) ∧
    (∀ (p : Pkg) (k : Fin 8) (s : State), s.mcSt (8 * p.val + k.val) = stACTIVE ∨ s.mcSt (8 * p.val + k.val) = stSPARE →
      ∃ t, exec (.retrain p (BitVec.ofNat 8 (2 ^ k.val))) s = .next t ∧ t.retraining (8 * p.val + k.val) = true ∧
        bitOf (t.hdr (pgMPH p.val)).err 9 = true ∧ LogFrame s t) ∧
    ∀ (n : Mc) (s : State), s.retraining n.val = true → (s.mcc n.val).admitted = [] →
      ∃ t, exec (.retrainComplete n true) s = .next t ∧ t.retraining n.val = false ∧ (t.mcc n.val).corr = [] ∧
        t.reg64 (pgMPH (pkgOfMc n.val)) 0x050 = (s.reg64 (pgMPH (pkgOfMc n.val)) 0x050 + 1) % 2 ^ 64 ∧
        t = { s with regs := t.regs, mccs := t.mccs }) ∧
   (∀ (n : Mc) (s : State),
      (s.enabled (pgMCC n.val) = true → s.mcSt n.val = stACTIVE → n.val ∉ s.retireQ → (s.chooseSpare n.val).isSome = true →
        s.mcLive n.val = true → s.injPend (pgMCC n.val) 12 = false →
        ∃ t, exec (.retire n) s = .next t ∧ t.retireQ = s.retireQ ++ [n.val] ∧ t.flag (pgMCC n.val) 0x044 4 = true ∧
          t = { s with retireQ := t.retireQ, regs := t.regs }) ∧
      (s.enabled (pgMCC n.val) = false → s.mcLive n.val = true → s.mcSt n.val ∉ [stSRC, stDST, stFORWARD] →
        ∃ t, exec (.retire n) s = .next t ∧ t.mcSt n.val = stRETIRED ∧ t.mcLch n.val = 0x1FF ∧ t.mcPartner n.val = 0x1FF ∧
          (t.mcc n.val).lastLch = s.mcLch n.val ∧ t.mcLive n.val = false ∧ SameMem s t) ∧
      (s.mcSt n.val = stDST → s.mcLive n.val = true → s.mcPartner n.val < 384 → s.mcPartner n.val ≠ n.val →
        ∃ t, exec (.retire n) s = .next t ∧ t.mcSt n.val = stRETIRED ∧ t.mcSt (s.mcPartner n.val) = stACTIVE ∧
          (t.mcc (s.mcPartner n.val)).copyAt = none ∧ SameMem s t) ∧
      (∀ l d, s.retireQ = n.val :: l → (s.mcsIn stSRC).length < 4 → s.mcSt n.val = stACTIVE → s.chooseSpare n.val = some d →
        (s.blk (blkOf (pgMCC n.val))).haltReq = false → (s.blk (blkOf (pgMCC d))).haltReq = false →
        ∃ t, exec .retirementStart s = .next t ∧ t.mcSt n.val = stSRC ∧ t.mcPartner n.val = d ∧ t.mcSt d = stDST ∧
          t.mcPartner d = n.val ∧ t.mcLch d = s.mcLch n.val ∧ (t.mcc n.val).copyAt = some s.time ∧ t.retireQ = l ∧ SameMem s t) ∧
      (∀ c, (s.mcc n.val).copyAt = some c → s.mcSt n.val = stSRC → (s.mcc n.val).admitted = [] →
        s.mcPartner n.val < 384 → s.mcPartner n.val ≠ n.val →
        let d := s.mcPartner n.val
        (∀ place, ∃ t, exec (.copyComplete n [] place) s = .next t ∧
          c + (s.copyTime n.val + (s.mcc n.val).copyLate - (s.mcc n.val).copyGone) ≤ t.time ∧ t.spad = s.spad ∧ t.imem = s.imem ∧
          (s.job = none → t.job = none)) ∧
        ∀ place, s.job = none ∨ place = [] → ∃ t, exec (.copyComplete n [] place) s = .next t ∧ t.mcSt n.val = stFORWARD ∧ t.mcSt d = stACTIVE ∧
          (∀ o, o < 2 ^ 33 → memByte t.dram (dramKey d o) = memByte s.dram (dramKey n.val o)) ∧
          (∀ b, b < 2 ^ 28 → t.burstClean d b = s.burstClean n.val b) ∧
          (∀ a, a < dramKey d 0 ∨ dramKey (d + 1) 0 ≤ a → memByte t.dram a = memByte s.dram a) ∧
          c + (s.copyTime n.val + (s.mcc n.val).copyLate - (s.mcc n.val).copyGone) ≤ t.time ∧ t.spad = s.spad ∧ t.imem = s.imem) ∧
      (∀ c a b w p, (s.mcc n.val).copyAt = some c → s.mcSt n.val = stSRC → (s.mcc n.val).admitted = [] →
        s.mcPartner n.val < 384 → s.mcPartner n.val ≠ n.val →
        let u := s.copyComplete n []
        u.goldGranules = [(a, b, w)] → u.sameFacet a (u.goldB b) = true → p % 256 = 0 → b % 256 = 0 → (u.placeOf p).1 < 384 →
        u.sameFacet a p = false → (lchOf p).1 ≠ (lchOf (u.goldB b)).1 →
        ∃ t, exec (.copyComplete n [] [p]) s = .next t ∧ t.goldB b = p ∧ t.spad = s.spad ∧ t.imem = s.imem) ∧
      ∀ c, (s.mcc n.val).forwardAt = some c → s.mcSt n.val = stFORWARD →
        ∃ t, exec (.forwardExpiry n) s = .next t ∧ t.mcSt n.val = stRETIRED ∧ t.mcLch n.val = 0x1FF ∧ t.mcPartner n.val = 0x1FF ∧
          c + msec ≤ t.time ∧ (t.mcc n.val).forwardAt = none ∧
          (t.mcc n.val).lastLch = s.mcLch n.val ∧ t.mcLive n.val = false ∧
          t = { s with regs := t.regs, mccs := t.mccs, blks := t.blks, time := t.time, facets := t.facets })

/-- Firmware's reads and writes of bulk memory through the channel map (R280, R296): a whole burst written clean to a backed
channel that is not being copied reads back as written, and bytes of other subchannels stay. -/
def Obligations.BulkMemoryReadsBackWrites : Prop :=
  ∀ (a : Nat) (ws : List Nat) (s : State), interBase ≤ a → a < interEnd → a % 32 = 0 → ws.length = 8 →
    let n := s.holderOf (lchOf a).1
    n ≠ 0x1FF → s.mcSt n ≠ stSRC →
    (∀ i w, ws[i]? = some w → (s.memSet a ws).memGet (a + 4 * i) = ⟨w % 2 ^ 32, false⟩) ∧
    (∀ k, k < dramKey n 0 ∨ dramKey (n + 1) 0 ≤ k → memByte (s.memSet a ws).dram k = memByte s.dram k) ∧
    s.memSet a ws = { s with dram := (s.memSet a ws).dram, dramClean := (s.memSet a ws).dramClean, regs := (s.memSet a ws).regs }

/-- OPEN and OPEN_ACK (R313, R316, R317, R332): a Cache module opens a sequence in its lowest free slot and answers OK with it, and
answers 0x06 for another JOBHASH, changing nothing; an answer is recorded with its request while others are missing.

CLOSE, the end of a close, and CLOSE_ACK (R316, R336): the named open sequence is marked closing and its answer is owed; once
no query of it is left its entry is free and CLOSE_ACK is sent; an answer clears what the slot waits for. -/
def Obligations.SequencesOpenAndClose : Prop :=
   (∀ (job : Job) (s : State), s.job = some job → s.pairSt = 0 →
      (∀ src seq hash j ns mtag : Nat, job.cfg.role = 3 →
        (∀ n, hash = job.cfg.hash → s.openSlot job.cfg seq = none → s.freeSeqSlot job.cfg = some n →
          ∃ t, exec (.open src seq hash j ns mtag) s = .next t ∧ t.dram = (s.setSeqEnt job.cfg n ⟨seq, 1, j, ns, 0, 0⟩).dram ∧
            t.outbox = s.outbox ++ [⟨.fabric src, "SEQ_CTL", seqCtl seq hash 2 0 j ns n mtag⟩] ∧
            (∃ b ∈ t.binds, b.seq = seq ∧ b.opened = true) ∧
            t = { s with dram := t.dram, dramClean := t.dramClean, regs := t.regs, hdrs := t.hdrs, binds := t.binds, outbox := t.outbox }) ∧
        (hash ≠ job.cfg.hash → ∃ t, exec (.open src seq hash j ns mtag) s = .next t ∧
          t = { s with outbox := s.outbox ++ [⟨.fabric src, "SEQ_CTL", seqCtl seq hash 2 6 j ns 0 mtag⟩] })) ∧
      ∀ (mtag status cslot : Nat) (m : Msg) (r : Req), job.cfg.role = 1 ∨ job.cfg.role = 2 →
        s.msgs.find? (fun x => x.tag == mtag && x.kind == 1) = some m → s.reqAt m.slot = some r →
        (r.answers.set m.a (some (status, cslot))).all Option.isSome = false →
        ∃ t, exec (.openAck mtag status cslot) s = .next t ∧
          t.reqAt m.slot = some { r with answers := r.answers.set m.a (some (status, cslot)) } ∧
          (∀ x ∈ t.msgs, ¬(x.tag = mtag ∧ x.kind = 1)) ∧ t = { s with msgs := t.msgs, reqs := t.reqs }) ∧
   (∀ (job : Job) (s : State), s.job = some job → s.pairSt = 0 →
      (∀ src seq cslot mtag j ns : Nat, job.cfg.role = 3 → s.seqOpen job.cfg cslot seq = true →
        ∃ t, exec (.close src seq cslot mtag j ns) s = .next t ∧ t.closes = s.closes ++ [(cslot, src, mtag)] ∧
          t.dram = (s.setSeqEnt job.cfg cslot { s.seqEnt job.cfg cslot with st := 2 }).dram ∧
          t = { s with dram := t.dram, dramClean := t.dramClean, regs := t.regs, hdrs := t.hdrs, closes := t.closes }) ∧
      (∀ cslot x src mtag : Nat, s.closes.find? (fun c => c.1 == cslot) = some (x, src, mtag) →
        s.heldQ.any (fun h => h.query.cslot == cslot) = false →
        let e := s.seqEnt job.cfg cslot
        ∃ t, exec (.closeComplete cslot) s = .next t ∧ t.closes = s.closes.filter (fun c => c.1 != cslot) ∧
          t.outbox = s.outbox ++ [⟨.fabric src, "SEQ_CTL", seqCtl e.seq job.cfg.hash 4 0 e.j e.ns cslot mtag⟩] ∧
          (e.dirLen = 0 → t.dram = (s.setSeqEnt job.cfg cslot ⟨0, 0, 0, 0, 0, 0⟩).dram) ∧ t.spad = s.spad ∧ t.imem = s.imem) ∧
      ∀ (mtag : Nat) (m : Msg), job.cfg.role = 1 ∨ job.cfg.role = 2 → s.msgs.find? (fun x => x.tag == mtag && x.kind == 3) = some m →
        ∃ t, exec (.closeAck mtag) s = .next t ∧ t.msgs = s.msgs.filter (fun x => x.tag != mtag || x.kind != 3) ∧
          (t.msgs.any (fun x => x.slot == m.slot && (x.kind == 3 || x.kind == 1)) = false → ∀ r ∈ t.reqs, r.slot = m.slot → r.st ≠ .closing) ∧
          t = { s with msgs := t.msgs, reqs := t.reqs })

/-- PAGE and PAGE_ACK (R299, R323, R324, R335, Table 11.8): a Cache module takes a free page with its next generation, waits the 30 ms of
R299 and answers OK, and answers 0x02 for a sequence that is not open, changing nothing; an acknowledged span is no longer
missing, and POOL_FULL ends its request.

QUERY and PARTIAL (R82, R339, R340, R343, R347, R517): a Cache module answers a query with its records 20 µs after it ends, holds
one with a poisoned record, starts none whose attention key is not bound, and answers one it cannot run with its status; a Generation module keeps the records of a shard, and
ends the sequence of a failed answer. -/
def Obligations.PagesAndQueries : Prop :=
   (∀ (job : Job) (s : State), s.job = some job → s.pairSt = 0 →
      (∀ (src seq span slot layer hg fmt nh ptag len : Nat) (data : List PWord), job.cfg.role = 3 →
        (∀ ent a u, s.seqOpen job.cfg slot seq = true → job.cfg.pageFits layer hg fmt nh len = true →
          s.pageOf job.cfg slot layer hg span = none → s.makePtEnt job.cfg slot layer hg span = some (ent, u) →
          u.allocPage job.cfg = some a →
          ∃ t, exec (.page src seq span slot layer hg fmt nh ptag len data) s = .next t ∧ t.pages = s.pages ++ [a] ∧
            t.lastGen a = nextGen (s.lastGen a) ∧ t.time = s.time + genWait ∧
            t.outbox = s.outbox ++ [⟨.fabric src, "PAGE_ACK", pageAck seq span ptag layer hg 0⟩] ∧
            t.spad = s.spad ∧ t.imem = s.imem ∧ t.binds = s.binds) ∧
        (s.seqOpen job.cfg slot seq = false → ∃ t, exec (.page src seq span slot layer hg fmt nh ptag len data) s = .next t ∧
          t = { s with outbox := s.outbox ++ [⟨.fabric src, "PAGE_ACK", pageAck seq span ptag layer hg 2⟩] })) ∧
      ∀ (ptag : Nat) (m : Msg) (r : Req), s.msgs.find? (fun x => x.tag == ptag && (x.kind == 5 || x.kind == 6)) = some m →
        m.kind = 5 → s.reqAt m.slot = some r →
        job.cfg.role = 2 ∨ (job.cfg.role = 1 ∧ r.handoff = false ∧ r.hand = none) →
        (∃ t q, exec (.pageAck ptag 0) s = .next t ∧ t.reqAt m.slot = some q ∧
          q.missing = r.missing.filter (fun e => e != (m.a, m.layer, m.hg)) ∧ q.tail = r.tail ∧ q.tokens = r.tokens ∧
          t.msgs = s.msgs.filter (fun x => x.tag != ptag || (x.kind != 5 && x.kind != 6)) ∧ t.spad = s.spad ∧ t.imem = s.imem) ∧
        ∃ t, exec (.pageAck ptag 3) s = .next t ∧ t.reqAt m.slot = none ∧ t.spad = s.spad ∧ t.imem = s.imem) ∧
   (∀ (job : Job) (s : State), s.job = some job → s.serving = true →
      (∀ q : Query, job.cfg.role = 3 →
        let j := (s.seqEnt job.cfg q.cslot).j
        (∀ st, s.queryRecords job.cfg q false = .error st → ∃ t, exec (.query q) s = .next t ∧
          t = { s with outbox := s.outbox ++ [⟨.fabric q.src, "PARTIAL", partialMsg q st j []⟩] }) ∧
        (∀ recs os, s.queryRecords job.cfg q false = .ok (recs, os) →
          (s.attnBound (job.cfg.layer q.layer) = false → exec (.query q) s = .next s) ∧
          (s.attnBound (job.cfg.layer q.layer) = true → recs.any (·.2) = false → ∃ t, exec (.query q) s = .next t ∧
            t.outbox = s.outbox ++ [⟨.fabric q.src, "PARTIAL", partialMsg q 0 j recs⟩] ∧ t.time = s.time + 20 * usec ∧
            SameMem s t ∧ t.dramClean = s.dramClean) ∧
          (s.attnBound (job.cfg.layer q.layer) = true → recs.any (·.2) = true → ∃ t, exec (.query q) s = .next t ∧
            t.outbox = s.outbox ∧ (∃ h ∈ t.heldQ, h.query = q ∧ h.since = s.time) ∧
            t = { s with binds := t.binds, heldQ := t.heldQ, regs := t.regs }))) ∧
      ∀ (mtag : Nat) (records : List (List Nat × Bool)) (m : Msg), job.cfg.role = 2 →
        s.msgs.find? (fun x => x.tag == mtag && x.kind == 7) = some m →
        (∃ t, exec (.partial_ mtag 0 records) s = .next t ∧
          (∀ a ∈ s.attns, a.slot = m.slot → a.layer = m.layer → ∃ b ∈ t.attns, b.want = a.want.filter (· != m.a) ∧
            b.parts = a.parts ++ [(m.a, records)] ∧ (b.want = [] → b.out.isSome = true)) ∧
          (∀ a ∈ s.attns, a.slot ≠ m.slot ∨ a.layer ≠ m.layer → a ∈ t.attns) ∧ t = { s with msgs := t.msgs, attns := t.attns, regs := t.regs }) ∧
        ∃ t, exec (.partial_ mtag 7 records) s = .next t ∧ t.reqAt m.slot = none ∧ t.spad = s.spad ∧ t.imem = s.imem)

/-- HANDOFF and a reply that does not come (R327, R339): a Generation module takes the state and the first token of a handed
over sequence; a message without its reply is sent again, and a QUERY sent four times in vain ends its sequence.

WORK_ISSUE, STEP_END and PREFILL_CHUNK (R318, R319, R323, R325 to R327, R467, R468, R517): a part that passes the budget's test
is issued with the records of its rows, and admissions wait when the test fails; a step's token is sampled from the logits of
its row and appended, and its row joins the tail; after the last chunk of a prompt, once every PAGE to a shard is
acknowledged, a HANDOFF goes to every Generation module. -/
def Obligations.HandoffsAndSteps : Prop :=
   (∀ (job : Job) (s : State), s.job = some job →
      (∀ (h : Handoff) (r : Req), job.cfg.role = 2 → s.reqAt h.slot = some r → r.seq = h.seq → r.handoff = false → r.st ≠ .live →
        bitOf r.flags 0 = false →
        ∃ t q, exec (.handoff h) s = .next t ∧ t.reqAt h.slot = some q ∧ q.handoff = true ∧ q.t = h.p ∧ q.ns = h.p / 64 ∧
          q.tail = h.tail ∧ q.last = tokenOf h.first ∧ q.tokens = r.tokens ++ [(h.p, h.first)] ∧ SameMem s t) ∧
      ∀ (tag : Nat) (m : Msg), s.msgs.find? (fun x => x.tag == tag) = some m →
        (m.sends < 4 → ∃ t n, exec (.replyTimeout tag) s = .next t ∧ t.outbox = s.outbox ++ [⟨.fabric m.dest, n, m.words⟩] ∧
          m.at_ + job.cfg.timeout.getD (50 * msec) ≤ t.time ∧
          t = { s with msgs := t.msgs, outbox := t.outbox, time := t.time, facets := t.facets } ∧
          t.msgs = s.msgs.map fun x => if x.tag == tag then { x with sends := x.sends + 1, at_ := t.time } else x) ∧
        (4 ≤ m.sends → m.kind = 7 → ∃ t, exec (.replyTimeout tag) s = .next t ∧ t.reqAt m.slot = none ∧ m.at_ + job.cfg.timeout.getD (50 * msec) ≤ t.time)) ∧
   (∀ (job : Job) (s : State), s.job = some job → s.pairSt = 0 →
      (∀ (w : SeqWork) (ps : List PhaseUse) (duration : Nat) (r : Req), job.cfg.role = 2 → s.stagesRun = true →
        s.workOk job.cfg [w] = [w] → s.fits job.cfg ps duration (workRows [w]) (workRows [w]) = true → s.reqAt w.slot = some r →
        ∃ t q, exec (.workIssue 0 [w] ps duration) s = .next t ∧ t.reqAt w.slot = some q ∧
          q = { r with step := some ⟨r.t, w.drafts, w.kv, r.rowMeta r.t w.kv.length, s.time, false, false, 0⟩ } ∧
          t = { s with reqs := t.reqs, attns := t.attns, msgs := t.msgs, outbox := t.outbox, tagCtr := t.tagCtr, regs := t.regs }) ∧
      (∀ (ps : List PhaseUse) (duration : Nat), s.fits job.cfg ps duration 1 1 = false →
        ∃ t, exec (.workIssue 2 [] ps duration) s = .next t ∧ t = { s with ctl := { s.ctl with deferAdm := true } }) ∧
      (∀ (slot : Nat) (x : Logits) (r : Req) (st : SeqStep), job.cfg.role = 2 → s.reqAt slot = some r → r.step = some st →
        st.bad = false → st.again = false → st.drafts = [] → st.kv.length = 1 → bitOf r.flags 0 = false → r.tail.length < 63 →
        s.attns.any (fun a => a.slot == slot && (a.out.isNone || (a.out.getD []).any (·.2))) = false →
        (x.ls.any fun l => bitOf l 16) = false →
        let v := (r.sample x (r.t + 1) 0).1.v
        ∃ t q, exec (.stepEnd [(slot, [x])]) s = .next t ∧ t.reqAt slot = some q ∧
          q.tokens = r.tokens ++ [(st.pos + 1, v)] ∧ q.t = st.pos + 1 ∧ q.last = tokenOf v ∧ q.tail = r.tail ++ st.kv ∧
          q.step = none ∧ t = { s with reqs := t.reqs, attns := t.attns, regs := t.regs }) ∧
      ∀ (slot : BitVec 8) (x : Logits) (gslots : List (BitVec 12)) (r : Req) (st : SeqStep), job.cfg.role = 1 →
        s.reqAt slot.toNat = some r → r.step = some st → st.bad = false → st.again = false →
        (st.kv.any fun row => row.any fun e => bitOf e 16) = false → s.pagesBad job.cfg r = false → st.kv.length < 64 →
        r.chunk + st.kv.length = r.nprompt → (x.ls.any fun l => bitOf l 16) = false →
        let v := (r.sample x r.nprompt 0).1.v
        invalidTok v = false →
        (s.msgs.any (fun m => m.slot == r.slot && m.kind == 5) = true →
          ∃ t q, exec (.prefillChunk slot x gslots) s = .next t ∧ t.reqAt slot.toNat = some q ∧
            q.hand = some (v, gslots.map (·.toNat)) ∧ q.chunk = r.nprompt ∧ q.tail = st.kv ∧ q.step = none ∧ q.local_ = [] ∧
            t.outbox = s.outbox ∧ t.time = s.time + 20 * usec ∧ t.spad = s.spad ∧ t.imem = s.imem) ∧
        (s.msgs.any (fun m => m.slot == r.slot && m.kind == 5) = false →
          ∃ t, exec (.prefillChunk slot x gslots) s = .next t ∧
            (∀ i, i < r.ngen → ∃ m ∈ t.outbox, m.chan = .fabric (r.gen i) ∧ m.kind = "HANDOFF") ∧ t.spad = s.spad ∧ t.imem = s.imem))

/-- SUBSTITUTION_TRIGGER and SCREENING_SWAP (R363 to R365, R375): a trigger at a site out of service is only recorded; a spare site goes
out of service and leaves every record; a bound site is retired and the sequencers of its stage are asked to halt; a
screening swap asks the same of a stage whose site stays in service.

SUBST_SWITCH and SUBST_REPLAY_END (R264, R365): with the stage drained and the candidate restored, every router that forwards
takes the map with the LTN at the candidate's site, and the stage replays; where a router's verdict is not 0 no router changes
its map; after the replay its MXAs take new work and it
runs.

GOLDEN_CHECK, VARIANT_SWITCH and URGENT_REPLACEMENT (R359, R371 to R373): golden copies that all verify stay as they are;
a variant whose restores hold becomes the placement with every stage running; without a placement the stage is lost, the cause is set and
every request ends; a repaired record takes the new candidate last, up to four. -/
def Obligations.Substitutions : Prop :=
   (∀ (n : BitVec 11) (s : State), n.toNat < 1296 →
      (s.outOfService n.toNat = true → ∃ t, exec (.substitutionTrigger false n) s = .next t ∧ LogFrame s t) ∧
      ((s.job.bind fun j => j.substs.find? fun z => z.y.any (fun c => c.site == n.toNat) && !z.switched) = none →
        (s.siteClass n.toNat = .spare → ∃ t, exec (.substitutionTrigger false n) s = .next t ∧ n.toNat ∈ t.nv.retired ∧
          (∀ b ∈ engineBlks n.toNat, (t.blk b).retired = true ∧ (t.blk b).run = false) ∧
          (∀ j, t.job = some j → ∀ r ∈ j.records, ∀ c ∈ r.cands, c.site ≠ n.toNat) ∧ SameMem s t ∧ t.tiles = s.tiles) ∧
        ∀ l r, s.siteClass n.toNat = .bound → s.ltnOfSite n.toNat = some l →
          (s.job.bind fun j => j.records.find? fun q => q.ltn == l) = some r →
          ∃ t, exec (.substitutionTrigger false n) s = .next t ∧ n.toNat ∈ t.nv.retired ∧
            (∀ y ∈ s.stageSites r.stage, (t.blk (blkOf (pgSEQ y 0))).haltReq = true) ∧ t.time ≥ s.time) ∧
      ∀ (job : Job) (r : SubstRec), s.job = some job → 8 < s.spareCount → s.siteClass (s.ltnSite n.toNat) = .bound →
        (s.spareFor n.toNat).isSome = true → (s.tileImg n.toNat).isSome = true →
        job.records.find? (fun q => q.ltn == n.toNat) = some r →
        ∃ t j, exec (.screeningSwap n) s = .next t ∧ t.job = some j ∧ t.nv = s.nv ∧
          (∃ z ∈ j.substs, z.ltn = n.toNat ∧ z.x = s.ltnSite n.toNat ∧ z.screen = true) ∧
          ∀ y ∈ s.stageSites r.stage, (t.blk (blkOf (pgSEQ y 0))).haltReq = true) ∧
   (∀ (stage : BitVec 16) (job : Job) (s : State), s.job = some job → (∀ y ∈ s.stageSites stage.toNat, y < 1296) →
      (∀ z c, job.substs.filter (fun w => w.stage == stage.toNat && !w.switched) = [z] → z.y = some c → z.restored = true →
        (∀ y ∈ s.stageSites stage.toNat, s.runs (pgSEQ y 0) = false) →
        let pairs := (z.ltn, c.site) :: z.unused.toList.map fun u => (u, z.x)
        ((s.stageMaps pairs).badVerdict = none →
          ∃ t j, exec (.substSwitch stage []) s = .next t ∧ t.job = some j ∧ j.stages = job.stages.set stage.toNat .replaying ∧
            (∀ w ∈ j.substs, w.stage = stage.toNat → w.switched = true) ∧
            (∀ x ∈ s.liveRouters, (t.map x).sites = stageMap (s.map x).sites s.ltns pairs ∧
              (t.map x).epoch = ((s.map x).epoch + 1) % 2 ^ 32 ∧ (t.map x).loaded = true) ∧ t.dram = s.dram ∧ t.imem = s.imem) ∧
        ((s.stageMaps pairs).badVerdict.isSome = true →
          ∃ t, exec (.substSwitch stage []) s = .next t ∧
            ∀ x, x < 1296 → (t.map x).sites = (s.map x).sites ∧ (t.map x).epoch = (s.map x).epoch)) ∧
      (job.stages[stage.toNat]? = some StageSt.replaying → ∃ t j, exec (.substReplayEnd stage) s = .next t ∧ t.job = some j ∧
        j.stages = job.stages.set stage.toNat .running ∧ (∀ w ∈ j.substs, w.stage ≠ stage.toNat) ∧
        (∀ y ∈ s.stageSites stage.toNat, (s.blk (blkOf (pgMXA y 0))).retired = false → t.fld (pgMXA y 0) 0x040 0 1 = 0) ∧
        t = { s with job := t.job, blks := t.blks, regs := t.regs, tiles := t.tiles })) ∧
   (∀ (job : Job) (s : State), s.job = some job →
      (∃ t, exec .goldenCheck s = .next t ∧ t.job = some { job with goldenAt := t.time } ∧
        job.goldenAt + job.cfg.goldenHrs * 3600 * second ≤ t.time ∧ t.spad = s.spad ∧ t.imem = s.imem ∧
        ((∀ i ∈ job.place.base.tiles, ∀ e ∈ i.rlist.zip i.hashes,
          (copyBytes (s.memGetN e.1.a (e.1.len / 4))).any (fun b => sha256 b == e.2) = true ∧
          (copyBytes (s.goldGetB e.1.b (e.1.len / 4))).any (fun b => sha256 b == e.2) = true) →
          t = { s with job := t.job, time := t.time, facets := t.facets })) ∧
      (∀ (f : Facet) v, job.place.variants.find? (fun w => w.1 == f.val) = some (f.val, v) →
        (∀ i ∈ v.tiles, s.ltnSite i.ltn = nthD 1296 v.map i.ltn ∨ ∀ e ∈ i.rlist, (s.restWords e).isSome = true) →
        ∃ t j, exec (.variantSwitch f) s = .next t ∧ t.job = some j ∧ j.variant = some f.val ∧ j.place.base = v ∧
          j.stages = v.stages.map (fun _ => .running) ∧ j.substs = [] ∧ t.dram = s.dram) ∧
      ∀ ltn : BitVec 11,
        (∀ z, job.substs.find? (fun w => w.ltn == ltn.toNat && w.y.isNone) = some z →
          ∃ t j, exec (.urgentReplacement ltn none) s = .next t ∧ t.job = some j ∧ j.stages = job.stages.set z.stage .lost ∧
            bitOf (t.reg (pgFLT 3) 0x040) 8 = true ∧ ∀ r ∈ t.reqs, r.isLive = false) ∧
        ∀ c : Cand, job.substs.find? (fun w => w.ltn == ltn.toNat && w.y.isNone) = none → job.repair.contains ltn.toNat = true →
          ∃ t j, exec (.urgentReplacement ltn (some c)) s = .next t ∧ t.job = some j ∧
            j.records = job.records.map (fun r => if r.ltn == ltn.toNat then { r with cands := (r.cands ++ [c]).take 4 } else r) ∧
            j.repair = job.repair.filter (· != ltn.toNat) ∧ t = { s with job := t.job })

/-- PORT_TRAINING, TRAINING_RETRY, ECHO, DISCOVERY and PORT_UP (R383 to R385, R391, R392): a port that is not retired trains; a retry begins
training again after 1 s, of a port that went DOWN too unless by its length; a request is answered, a return recorded and the
next request sent, and the 64th return sets round trip and length; the partner's record is held and JOBOK compares the
two JOBHASHes; with every lane good a port that ranged 64 times is UP at full width with nothing outstanding.

LANE_MOVE, LANE_ACK, LANE_ON, RETIRE_LANE, LASER_SWITCH and OPT_ADV (R378, R385, R399 to R401): the partner's move assigns the spare
and is answered; an acknowledged spare that passes carries the lane; a retired lane carries no frames and its engine lane is
retired; a working spare laser takes over, a lost wavelength is recorded; an advertisement is held, and sent unless the port is DOWN. -/
def Obligations.OpticalPortsAndLanes : Prop :=
   (∀ (port : Port) (s : State),
      let p := port.val
      ((s.blk (blkOf (pgOPT p))).retired = false → ∃ t, exec (.portTraining port) s = .next t ∧ t.optState p = optTRAINING ∧
        (t.blk (blkOf (pgOPT p))).enable = true ∧ (t.blk (blkOf (pgOPT p))).run = !(s.blk (blkOf (pgOPT p))).haltReq ∧
        (t.port p).echo = [] ∧ (t.port p).moves = [] ∧ (t.port p).since = s.time ∧ SameMem s t) ∧
      (s.optState p = optTRAINING → ∃ t, exec (.trainingRetry port) s = .next t ∧ t.optState p = optTRAINING ∧
        t.fld (pgOPT p) 0x044 16 4 = 1 ∧ (s.port p).since + second ≤ t.time ∧ SameMem s t) ∧
      (s.optState p = optDOWN → s.enabled (pgOPT p) = true → s.fld (pgOPT p) 0x044 16 4 ≠ 2 →
        ∃ t, exec (.trainingRetry port) s = .next t ∧ t.optState p = optTRAINING ∧ (s.port p).since + second ≤ t.time ∧ SameMem s t) ∧
      (∀ trip hold : Nat, s.lit p = true → ∃ t m, exec (.echo port true trip hold) s = .next t ∧ t.outbox = s.outbox ++ [m] ∧ m.chan = .optical p ∧
        m.kind = "CTRL" ∧ t = { s with ports := t.ports, outbox := t.outbox }) ∧
      (∀ trip hold : Nat, s.optState p = optTRAINING ∨ s.optState p = optRETRAIN → (s.port p).echo.length < 63 →
        ∃ t, exec (.echo port false trip hold) s = .next t ∧ (t.port p).echo = (s.port p).echo ++ [trip - hold] ∧
          (s.lit p = true → ∃ m, t.outbox = s.outbox ++ [m] ∧ m.chan = .optical p ∧ m.kind = "CTRL") ∧
          t = { s with ports := t.ports, outbox := t.outbox }) ∧
      (∀ trip hold : Nat, s.optState p = optTRAINING ∨ s.optState p = optRETRAIN → (s.port p).echo.length = 63 →
        let o := sortNat ((s.port p).echo ++ [trip - hold])
        let rtt := (nthD 0 o 31 + nthD 0 o 32) / 32
        let range := (rtt - fixedDelay) * 100 / 98
        ∃ t, exec (.echo port false trip hold) s = .next t ∧ t.reg (pgOPT p) 0x04C = min rtt (2 ^ 20 - 1) ∧
          t.reg (pgOPT p) 0x048 = min range (2 ^ 16 - 1) ∧
          (range ≤ 20000 → t.optState p = s.optState p ∧ (t.port p).echo.length = 64) ∧
          (20000 < range → t.optState p = optDOWN ∧ t.fld (pgOPT p) 0x044 16 4 = 2) ∧ SameMem s t) ∧
      (∀ rec : List Nat, ∃ t, exec (.discovery port rec) s = .next t ∧ t.reg64 (pgOPT p) 0x060 = pfield rec 0 8 % 2 ^ 64 ∧
        t.reg64 (pgOPT p) 0x070 = pfield rec 12 8 % 2 ^ 64 ∧
        t.jobOk p = (s.reg64 (pgOPT p) 0x084 != 0 && s.reg64 (pgOPT p) 0x084 == pfield rec 12 8 % 2 ^ 64) ∧ t = { s with regs := t.regs }) ∧
      (s.optState p = optTRAINING → (s.port p).echo.length = 64 → s.enabled (optEng p) = true →
        (∀ l, l < 8 → s.lstate p (s.laneEl p l) = 1 ∧ s.wlLost p (s.laneEl p l) = false) →
        ∃ t, exec (.portUp port 0xFF 0xF) s = .next t ∧ t.optState p = optUP ∧ t.optMask p = 255 ∧ t.fld (pgOPT p) 0x044 3 4 = 8 ∧
          (∀ l, l < 8 → t.laneEl p l = s.laneEl p l) ∧ (t.port p).unacked = [] ∧ (t.port p).waiting = [] ∧ (t.port p).txSeq = 0 ∧ SameMem s t)) ∧
   ((∀ (port : Port) (lane : Fin 8) (s : State),
      let p := port.val
      let l := lane.val
      (∀ el : Fin 20, s.portUp p = true → s.lit p = true → (∀ m ∈ (s.port p).moves, m.lane = l → m.mine = false) →
        ∃ t, exec (.laneMove port lane el) s = .next t ∧ t.lstate p el.val = 1 ∧
          (∃ m ∈ (t.port p).moves, m.lane = l ∧ m.el = el.val ∧ m.acked = true) ∧
          (∃ m ∈ t.outbox, m.chan = .optical p ∧ m.kind = "CTRL") ∧ bitOf (t.optMask p) l = false ∧ SameMem s t) ∧
      (∃ t, exec (.laneAck port lane) s = .next t ∧ t = { s with ports := t.ports } ∧
        t.port p = { s.port p with moves := (s.port p).moves.map fun m => if m.lane == l then { m with acked := true } else m }) ∧
      (∀ m, (s.port p).moves.find? (fun y => y.lane == l && y.acked) = some m → m.el < 20 → s.wlLost p m.el = false →
        ∃ t, exec (.laneOn port lane true true) s = .next t ∧ t.laneEl p l = m.el ∧ t.lstate p m.el = 1 ∧ bitOf (t.optMask p) l = true ∧
          (∀ y ∈ (t.port p).moves, y.lane ≠ l) ∧ SameMem s t) ∧
      (bitOf (s.optMask p) l = true → ∃ t, exec (.retireLane port lane) s = .next t ∧ bitOf (t.optMask p) l = false ∧
        t.lstate p (s.laneEl p l) = 2 ∧ bitOf (t.hdr (pgOPT p)).err 9 = true ∧ SameMem s t)) ∧
    (∀ (e : Engine) (w : Fin 4) (v : Word) (s : State), s.flag (pgOEN e.val) 0x040 8 = true → s.flag (pgOEN e.val) 0x044 (8 + w.val) = false →
      (s.flag (pgOEN e.val) 0x044 (4 + w.val) = false → s.injPend (pgOEN e.val) 9 = false → ∃ t, exec (.laserSwitch e w true v) s = .next t ∧
        t.flag (pgOEN e.val) 0x044 (4 + w.val) = true ∧ t.reg (pgOEN e.val) (0x050 + 4 * w.val) = v.toNat ∧ LogFrame s t) ∧
      ∃ t, exec (.laserSwitch e w false v) s = .next t ∧ t.flag (pgOEN e.val) 0x044 (8 + w.val) = true ∧
        bitOf (t.hdr (pgOEN e.val)).err 9 = true ∧ SameMem s t) ∧
    ∀ (port : Port) (v : Word) (s : State), let p := port.val
      (s.optState p ≠ optDOWN → s.lit p = true → ∃ t m, exec (.optAdv port 1 v) s = .next t ∧ t.reg (pgOPT p) 0x084 = v.toNat ∧
        t.outbox = s.outbox ++ [m] ∧ m.chan = .optical p ∧ m.kind = "CTRL" ∧
        t = { s with regs := t.regs, ports := t.ports, outbox := t.outbox }) ∧
      (s.optState p = optDOWN → ∃ t, exec (.optAdv port 1 v) s = .next t ∧ t.reg (pgOPT p) 0x084 = v.toNat ∧
        t = { s with regs := t.regs }))

/-- DATA_FRAME, IDLE_FRAME, NAK, REPLAY_TIMEOUT and RETRAIN_TIMEOUT (R387 to R389, R391): the next frame in order is taken, any other
and a damaged one are discarded and answered with NAK; an acknowledgement frees what it covers; every frame
not acknowledged is sent again; a port that does not retrain within 10 ms goes DOWN and forgets what it had to send.

MBX_TX_DATA, SEND, FLUSH, MBX_RX_READ, MBX_POP and EGRESS_TRANSFER (R395, R396, R398): words written to the mailbox wait; a message
of its stated length becomes frames, any other sets MBXDROP; a read takes the next word of the head message; a transfer goes
on the message of its channel, or is dropped when the channel is not valid. -/
def Obligations.OpticalFramesAndMessages : Prop :=
   (∀ (port : Port) (s : State),
      let p := port.val
      let x := s.port p
      let left := fun ack : Nat => x.unacked.filter fun f => !decide ((ack + 2 ^ 20 - f.seq) % 2 ^ 20 < 2 ^ 19)
      (s.portUp p = true → (s.hdr (pgOPT p)).inj = 0 → ∀ (f : Frame) (ack : BitVec 20) (cvc : Fin 4) (cc : BitVec 10),
        (f.seq = x.rxNext → ∃ t, exec (.dataFrame port f ack cvc cc true none) s = .next t ∧
          (t.port p).rxNext = (x.rxNext + 1) % 2 ^ 20 ∧ SameMem s t) ∧
        (f.seq ≠ x.rxNext → ∃ t, exec (.dataFrame port f ack cvc cc true none) s = .next t ∧
          (t.port p).rxNext = x.rxNext ∧ (t.port p).rx = x.rx ∧ t.inbuf = s.inbuf ∧
          (s.lit p = true → ∃ m ∈ t.outbox, m.chan = .optical p ∧ m.kind = "NAK") ∧ SameMem s t) ∧
        (∀ e ∈ ([.dataFrame port f ack cvc cc false none, .idleFrame port ack cvc cc false] : List Instr), ∃ t, exec e s = .next t ∧
          (t.port p).rxNext = x.rxNext ∧ (t.port p).rx = x.rx ∧ bitOf (t.hdr (pgOPT p)).err 8 = true ∧
          (s.lit p = true → ∃ m ∈ t.outbox, m.chan = .optical p ∧ m.kind = "NAK")) ∧
        (x.waiting = [] → ∃ t, exec (.idleFrame port ack cvc cc true) s = .next t ∧ (t.port p).unacked = left ack.toNat ∧ SameMem s t)) ∧
      (∀ (ack : BitVec 20) (cvc : Fin 4) (cc : BitVec 10), s.portUp p = true → s.lit p = true → x.waiting = [] → left ack.toNat ≠ [] →
        (∀ f ∈ x.unacked, f.resent < 15) → ∃ t, exec (.nak port ack cvc cc) s = .next t ∧
          (t.port p).unacked = (left ack.toNat).map (fun f => { f with resent := f.resent + 1 }) ∧
          (∃ m ∈ t.outbox, m.chan = .optical p ∧ m.kind = "DATA") ∧ SameMem s t) ∧
      (s.portUp p = true → x.unacked ≠ [] → (∀ f ∈ x.unacked, f.resent < 15) → ∃ t, exec (.replayTimeout port) s = .next t ∧
        (t.port p).unacked = x.unacked.map (fun f => { f with resent := f.resent + 1 }) ∧
        x.progress + 32 * s.fld (pgOPT p) 0x04C 0 20 + 10 * usec ≤ t.time ∧ SameMem s t) ∧
      (s.optState p = optRETRAIN → ∃ t, exec (.retrainTimeout port) s = .next t ∧ t.optState p = optDOWN ∧ t.optMask p = 0 ∧
        t.fld (pgOPT p) 0x044 16 4 = 3 ∧ (t.port p).unacked = [] ∧ (t.port p).waiting = [] ∧ x.since + 10 * msec ≤ t.time ∧ SameMem s t)) ∧
   (∀ (port : Port) (s : State),
      let p := port.val
      let x := s.port p
      (∀ v : Word, ∃ t, exec (.mbxTxData port v) s = .next t ∧ t.port p = { x with mbxTx := x.mbxTx ++ [v.toNat] } ∧
        t.reg (pgOPT p) 0x308 = min (x.mbxTx.length + 1) (2 ^ 11 - 1) ∧ t = { s with ports := t.ports, regs := t.regs }) ∧
      (∃ t, exec (.flush port) s = .next t ∧ t.port p = { x with mbxTx := [] } ∧ t.reg (pgOPT p) 0x308 = 0 ∧
        t = { s with ports := t.ports, regs := t.regs }) ∧
      (s.halting (pgOPT p) = false → 16 ≤ x.mbxTx.length → x.mbxTx.length ≤ 1024 →
        x.mbxTx.length = 16 + (pfield x.mbxTx 4 4 + 3) / 4 → s.portUp p = true →
        s.injPend (pgOPT p) 12 = false → s.injPend (pgOPT p) 14 = false →
        ∃ t, exec (.send port) s = .next t ∧ (t.port p).mbxTx = [] ∧
          (t.port p).waiting.length + (t.port p).unacked.length = x.waiting.length + x.unacked.length + (x.mbxTx.length + 63) / 64 ∧
          SameMem s t) ∧
      (s.halting (pgOPT p) = false → x.mbxTx.length < 16 → ∃ t, exec (.send port) s = .next t ∧ (t.port p).mbxTx = [] ∧
        (t.port p).waiting = x.waiting ∧ bitOf (t.hdr (pgOPT p)).err 14 = true ∧ SameMem s t) ∧
      (∀ w l r, x.mbxRx = (w :: l) :: r → ∃ t, exec (.mbxRxRead port) s = .next t ∧ t.reg (pgOPT p) 0x310 = w % 2 ^ 32 ∧
        t.port p = { x with mbxRx := l :: r } ∧ t = { s with ports := t.ports, regs := t.regs }) ∧
      (x.mbxRx.headD [] = [] → ∃ t, exec (.mbxRxRead port) s = .next t ∧ t.reg (pgOPT p) 0x310 = 0 ∧ t = { s with regs := t.regs }) ∧
      (x.rx = [] → x.ing = [] → ∃ t, exec (.mbxPop port) s = .next t ∧ t.port p = { x with mbxRx := x.mbxRx.drop 1 } ∧
        t = { s with ports := t.ports, regs := t.regs }) ∧
      ∀ (half : Fin 2) (y : Xfer) (l : List Xfer), s.buf (siteOfHalf p half.val) 6 = y :: l →
        let v := s.reg (pgOPT p) (0x200 + 4 * y.rid)
        (∀ m, s.injPend (pgOPT p) 13 = false → x.egr.find? (fun e => e.1 == y.rid) = some (y.rid, m) → y.rid < 32 → bitOf v 0 = true → v < 16 → bitsOf v 1 2 ≠ 0 →
          bitsOf v 3 1 = half.val → y.words.length % 16 = 0 → y.words.length < 16 * m.left →
          ∃ t, exec (.egressTransfer port half) s = .next t ∧ t.buf (siteOfHalf p half.val) 6 = l ∧
            t.port p = { x with egr := x.egr.filter (fun e => e.1 != y.rid) ++ [(y.rid, ⟨m.left - y.words.length / 16, m.words ++ y.words⟩)] } ∧
            t = { s with inbuf := t.inbuf, ports := t.ports }) ∧
        (s.halting (pgOPT p) = false → 32 ≤ y.rid ∨ bitOf v 0 = false → ∃ t, exec (.egressTransfer port half) s = .next t ∧
          t.buf (siteOfHalf p half.val) 6 = l ∧ bitOf (t.hdr (pgOPT p)).err 13 = true ∧ SameMem s t))

/-- GO, STEP_CANCEL, STEP_VOLTAGE_RAISE, STEP_SETTLE_CHECK, STEP_SWITCH and STEP_VOLTAGE_LOWER (R409 to R412, R434): a request too
early ends LATE, one that can be met is pending, one beside a change of the controller ends BUSY; a pending change more than 40 µs away can be cancelled; every region that is
ON gets the target of the faster step before T; a region not settled ends the change with SUPPLY; each facet switches at T, and
with the last one the step is current; after a slower step the targets follow. -/
def Obligations.StepChanges : Prop :=
  ∀ s : State,
    let clamp := fun (r k : Nat) => (max 500 (min 850 (s.vlogRaw r k))).toNat
    (s.stepPend.any (·.ctrl) = true → ∃ t, exec .go s = .next t ∧ t.fld pgTIM 0x05C 8 4 = stepBUSY ∧ t = { s with regs := t.regs }) ∧
    (s.stepPend.any (·.ctrl) = false → s.reg64 pgTIM 0x050 < s.time + 50 * usec → ∃ t, exec .go s = .next t ∧ t.fld pgTIM 0x05C 8 4 = stepLATE ∧ t = { s with regs := t.regs }) ∧
    (s.time + 50 * usec ≤ s.reg64 pgTIM 0x050 → s.lastSwitch + 50 * usec ≤ s.reg64 pgTIM 0x050 → s.stepPend = none →
      s.fld pgTIM 0x048 0 3 ≠ s.step → ∃ t, exec .go s = .next t ∧
        t.stepPend = some ⟨s.fld pgTIM 0x048 0 3, s.reg64 pgTIM 0x050, false, [], false, [], s.step⟩ ∧
        t.fld pgTIM 0x05C 3 3 = s.fld pgTIM 0x048 0 3 ∧ t.flag pgTIM 0x05C 6 = true ∧ t = { s with regs := t.regs, stepPend := t.stepPend }) ∧
    (∀ p, s.stepPend = some p →
      (s.time + 40 * usec < p.t → p.raised = false → ∃ t, exec .stepCancel s = .next t ∧ t.stepPend = none ∧
        t.fld pgTIM 0x05C 8 4 = stepCANCELLED ∧ t.flag pgTIM 0x05C 6 = false ∧ t = { s with regs := t.regs, stepPend := none }) ∧
      (p.t ≤ s.time + 40 * usec → exec .stepCancel s = .next s) ∧
      (p.target < s.step → p.raised = false → ∃ t, exec .stepVoltageRaise s = .next t ∧ t.stepPend = some { p with raised := true } ∧
        p.t - 40 * usec ≤ t.time ∧ (∀ r, r < 72 → s.region r = 2 → t.fld (pgPRG r) 0x050 0 10 = clamp r p.target) ∧ SameMem s t) ∧
      (p.target < s.step → p.raised = true →
        (s.injPend pgTIM 9 = false → (∀ r, r < 72 → s.region r = 2 → (s.rgn r).settleAt ≤ p.t - 2 * usec) →
          ∃ t, exec (.stepSettleCheck []) s = .next t ∧ TimeFrame s t ∧ p.t - 2 * usec ≤ t.time) ∧
        ∀ r : Fin 72, s.region r.val = 2 → ∃ t, exec (.stepSettleCheck [r]) s = .next t ∧ t.stepPend = none ∧
          t.fld pgTIM 0x05C 8 4 = stepSUPPLY ∧ bitOf (t.hdr pgTIM).err 9 = true ∧ SameMem s t) ∧
      ∀ f : Facet, s.liveFacets.contains f.val = true → p.done.contains f.val = false → s.step ≤ p.target ∨ p.raised = true →
        (s.unsettled p = true → ∃ t, exec (.stepSwitch f) s = .next t ∧ t.stepPend = none ∧ t.fld pgTIM 0x05C 8 4 = stepSUPPLY ∧
          bitOf (t.hdr pgTIM).err 9 = true ∧ SameMem s t) ∧
        (s.unsettled p = false → ∃ t, exec (.stepSwitch f) s = .next t ∧ p.t ≤ t.time ∧ t.facetStep f.val = p.target % 8 ∧ (t.facet f.val).phase = 0 ∧
          (s.liveFacets.all (fun g => p.done.contains g || g == f.val) = false → t.stepPend = some { p with done := p.done ++ [f.val] } ∧
            t.step = s.step) ∧
          (s.liveFacets.all (fun g => p.done.contains g || g == f.val) = true → t.stepPend = none ∧ t.step = p.target % 8 ∧
            t.lastSwitch = t.time % 2 ^ 64 ∧ t.fld pgTIM 0x05C 8 4 = stepDONE) ∧ SameMem s t)) ∧
    ((∀ p, s.stepPend = some p → p.raised = false) → ∃ t, exec .stepVoltageLower s = .next t ∧ s.lastSwitch + usec ≤ t.time ∧
      (∀ r, r < 72 → s.region r = 2 → t.fld (pgPRG r) 0x050 0 10 = clamp r s.step) ∧ t.stepPend = s.stepPend ∧ SameMem s t)

/-- DROOP_EVENT, STRETCH_RATE_CHECK and TAP_MOVE (R414, R416, R418, R422): an event withholds an edge of the facet's clock, one within an
edge already withheld is merged and only counted; the withheld edges of each millisecond are recorded, and more than the
threshold set STRETCH; a tap moves by one.

EPOCH_MARKER, REFERENCE_LOSS, REFERENCE_RETURN, LOCK_LOSS and RELOCK (R425, R427, R428): at a marker a count within 256 units is spread and
a larger difference sets TIMEERR; a loss of the reference sets HOLDOVER everywhere and a return clears it; a generator that
loses lock stops its clock, one that fails to relock for the third time in a second is dark, and one that relocks runs from the
device time of the marker.

PTP_TIMESTAMP and the two pops (R429): a timestamp joins its queue with the device time, a full queue of 32 discards it and sets
PTPOVF; a pop drops the head. -/
def Obligations.ClocksAndDeviceTime : Prop :=
   ((∀ (x : Site) (s : State), s.siteOn x.val = true →
      let f := facetOf x.val
      let c := s.facet f
      c.running = true → s.flag (pgCLK f) 0x040 0 = true →
      (c.lastWithheld = none → ∃ t, exec (.droopEvent x) s = .next t ∧ (t.facet f).stretches = c.stretches + 1 ∧
        (t.facet f).msStretches = c.msStretches + 1 ∧ (t.facet f).lastWithheld = some (c.cycles + c.stretches) ∧
        t.reg64 (pgTEL x.val 1) 0x050 = (s.reg64 (pgTEL x.val 1) 0x050 + 1) % 2 ^ 64 ∧ SameMem s t ∧ t.tiles = s.tiles) ∧
      ∀ w, c.lastWithheld = some w → c.cycles + c.stretches < w → ∃ t, exec (.droopEvent x) s = .next t ∧
        t.reg64 (pgTEL x.val 1) 0x050 = (s.reg64 (pgTEL x.val 1) 0x050 + 1) % 2 ^ 64 ∧ t = { s with regs := t.regs }) ∧
    (∀ (f : Facet) (s : State),
      let c := s.facet f.val
      ∃ t, exec (.stretchRateCheck f) s = .next t ∧ (t.facet f.val).msStretches = 0 ∧ nextMs c.msAt ≤ t.time ∧
        t.reg (pgCLK f.val) 0x060 = min c.msStretches (2 ^ 32 - 1) ∧
        (c.msStretches ≤ s.fld (pgCLK f.val) 0x040 8 8 * 1024 → s.injPend (pgCLK f.val) 11 = false → t = { s with regs := t.regs, time := t.time, facets := t.facets }) ∧
        (s.fld (pgCLK f.val) 0x040 8 8 * 1024 < c.msStretches → bitOf (t.hdr (pgCLK f.val)).err 11 = true) ∧ SameMem s t) ∧
    ∀ (f : Facet) (k : Fin 42) (up : Bool) (s : State), s.flag (pgCLK f.val) (0x104 + 8 * k.val) 0 = true →
      let v := s.fld (pgCLK f.val) (0x100 + 8 * k.val) (4 * s.facetStep f.val) 4
      ∃ t, exec (.tapMove f k up) s = .next t ∧
        t.fld (pgCLK f.val) (0x100 + 8 * k.val) (4 * s.facetStep f.val) 4 = (if up then min 15 (v + 1) else v - 1) ∧
        SameRegsBut s t (fun p off => p = pgCLK f.val ∧ off = 0x100 + 8 * k.val) ∧
        t = { s with regs := t.regs, time := t.time, facets := t.facets }) ∧
   ((∀ (f : Facet) (s : State), (s.facet f.val).running = true → (s.hdr (pgCLK f.val)).inj = 0 →
      let due := (s.time / epochUnits + 1) * epochUnits
      let d : Int := ((((s.waitTime due).facet f.val).acc / 2 ^ 32 : Nat) : Int) - (due : Nat)
      ∃ t, exec (.epochMarker f) s = .next t ∧ t.time = due ∧ t.fld (pgCLK f.val) 0x048 0 16 = (d % 65536).toNat ∧
        (d.natAbs ≤ 256 → (t.facet f.val).ahead = (if 0 < d then d.natAbs * 2 ^ 32 else 0) ∧
          (t.facet f.val).behind = (if d < 0 then d.natAbs * 2 ^ 32 else 0) ∧
          t = { s with regs := t.regs, time := t.time, facets := t.facets }) ∧
        (256 < d.natAbs → bitOf (t.hdr (pgCLK f.val)).err 10 = true) ∧ SameMem s t) ∧
    (∀ s : State, s.flag pgTIM 0x068 1 = false → ∃ t, exec .referenceLoss s = .next t ∧ (∀ i, i < 15 → t.flag (pgCLK i) 0x044 1 = true) ∧
      t.flag pgTIM 0x068 1 = true ∧ t.flag pgTIM 0x068 0 = false ∧ bitOf (t.hdr pgTIM).err 8 = true ∧ LogFrame s t) ∧
    (∀ s : State, s.flag pgTIM 0x068 1 = true → exec .referenceLoss s = .next s) ∧
    (∀ s : State, s.boot.wait = none → ∃ t, exec .referenceReturn s = .next t ∧ (∀ i, i < 15 → t.flag (pgCLK i) 0x044 1 = false) ∧
      t.flag pgTIM 0x068 1 = false ∧ t.flag pgTIM 0x068 0 = true ∧ t = { s with regs := t.regs }) ∧
    ∀ (f : Facet) (s : State), s.flag (pgCLK f.val) 0x044 6 = false →
      ((s.facet f.val).running = true → ∃ t, exec (.lockLoss f) s = .next t ∧ (t.facet f.val).running = false ∧
        t.flag (pgCLK f.val) 0x044 0 = false ∧ bitOf (t.hdr (pgCLK f.val)).err 8 = true ∧ LogFrame { s with facets := t.facets } t) ∧
      ((s.facet f.val).running = false →
        ((inLastSecond s.time (s.facet f.val).relockFails).length < 2 → ∃ t, exec (.lockLoss f) s = .next t ∧ t = { s with facets := t.facets } ∧
          (t.facet f.val).relockFails = inLastSecond s.time (s.facet f.val).relockFails ++ [s.time]) ∧
        (2 ≤ (inLastSecond s.time (s.facet f.val).relockFails).length → ∃ t, exec (.lockLoss f) s = .next t ∧
          t.flag (pgCLK f.val) 0x044 6 = true ∧ bitOf (t.reg (pgFLT 3) 0x040) 6 = true) ∧
        ∃ t, exec (.relock f) s = .next t ∧ (t.facet f.val).running = true ∧ (t.facet f.val).acc = t.time * 2 ^ 32 ∧
          t.time = (s.time / epochUnits + 1) * epochUnits ∧ t.flag (pgCLK f.val) 0x044 0 = true ∧ SameMem s t)) ∧
   (∀ s : State,
      (∀ info : BitVec 28, (s.ptp.tx.length < 32 → s.injPend pgTIM 10 = false → ∃ t, exec (.ptpTimestamp true info) s = .next t ∧
          t.ptp = { s.ptp with tx := s.ptp.tx ++ [(s.time, info.toNat)] } ∧ t.fld pgTIM 0x068 8 6 = s.ptp.tx.length + 1 ∧
          t = { s with ptp := t.ptp, regs := t.regs }) ∧
        (s.ptp.rx.length < 32 → s.injPend pgTIM 10 = false → ∃ t, exec (.ptpTimestamp false info) s = .next t ∧
          t.ptp = { s.ptp with rx := s.ptp.rx ++ [(s.time, info.toNat)] } ∧ t.fld pgTIM 0x068 16 6 = s.ptp.rx.length + 1 ∧
          t = { s with ptp := t.ptp, regs := t.regs }) ∧
        (32 ≤ s.ptp.tx.length → ∃ t, exec (.ptpTimestamp true info) s = .next t ∧ bitOf (t.hdr pgTIM).err 10 = true ∧ LogFrame s t)) ∧
      (∃ t, exec .ptpTxqPop s = .next t ∧ t.ptp = { s.ptp with tx := s.ptp.tx.drop 1 } ∧
        t.reg64 pgTIM 0x0C0 = ((s.ptp.tx.drop 1).headD (0, 0)).1 % 2 ^ 64 ∧ t = { s with ptp := t.ptp, regs := t.regs }) ∧
      ∃ t, exec .ptpRxqPop s = .next t ∧ t.ptp = { s.ptp with rx := s.ptp.rx.drop 1 } ∧
        t.reg64 pgTIM 0x0D0 = ((s.ptp.rx.drop 1).headD (0, 0)).1 % 2 ^ 64 ∧ t = { s with ptp := t.ptp, regs := t.regs })

/-- PRG_REQ_ON, PRG_REQ_RETAIN, PRG_REQ_OFF, PRG_REQ_INVALID (R439, R440 to R444): with no request or transition in progress, TARGET is
written and the request ends at once with LOST, DONE, INVALID or DISABLED; a power-on that meets every condition is granted, one
that lacks headroom waits, one that lacks clock or phases ends; a quiet region leaves ON for GATING, a busy one ends BUSY; a
write while one is in progress sets WLOCK alone.

PON_REEVALUATE, PON_TIMEOUT, PON_DONE, GATE_SWITCH_OPEN, GATE_DONE and TRIM_CHANGE (R440 to R443, R455, R437, R579; Table 15.5): a waiting request
is tried again every 10 µs and counted, and ends HEADROOM 2 ms after it was written; a waking region is ON after its time, its
routers not enabled, and a tile from OFF whose row repairs hold an uncorrectable word is counted; the logic of a gated region is lost when its switches open and what lies on VARR stays; at RETAIN it ends, at OFF the scratchpads
read as poisoned zeros; a running page refuses a change of TRIM. -/
def Obligations.RegionRequestsAndTransitions : Prop :=
   (∀ (r : Region) (s : State), (s.rgn r.val).pend = none → (s.rgn r.val).trans = none →
      let pg := pgPRG r.val
      let clamp := fun (k : Nat) => (max 500 (min 850 (s.vlogRaw r.val k))).toNat
      (∃ t, exec (.prgReqInvalid r) s = .next t ∧ t.fld pg 0x04C 4 4 = resINVALID ∧ t.fld pg 0x048 0 2 = 3 ∧ t = { s with regs := t.regs }) ∧
      (s.region r.val = 5 → ∀ w, ∃ t u v, exec (.prgReqOn r w) s = .next t ∧ exec (.prgReqRetain r) s = .next u ∧ exec (.prgReqOff r) s = .next v ∧
        (∀ x, x = t ∨ x = u ∨ x = v → x.fld pg 0x04C 4 4 = resLOST ∧ x.region r.val = 5 ∧ x = { s with regs := x.regs })) ∧
      (s.region r.val = 2 → ∀ w, ∃ t, exec (.prgReqOn r w) s = .next t ∧ t.fld pg 0x04C 4 4 = resDONE ∧ t = { s with regs := t.regs }) ∧
      (s.region r.val = 0 → ∃ t u, exec (.prgReqRetain r) s = .next t ∧ t.fld pg 0x04C 4 4 = resINVALID ∧ t = { s with regs := t.regs } ∧
        exec (.prgReqOff r) s = .next u ∧ u.fld pg 0x04C 4 4 = resDONE ∧ u = { s with regs := u.regs }) ∧
      (s.region r.val = 0 ∨ s.region r.val = 1 → s.halting pg = true → ∀ w, ∃ t, exec (.prgReqOn r w) s = .next t ∧
        t.fld pg 0x04C 4 4 = resDISABLED ∧ t = { s with regs := t.regs }) ∧
      (s.region r.val = 1 → s.halting pg = false → ∃ t, exec (.prgReqOff r) s = .next t ∧ (t.rgn r.val).trans = some (0, s.time) ∧
        (t.rgn r.val).opened = true ∧ t.region r.val = 1 ∧ t = { s with regs := t.regs, regions := t.regions }) ∧
      (s.region r.val = 0 ∨ s.region r.val = 1 → s.enabled pg = true → s.halting pg = false → ∀ w : BitVec 11,
        (s.flag (pgCLK (r.val / 6)) 0x044 0 = false → ∃ t, exec (.prgReqOn r w) s = .next t ∧ t.fld pg 0x04C 4 4 = resCLOCK ∧
          bitOf (t.hdr pg).err 12 = true ∧ t.region r.val = s.region r.val) ∧
        (s.flag (pgCLK (r.val / 6)) 0x044 0 = true → s.flag (pgCLK (r.val / 6)) 0x044 6 = false →
          (s.fld pg 0x04C 8 4 < 6 → ∃ t, exec (.prgReqOn r w) s = .next t ∧ t.fld pg 0x04C 4 4 = resPHASES ∧
            bitOf (t.hdr pg).err 12 = true ∧ t.region r.val = s.region r.val) ∧
          (6 ≤ s.fld pg 0x04C 8 4 → (regionsOf (r.val / 6)).any (fun x => x != r.val && s.region x == 3) = false →
            s.earlierPend r.val s.reqOrder = false → s.nearSwitch = false →
            (busCap (s.ibcs r.val) < w.toNat + s.fld pg 0x040 16 8 → ∃ t, exec (.prgReqOn r w) s = .next t ∧
              (t.rgn r.val).pend = some (s.time, s.reqOrder) ∧ t.flag pg 0x04C 3 = true ∧ t.region r.val = s.region r.val ∧
              t = { s with regs := t.regs, regions := t.regions, reqOrder := s.reqOrder + 1 }) ∧
            (w.toNat + s.fld pg 0x040 16 8 ≤ busCap (s.ibcs r.val) → ∃ t, exec (.prgReqOn r w) s = .next t ∧ t.region r.val = 3 ∧
              (t.rgn r.val).trans = some (2, s.time) ∧ (t.rgn r.val).opened = decide (s.region r.val = 1) ∧
              t.fld pg 0x050 0 10 = clamp s.targetStep ∧ t.fld pg 0x050 10 10 = 750 ∧ LogFrame { s with regions := t.regions } t)))) ∧
      (s.region r.val = 2 → s.halting pg = false → ∃ t u, exec (.prgReqRetain r) s = .next t ∧ exec (.prgReqOff r) s = .next u ∧
        (s.quiet r.val = false → t.fld pg 0x04C 4 4 = resBUSY ∧ t = { s with regs := t.regs } ∧
          u.fld pg 0x04C 4 4 = resBUSY ∧ u = { s with regs := u.regs }) ∧
        (s.quiet r.val = true → t.region r.val = 4 ∧ (t.rgn r.val).trans = some (1, s.time) ∧ t = { s with regs := t.regs, regions := t.regions } ∧
          u.region r.val = 4 ∧ (u.rgn r.val).trans = some (0, s.time) ∧ u = { s with regs := u.regs, regions := u.regions })) ∧
      ∀ x : Nat × Nat, ∀ q : RegionSt, q = { s.rgn r.val with trans := some x } ∨ q = { s.rgn r.val with pend := some x } →
        let b := s.setRgn r.val q
        ∀ w, exec (.prgReqOn r w) b = .next (b.wlock pg) ∧ exec (.prgReqRetain r) b = .next (b.wlock pg) ∧
          exec (.prgReqOff r) b = .next (b.wlock pg) ∧ exec (.prgReqInvalid r) b = .next (b.wlock pg)) ∧
   (∀ (r : Region) (s : State),
      let pg := pgPRG r.val
      (∀ (a : Nat × Nat), (s.rgn r.val).pend = some a →
        (∀ w : BitVec 11,
          let due := a.1 + ((s.time - a.1) / (10 * usec) + 1) * (10 * usec)
          due < a.1 + 2 * msec →
          (s.halting pg = true → ∃ t, exec (.ponReevaluate r w) s = .next t ∧ t.time = max s.time due ∧
            t.reg pg 0x064 = min 0xFFFF_FFFF (s.reg pg 0x064 + 1) ∧ (t.rgn r.val).pend = some a ∧
            t = { s with regs := t.regs, time := t.time, facets := t.facets }) ∧
          (s.halting pg = false → s.enabled pg = true → s.flag (pgCLK (r.val / 6)) 0x044 0 = true →
            s.flag (pgCLK (r.val / 6)) 0x044 6 = false → 6 ≤ s.fld pg 0x04C 8 4 →
            (regionsOf (r.val / 6)).any (fun x => x != r.val && s.region x == 3) = false → s.earlierPend r.val a.2 = false →
            s.stepPend = none → s.lastSwitch = 0 → w.toNat + s.fld pg 0x040 16 8 ≤ busCap (s.ibcs r.val) →
            ∃ t, exec (.ponReevaluate r w) s = .next t ∧ t.time = max s.time due ∧ t.region r.val = 3 ∧ (t.rgn r.val).pend = none ∧
              (t.rgn r.val).trans = some (2, t.time) ∧ SameMem s t)) ∧
        ∃ t, exec (.ponTimeout r) s = .next t ∧ t.time = max s.time (a.1 + 2 * msec) ∧ (t.rgn r.val).pend = none ∧
          t.fld pg 0x04C 4 4 = resHEADROOM ∧ t.flag pg 0x04C 3 = false ∧ bitOf (t.hdr pg).err 12 = true ∧ t.region r.val = s.region r.val ∧
          LogFrame { s with time := t.time, facets := t.facets, regions := t.regions } t) ∧
      (∀ tgt c0, (s.rgn r.val).trans = some (tgt, c0) →
        (s.region r.val = 3 → (s.rgn r.val).opened = false → ∀ y : Site, regionOf y.val = r.val →
          ∃ t, exec (.ponDone r [y]) s = .next t ∧ t.region r.val = 2 ∧ t.fld pg 0x04C 4 4 = resDONE ∧
            t.fld (pgFUS 1) 0x044 24 8 = satAdd 255 (s.fld (pgFUS 1) 0x044 24 8) 1) ∧
        (s.region r.val = 3 → ∃ t, exec (.ponDone r []) s = .next t ∧ t.region r.val = 2 ∧ t.fld pg 0x04C 4 4 = resDONE ∧
          t.time = max s.time (c0 + (if (s.rgn r.val).opened then 5 else 8) * usec) ∧ (t.rgn r.val).trans = none ∧
          (∀ x, x < 1296 → regionOf x = r.val → t.siteOn x = true ∧ (t.tile x).onSince = t.cyc x ∧
            (t.blk (blkId tyRTR x)).enable = false ∧ (t.blk (blkId tyRTR x)).run = false) ∧
          SameMem s t ∧ t.keys = s.keys ∧ t.rtrTbl = s.rtrTbl ∧ t.maps = s.maps ∧ t.sync = s.sync) ∧
        (s.region r.val = 4 → (s.rgn r.val).opened = false → c0 ≤ s.telSwap → s.telSwap ≠ 0 →
          ∃ t, exec (.gateSwitchOpen r) s = .next t ∧ (t.rgn r.val).opened = true ∧ (t.rgn r.val).trans = some (tgt, s.telSwap) ∧
            t.fld pg 0x050 0 10 = 0 ∧ (∀ x, x < 1296 → regionOf x = r.val → (t.tile x).threads = [] ∧ (t.tile x).win = [] ∧
              (t.spd x).base = (s.spd x).base ∧ (t.blk (blkId tySEQ x)).run = false) ∧
            SameMem s t ∧ t.keys = s.keys ∧ t.rtrTbl = s.rtrTbl ∧ t.maps = s.maps) ∧
        (s.region r.val = 4 ∨ s.region r.val = 1 → (s.rgn r.val).opened = true →
          (tgt ≠ 0 → ∃ t, exec (.gateDone r) s = .next t ∧ t.region r.val = 1 ∧ t.fld pg 0x04C 4 4 = resDONE ∧ (t.rgn r.val).trans = none ∧
            t.fld pg 0x050 10 10 = 600 ∧ SameMem s t ∧ t.keys = s.keys) ∧
          (tgt = 0 → ∃ t, exec (.gateDone r) s = .next t ∧ t.region r.val = 0 ∧ t.fld pg 0x04C 4 4 = resDONE ∧ (t.rgn r.val).trans = none ∧
            t.fld pg 0x050 10 10 = 0 ∧ c0 + (if s.region r.val = 4 then 7 else 3) * usec ≤ t.time ∧
            ∀ x w, x < 1296 → regionOf x = r.val → w < spadWords → t.spadWord x w = ⟨0, true⟩))) ∧
      ∀ v : Bool, s.flag pg 0x040 0 = !v →
        (s.runs pg = true → exec (.trimChange r v) s = .next (s.wlock pg)) ∧
        (s.runs pg = false → ∃ t, exec (.trimChange r v) s = .next t ∧ t.flag pg 0x040 0 = v ∧
          (s.region r.val ≠ 2 → t = { s with regs := t.regs }) ∧
          (s.region r.val = 2 → t.fld pg 0x050 0 10 = (max 500 (min 850 (t.vlogRaw r.val s.targetStep))).toNat ∧
            LogFrame { s with regions := t.regions } t)))

/-- PHASE_FAULT, OVER_LIMIT, REGION_TRIP, IBC_FAILURE and DOMAIN_CONVERTER_FAILURE (R445 to R449, R473): the first phase lost is PHASE1, the
second PHASE2 with a replace cause, the third makes the region LOST; an average above the limit is OVERLIM and raises L by 2 or 3; a
trip is recorded and the region is LOST; the last converter but one of a bus raises a replace cause, the last one loses every
region of the facet; without its last converter the optical domain's ports are DOWN.

SUPPLY_EXCURSION, INPUT_CUTOFF and EPO (R450, R451, R472): a voltage outside 44 V to 58 V sets SUPPLY when it first leaves; below 40 V or
above 60 V, and at EPO, every region that is not LOST is OFF, every optical port DOWN, and no step change is pending. -/
def Obligations.PowerFailures : Prop :=
   ((∀ (r : Region) (p : Fin 8) (temp : Bool) (s : State),
      let pg := pgPRG r.val
      let n := ((List.range 8).filter fun i => i != p.val && s.flag pg 0x05C i).length
      (s.flag pg 0x05C p.val = false → exec (.phaseFault r (Fin.castLE (by decide) p) temp) s = .next s) ∧
      (s.flag pg 0x05C p.val = true → ∃ t, exec (.phaseFault r (Fin.castLE (by decide) p) temp) s = .next t ∧ t.flag pg 0x05C p.val = false ∧
        t.fld pg 0x04C 8 4 = n ∧
        (n = 7 → t.region r.val = s.region r.val ∧ bitOf (t.hdr pg).err 8 = true ∧ t.fld pg 0x04C 12 2 = 1 ∧ LogFrame s t) ∧
        (n = 6 → t.region r.val = s.region r.val ∧ bitOf (t.hdr pg).err 9 = true ∧ t.fld pg 0x04C 12 2 = 2 ∧
          bitOf (t.reg (pgFLT 3) 0x040) 4 = true ∧ LogFrame s t) ∧
        (n < 6 → t.region r.val = 5))) ∧
    (∀ (r : Region) (avg : BitVec 9) (s : State),
      let pg := pgPRG r.val
      let l := min (2 * s.fld pg 0x040 8 8) (if s.fld pg 0x04C 8 4 = 8 then 260 else if s.fld pg 0x04C 8 4 = 7 then 227 else 165)
      ∃ t, exec (.overLimit r avg) s = .next t ∧ t.fld pg 0x054 16 9 = avg.toNat ∧ nextMs s.time ≤ t.time ∧ SameMem s t ∧ t.tiles = s.tiles ∧
        ((avg.toNat ≤ l ∧ s.injPend pg 11 = false) ∨ s.region r.val = 5 → t = { s with regs := t.regs, time := t.time, facets := t.facets }) ∧
        (l < avg.toNat → s.region r.val ≠ 5 → bitOf (t.hdr pg).err 11 = true ∧
          (s.localActs = true → t.lskip r.val = min 15 (s.lskip r.val + (if s.flag pg 0x04C 13 then 3 else 2))) ∧
          (s.localActs = false → t.lskip r.val = s.lskip r.val))) ∧
    (∀ (r : Region) (c : Fin 3) (p : Fin 8) (i : BitVec 9) (s : State),
      (s.region r.val = 5 → exec (.regionTrip r c p i) s = .next s) ∧
      (s.region r.val ≠ 5 → ∃ t, exec (.regionTrip r c p i) s = .next t ∧ t.region r.val = 5 ∧ t.nv.lost.contains r.val = true ∧
        t.reg (pgPRG r.val) 0x060 = c.val + 1 + p.val * 4 + i.toNat * 2 ^ 8 ∧ bitOf (t.hdr (pgPRG r.val)).err 10 = true ∧
        bitOf (t.reg (pgFLT 3) 0x040) 3 = true)) ∧
    (∀ (f : Facet) (i : Fin 3) (s : State), s.flag (pgPRG (6 * f.val)) 0x080 i.val = true →
      (∀ r, r / 6 = f.val → s.fld (pgPRG r) 0x080 0 3 = s.fld (pgPRG (6 * f.val)) 0x080 0 3) →
      let n := ((List.range 3).filter fun k => k != i.val && s.flag (pgPRG (6 * f.val)) 0x080 k).length
      ∃ t, exec (.ibcFailure f i) s = .next t ∧ (∀ r, r / 6 = f.val → t.flag (pgPRG r) 0x080 i.val = false) ∧
        (n ≠ 0 → (∀ r, r / 6 = f.val → t.fld (pgPRG r) 0x080 16 11 = busCap n ∧ bitOf (t.hdr (pgPRG r)).err 13 = true) ∧ LogFrame s t) ∧
        (n = 1 → bitOf (t.reg (pgFLT 3) 0x040) 5 = true) ∧
        (n = 0 → (∀ r, r / 6 = f.val → t.region r = 5) ∧ bitOf (t.reg (pgFLT 3) 0x040) 6 = true)) ∧
    ∀ (d : Fin 3) (i : Fin 2) (s : State),
      let k := 2 * d.val + i.val
      (s.flag pgPWR 0x068 k = false → exec (.domainConverterFailure d i) s = .next s) ∧
      (s.flag pgPWR 0x068 k = true → ∃ t, exec (.domainConverterFailure d i) s = .next t ∧ t.flag pgPWR 0x068 k = false ∧
        bitOf (t.hdr pgPWR).err 13 = true ∧ bitOf (t.reg (pgFLT 3) 0x040) 5 = true ∧
        (s.flag pgPWR 0x068 (2 * d.val + (1 - i.val)) = true → LogFrame { s with ctl := t.ctl } t) ∧
        (s.flag pgPWR 0x068 (2 * d.val + (1 - i.val)) = false → d.val = 0 → ∀ p, p < 32 → t.optState p = optDOWN))) ∧
   (∀ s : State,
      let stopped := fun (t : State) => (∀ r, r < 72 → t.region r = if s.region r = 5 then 5 else 0) ∧
        (∀ p, p < 32 → t.optState p = optDOWN) ∧ t.stepPend = none ∧ t.dram = s.dram ∧ t.nv = s.nv
      (∀ mv : BitVec 16, ∃ t, exec (.supplyExcursion mv) s = .next t ∧ t.fld pgPWR 0x064 0 16 = mv.toNat ∧
        (s.inputOut = false → mv.toNat ≠ 0 → mv.toNat < 44000 ∨ 58000 < mv.toNat → bitOf (t.hdr pgPWR).err 12 = true) ∧
        LogFrame { s with ctl := t.ctl } t) ∧
      (∀ mv : BitVec 16,
        (40000 ≤ mv.toNat → mv.toNat ≤ 60000 → exec (.inputCutoff mv) s = .next s) ∧
        (mv.toNat < 40000 ∨ 60000 < mv.toNat → ∃ t, exec (.inputCutoff mv) s = .next t ∧ stopped t ∧
          t.flag pgPWR 0x06C (if mv.toNat < 40000 then 1 else 2) = true ∧ t.boot.stopCause = 4 ∧
          t.boot.powered = (s.boot.powered && decide (30000 < mv.toNat)))) ∧
      ∃ t, exec .epo s = .next t ∧ stopped t ∧ t.boot.powered = false ∧ t.boot.epo = true)

/-- CONTROL_UPDATE and EMERG (R457 to R461, R480): at the next 10 µs the controller takes the measured power, current and voltage and
recomputes CAP_EFF; a power above it raises G by 1; a power 100 µs at or below the release threshold lets G fall by 1, not oftener than
every 100 µs; a page that is not enabled holds G at 0. Above 13,000 W every microsecond raises G by 1 whatever the page's controls hold.

FLOOR, CAP_UNREACHABLE_CLEAR and LOCAL_SKIP_DECAY (R470, R471): while the floor condition lasts firmware first defers admissions, then asks
the named quiet regions to leave ON, then sets CAP_UNREACHABLE, which clears when the power has kept the cap 100 ms; with no cause
left L of a region falls by 1 every 10 ms. -/
def Obligations.PowerBudget : Prop :=
   ((∀ (p v i : Nat) (s : State),
      let c := max 1000 (min (s.fld pgPWR 0x044 0 14) (min v 65535 * s.fld pgPWR 0x048 0 9 / 1000) - s.fld pgPWR 0x04C 0 14)
      let due := (s.time / (10 * usec) + 1) * (10 * usec)
      let low := decide (p * 1000 ≤ c * (1000 - s.fld pgPWR 0x040 8 8))
      ∃ t, exec (.controlUpdate p v i []) s = .next t ∧ t.time = due ∧ t.fld pgPWR 0x060 0 14 = min p 16383 ∧
        t.fld pgPWR 0x064 0 16 = min v 65535 ∧ t.fld pgPWR 0x064 16 16 = min i 65535 ∧ t.fld pgPWR 0x054 0 14 = c ∧
        (s.injPend pgPWR 8 = false → t.flag pgPWR 0x054 19 = decide (13000 < p)) ∧ SameMem s t ∧ t.tiles = s.tiles ∧ t.reqs = s.reqs ∧
        (s.ctrlActs = true → s.flag pgPWR 0x040 0 = true →
          (c < p → t.gLevel = min 15 (s.gLevel + 1)) ∧
          (p ≤ c → low = false → t.gLevel = s.gLevel) ∧
          (p ≤ c → ∀ a, s.ctl.lowSince = some a → a + 100 * usec ≤ due → s.ctl.lastFall + 100 * usec ≤ due → low = true →
            t.gLevel = s.gLevel - 1)) ∧
        (s.ctrlActs = true → s.flag pgPWR 0x040 0 = false → t.gLevel = s.gLevel) ∧
        (s.enabled pgPWR = true → s.halting pgPWR = true → t.gLevel = s.gLevel ∧ t.stepPend = s.stepPend) ∧
        (s.enabled pgPWR = false → p ≤ 13000 → t.gLevel = 0 ∧ t.stepPend = s.stepPend)) ∧
    ∀ (p : Nat) (s : State), ∃ t, exec (.emerg p) s = .next t ∧ t.time = (s.time / usec + 1) * usec ∧
      t.gLevel = (if 13000 < p then min 15 (s.gLevel + 1) else s.gLevel) ∧
      (s.injPend pgPWR 8 = false → t.flag pgPWR 0x054 19 = decide (13000 < p)) ∧
      (13000 < p → s.flag pgPWR 0x054 19 = false → bitOf (t.hdr pgPWR).err 8 = true) ∧
      LogFrame { s with time := t.time, facets := t.facets, ctl := t.ctl, regions := t.regions } t) ∧
   ((∀ s : State,
      (s.flag pgPWR 0x054 18 = false → ∀ l, exec (.floor l) s = .next s) ∧
      (s.flag pgPWR 0x054 18 = true →
        (s.ctl.floorStep = 0 → ∀ l, exec (.floor l) s = .next { s with ctl := { s.ctl with floorStep := 1 } }) ∧
        (s.ctl.floorStep = 1 → ∀ r : Fin 72, s.region r.val = 2 → s.quiet r.val = true → s.halting (pgPRG r.val) = false →
          (s.rgn r.val).pend = none → (s.rgn r.val).trans = none → ∃ t, exec (.floor [r]) s = .next t ∧ t.region r.val = 4 ∧
            (t.rgn r.val).trans = some (1, t.time) ∧ t.ctl.floorStep = 2 ∧ t.time = s.time + 10 * msec) ∧
        (s.ctl.floorStep = 2 → ∀ l, ∃ t, exec (.floor l) s = .next t ∧ t.flag pgPWR 0x05C 7 = true ∧ t.flag pgPWR 0x058 7 = true ∧
          t.ctl.floorStep = 3 ∧ t.time = s.time + 10 * msec))) ∧
    (∀ (s : State) (a : Nat), s.ctl.okSince = some a → s.flag pgPWR 0x05C 7 = true → ∃ t, exec .capUnreachableClear s = .next t ∧
      t.flag pgPWR 0x05C 7 = false ∧ t.flag pgPWR 0x058 7 = false ∧ t.ctl.floorStep = 0 ∧ t.time = max s.time (a + 100 * msec)) ∧
    ∀ (r : Region) (s : State), s.localActs = true → (s.rgn r.val).causes = [] → s.flag (pgPRG r.val) 0x04C 13 = false →
      (s.lskip r.val = 0 → exec (.localSkipDecay r) s = .next s) ∧
      (0 < s.lskip r.val → ∃ t, exec (.localSkipDecay r) s = .next t ∧ t.lskip r.val = s.lskip r.val - 1 ∧
        t.time = max s.time ((s.rgn r.val).lastFall + 10 * msec) ∧ (t.rgn r.val).lastFall = t.time ∧ SameMem s t ∧ t.tiles = s.tiles))

/-- THERMAL_THRESHOLD, THERMAL_DOWN_STEP and THERMAL_TRIP (R474, R475; Table 16.1): a tile at or above THR raises L of its region by 1, and the first
crossing of all sets THERM; a condition held 10 ms asks for the next slower step; a sensor at 110 °C stops every converter, so that
every region not LOST is OFF, and is recorded.

STEP_RAISE, WAIT_SHARE and PACE_WINDOW (R469, R476, R477): firmware asks for the next faster step when the conditions of R469 hold; a
window's wait share above 1 % shows PACE; with pacing, a wait share above 4 % asks for the slowest step that still keeps up. -/
def Obligations.ThermalLimitsAndSteps : Prop :=
   ((∀ (x : Site) (temp : BitVec 12) (s : State), s.siteOn x.val = true → s.flag pgPWR 0x040 1 = true → (s.hdr pgPWR).inj = 0 →
      s.ctl.hot.all (fun e => e.1 != injSource) = true →
      ∃ t, exec (.thermalThreshold x.val temp) s = .next t ∧ t.time = nextMs s.time ∧ t.fld (pgTEL x.val 1) 0x040 0 12 = temp.toNat ∧
        t.fld (pgTEL x.val 1) 0x044 0 12 = max temp.toNat (s.fld (pgTEL x.val 1) 0x044 0 12) ∧ SameMem s t ∧
        (s.thr ≤ temp.toNat → s.localActs = true → t.lskip (regionOf x.val) = min 15 (s.lskip (regionOf x.val) + 1)) ∧
        (s.thr ≤ temp.toNat → s.ctl.hot = [] → bitOf (t.hdr pgPWR).err 10 = true) ∧
        (temp.toNat < s.thr → t.lskip (regionOf x.val) = s.lskip (regionOf x.val))) ∧
    (∀ s : State,
      (s.thermDue = none → exec .thermalDownStep s = .next s) ∧
      (∀ a, s.thermDue = some a → s.ctrlActs = true → s.flag pgPWR 0x040 1 = true → s.step < 7 → s.stepPend = none →
        ∃ t p, exec .thermalDownStep s = .next t ∧ t.stepPend = some p ∧ p.target = s.step + 1 ∧ p.reasons = [2] ∧ p.ctrl = true ∧
          t.time + 50 * usec ≤ p.t ∧ s.lastSwitch + 50 * usec ≤ p.t ∧ a + 10 * msec ≤ t.time ∧ t.ctl.lastDn = t.time ∧ SameMem s t)) ∧
    ∀ (x : Site) (temp : BitVec 12) (s : State),
      (temp.toNat < 0x960 → exec (.thermalTrip x.val temp) s = .next s) ∧
      (0x960 ≤ temp.toNat → ∃ t, exec (.thermalTrip x.val temp) s = .next t ∧ (∀ r, r < 72 → t.region r = if s.region r = 5 then 5 else 0) ∧
        t.flag pgPWR 0x06C 0 = true ∧ t.fld pgPWR 0x06C 8 12 = temp.toNat ∧ t.fld pgPWR 0x06C 20 12 = x.val ∧ t.boot.stopCause = 3 ∧
        t.boot.tripAt = some (s.time + 10 * usec) ∧ (∀ p, p < 32 → t.optState p = optDOWN) ∧ t.dram = s.dram)) ∧
   (∀ s : State,
      (∀ ps d, s.mayRaise ps d = true → s.ctl.paceHold = false → max s.time s.lastSwitch + 50 * usec < 2 ^ 64 →
        ∃ t p, exec (.stepRaise ps d) s = .next t ∧ t.stepPend = some p ∧ p.target = s.step - 1 ∧ p.ctrl = false ∧
          s.time + 50 * usec ≤ p.t ∧ t = { s with regs := t.regs, stepPend := t.stepPend }) ∧
      (∀ ps d, s.mayRaise ps d = false ∨ s.ctl.paceHold = true → exec (.stepRaise ps d) s = .next s) ∧
      (∀ w : BitVec 14, ∃ t, exec (.waitShare w) s = .next t ∧ t.time = (s.time / (10 * msec) + 1) * (10 * msec) ∧
        t.flag pgPWR 0x05C 4 = (decide (100 < w.toNat) || s.ctl.paceHold) ∧ t.flag pgPWR 0x058 4 = t.flag pgPWR 0x05C 4 ∧ SameMem s t) ∧
      (∀ (w : BitVec 14) ps d j, s.job = some j →
        let due := (s.time / (100 * msec) + 1) * (100 * msec)
        (j.cfg.pacing = false → ∃ t, exec (.paceWindow w ps d) s = .next t ∧ t.time = due ∧ TimeFrame s t) ∧
        (j.cfg.pacing = true → 400 < w.toNat → s.step < paceStep s.step w.toNat → s.stepPend = none →
          s.reqs.all (fun r => !r.isLive || r.st != .opening) = true → max due s.lastSwitch + 50 * usec < 2 ^ 64 →
          ∃ t p, exec (.paceWindow w ps d) s = .next t ∧ t.time = due ∧ t.stepPend = some p ∧ p.target = paceStep s.step w.toNat ∧
            t.ctl.paceHold = true ∧ t.flag pgPWR 0x05C 4 = true)))

/-- METER_INTERVAL_END, ATTRIBUTION, ATTRIBUTION_LATE and REQUEST_SHARE (R481, R482, R487 to R489, R508): at the end of a millisecond a running page forms
the interval's energies, counts them and starts a committed calibration with the next epoch; attribution writes the oldest interval's
table into its ring slot and sets HEAD, with ATTR_LATE where 1 ms has passed, and writes none with ATTR_EN at 0; a table is divided once, and in an interval in which one request received energy it is given all
of E_IN, without one none. -/
def Obligations.MeteringIntervals : Prop :=
  (∀ (m : Measured) (s : State),
    let due := max s.time (nextMs s.mtr.at_)
    let n := due / msec - 1
    (s.runs pgMTR = false → ∃ t, exec (.meterIntervalEnd m) s = .next t ∧ t.time = due ∧ t.mtr = { s.mtr with at_ := due } ∧
      TimeFrame { s with mtr := t.mtr } t) ∧
    (s.runs pgMTR = true → ∃ t e, exec (.meterIntervalEnd m) s = .next t ∧ t.time = due ∧ t.mtr.at_ = due ∧ t.mtr.total = s.mtr.total + e ∧
      t.reg pgMTR 0x048 = n % 2 ^ 32 ∧ t.reg64 pgMTR 0x050 = e % 2 ^ 64 ∧ SameMem s t ∧ t.reqs = s.reqs ∧
      (s.flag pgMTR 0x044 0 = false → ∀ nj, m.samples = [⟨723, nj, 1000⟩] → e = nj) ∧
      (∃ iv, t.mtr.intervals = s.mtr.intervals ++ [iv] ∧ iv.n = n ∧ iv.ein = e ∧ iv.step = s.step ∧ iv.cal = s.mtr.cal ∧
        iv.attr = s.flag pgMTR 0x040 0 ∧ iv.late = false ∧ t.mtr.tables = s.mtr.tables ∧
        (s.injPend pgMTR 11 = false → iv.eloss = e - (iv.ereg.sum + (iv.elink + iv.emem + iv.esvc))) ∧
        (s.injPend pgMTR 11 = true → s.injPend pgMTR 10 = false → iv.eloss = 0 ∧ iv.degraded = true)) ∧
      (s.mtr.commit = none → t.mtr.cal = s.mtr.cal ∧ t.nv = s.nv) ∧
      (∀ c, s.mtr.commit = some c → t.mtr.cal = c ∧ t.mtr.commit = none ∧ t.nv.epoch = (s.nv.epoch + 1) % 2 ^ 32 ∧
        t.reg pgMTR 0x0AC = t.nv.epoch ∧ t.flag pgMTR 0x044 0 = true))) ∧
  (∀ s : State, s.mtr.intervals = [] → (∀ l, exec (.attribution l) s = .next s) ∧ exec .attributionLate s = .next s) ∧
  (∀ (s : State) (iv : Interval) (rest : List Interval), s.mtr.intervals = iv :: rest →
    (∀ l, let m := if iv.attr then (s.memSet (s.reg64 pgMTR 0x080 + iv.n % max 1 (s.fld pgMTR 0x088 0 8) * 0x4_0000)
          (tableWords iv iv.table)).setReg pgMTR 0x08C (iv.n % 2 ^ 32) else s
      ∃ t, exec (.attribution l) s = .next t ∧ t.mtr = { s.mtr with intervals := rest, tables := s.mtr.tables ++ [iv.table] } ∧
        t.reg pgMTR 0x08C = m.reg pgMTR 0x08C ∧ LogFrame { m with mtr := t.mtr, ctl := t.ctl } t ∧
        (iv.attr = true → iv.late = false → (iv.n + 2) * msec < s.time → bitOf (t.hdr pgMTR).err 9 = true) ∧
        (iv.attr = false ∨ iv.late = true ∨ s.time ≤ (iv.n + 2) * msec → s.injPend pgMTR 9 = false →
          t = { m with mtr := t.mtr, ctl := t.ctl })) ∧
    (iv.late = true ∨ iv.attr = false → exec .attributionLate s = .next s) ∧
    (iv.late = false → iv.attr = true → ∃ t, exec .attributionLate s = .next t ∧ t.time = max s.time ((iv.n + 2) * msec) ∧
      bitOf (t.hdr pgMTR).err 9 = true ∧ t.mtr = { s.mtr with intervals := { iv with late := true } :: rest } ∧
      LogFrame { s with time := t.time, facets := t.facets, mtr := t.mtr } t)) ∧
  (∀ s : State, s.mtr.tables = [] → ∀ l, exec (.requestShare l) s = .next s) ∧
  ∀ (s : State) (tab : AttrTable) (rest : List AttrTable), s.mtr.tables = tab :: rest → tab.degraded = false →
    (∃ t, exec (.requestShare []) s = .next t ∧ t = { s with mtr := { s.mtr with
      tables := rest, shared := tab.n + 1, flows := s.mtr.flows ++ [(tab.n, tab.ein, 0, false)] } }) ∧
    ∀ (x : TagShare) (r : Req) (j : Job) (k w : Nat), tab.tags = [x] → x.tag ≠ 4095 → s.serving = true → s.job = some j →
      j.cfg.tagKinds = [(x.tag, k)] → k ≠ kindOverhead → 0 < w → s.rcp.waiting = [] → s.binds = [] → s.reqs = [r] → r.isLive = true → r.firstIv ≤ tab.n →
      0 < x.dyn + x.stat + x.shared → x.dyn + x.stat + x.shared ≤ tab.ein →
      ∃ t, exec (.requestShare [(x.tag, [(r.seq, w)])]) s = .next t ∧
        t.reqs.map (fun q => Energy.total q.energy) = [Energy.total r.energy + tab.ein] ∧
        t.reqs.map (fun q => q.energy.1) = [r.energy.1 + x.dyn] ∧
        t.mtr.flows = s.mtr.flows ++ [(tab.n, tab.ein, tab.ein, false)] ∧ t.mtr.shared = tab.n + 1

/-- The division of R489: by the largest remainder, with distinct places in the order of ties, the parts sum to what is divided, and each
is the floor of its share or one more. -/
def Obligations.DivisionIsExact : Prop :=
  ∀ (x : Nat) (l : List (Nat × Nat × Nat)), (l.map fun e => e.2.1).Nodup → 0 < (l.map fun e => e.2.2).sum →
    ((largestRemainder x l).map (·.2)).sum = x ∧
    ∀ i (h : i < l.length), ((largestRemainder x l)[i]?).any (fun p => p.1 == l[i].1 &&
      (p.2 == x * l[i].2.2 / (l.map fun e => e.2.2).sum || p.2 == x * l[i].2.2 / (l.map fun e => e.2.2).sum + 1)) = true

/-- RECEIPT_SEAL, FLACON_BUILD, RESERVATION_RETRY, SIGNING_STALL, NEXT_TREE_READY and ROLLOVER_DONE (R491, R496, R502 to R504): the lowest slot's receipt
whose last interval is divided is sealed with the next RNUM; a flacon waits for its intervals, takes the period's receipts, is held while
no reservation can be made, and otherwise signed with the next index and kept; a failure raises a replace cause after 60 s and holds
admissions after 3,600 s. -/
def Obligations.ReceiptsAndFlacons : Prop :=
  (∀ s : State, (s.sealable = none → exec .receiptSeal s = .next s) ∧
    ∀ p, s.rcp.waiting = [p] → p.interval < s.mtr.shared → ∃ t, exec .receiptSeal s = .next t ∧ t.rcp.waiting = [] ∧
      t.rcp.sealed = s.rcp.sealed ++ [(s.time, s.reg64 pgRCP 0x058, s.receipt p (s.reg64 pgRCP 0x058))] ∧
      t.reg64 pgRCP 0x058 = (s.reg64 pgRCP 0x058 + 1) % 2 ^ 64 ∧ t = { s with rcp := t.rcp, binds := t.binds, regs := t.regs }) ∧
  (∀ (s : State) (ok : Bool),
    let f := s.rcp.next
    let undivided := s.mtr.intervals.any (fun i => decide (i.n ≤ 100 * f + 99)) || s.mtr.tables.any fun x => decide (x.n ≤ 100 * f + 99)
    let mine := (s.rcp.sealed.filter fun r => decide (r.1 < (f + 1) * period)).take 65536
    (undivided = true → exec (.flaconBuild ok) s = .next s) ∧
    (undivided = false → s.rcp.failing.isSome = true → ∃ t x, exec (.flaconBuild ok) s = .next t ∧ t.rcp.next = f + 1 ∧
      t.time = max s.time ((f + 1) * period) ∧ t.rcp.held = s.rcp.held ++ [x] ∧ x.fnum = f ∧ x.receipts = mine.map (fun r => r.2.2) ∧
      t.rcp.sealed = s.rcp.sealed.drop mine.length ∧ t.rcp.store = s.rcp.store) ∧
    (undivided = false → s.rcp.failing = none → s.rcp.held = [] → s.rcp.newKey = none → s.enabled pgRCP = true → s.halting pgRCP = false →
      s.reg64 pgRCP 0x060 < 1024 * s.nv.rsv → (s.reg64 pgRCP 0x060 + 1) % 1024 ≠ 512 → s.reg64 pgRCP 0x060 + 1 ≤ 2 ^ 40 - 2 ^ 24 →
      ∃ t g, exec (.flaconBuild ok) s = .next t ∧ t.rcp.held = [] ∧ t.rcp.store = s.rcp.store ++ [g] ∧ g.fnum = f ∧
        g.receipts = mine.map (fun r => r.2.2) ∧ t.rcp.next = f + 1 ∧ t.reg64 pgRCP 0x060 = s.reg64 pgRCP 0x060 + 1 ∧
        t.reg64 pgRCP 0x050 = f % 2 ^ 64 ∧ (t.flag pgRCP 0x040 1 = s.rcp.rolling.isSome) ∧
        ∀ i, i < 8 → t.reg pgRCP (0x080 + 4 * i) = fromLe (((sha256 g.cose).drop (4 * i)).take 4) % 2 ^ 32)) ∧
  (∀ s : State, s.rcp.failing = none → (∀ ok, exec (.reservationRetry ok) s = .next s) ∧ exec .signingStall s = .next s) ∧
  (∀ (s : State) (a : Nat), s.rcp.failing = some a →
    (∃ t, exec (.reservationRetry false) s = .next t ∧ t.time = max s.time (s.rcp.tried + second) ∧ t.rcp = { s.rcp with tried := t.time } ∧
      bitOf (t.hdr pgRCP).err 8 = true) ∧
    (s.rcp.held = [] → ∃ t, exec (.reservationRetry true) s = .next t ∧ t.rcp = { s.rcp with failing := none, admitHold := false } ∧
      t.nv = { s.nv with rsv := s.nv.rsv + 1 } ∧ t.reg64 pgRCP 0x068 = 1024 * (s.nv.rsv + 1) % 2 ^ 64) ∧
    (bitOf (s.reg (pgFLT 3) 0x040) 7 = false → ∃ t, exec .signingStall s = .next t ∧ t.time = max s.time (a + 60 * second) ∧
      bitOf (t.reg (pgFLT 3) 0x040) 7 = true ∧ LogFrame { s with time := t.time, facets := t.facets } t) ∧
    (bitOf (s.reg (pgFLT 3) 0x040) 7 = true → ∃ t, exec .signingStall s = .next t ∧ t.time = max s.time (a + 3600 * second) ∧
      t.rcp = { s.rcp with admitHold := true } ∧ TimeFrame { s with rcp := t.rcp } t)) ∧
  ∀ s : State,
    (2 ^ 19 ≤ s.reg64 pgRCP 0x060 % 2 ^ 20 → ∃ t, exec .nextTreeReady s = .next t ∧ t.flag pgRCP 0x040 2 = true ∧ t = { s with regs := t.regs }) ∧
    (s.reg64 pgRCP 0x060 % 2 ^ 20 < 2 ^ 19 → exec .nextTreeReady s = .next s) ∧
    (s.rcp.rolling = none → exec .rolloverDone s = .next s) ∧
    ∀ a, s.rcp.rolling = some a → ∃ t, exec .rolloverDone s = .next t ∧
      t.rcp = { s.rcp with rolling := none, newKey := some (s.rcp.keyId + 1) } ∧ t = { s with rcp := t.rcp, regs := t.regs }

/-- PRESENCE_BUTTON, PRESENCE_EXPIRY, PRES_CLOSE, SEAL_OPEN and SEAL_CLOSE (R505, R563, R564): a press of 50 ms to 10 s opens the window for
120 s, which then or on a close ends with the staging image; an opening of the closed loop blows the next fuse of the counter and
marks every live request; a close discards the staging image.

CAL_DATA, CAL_COMMIT, DISCARD and ROLLOVER (R46, R503, R507, R508): outside the presence window a guarded write is ignored with WLOCK and PRES;
a calibration write that the seal refuses sets WLOCK and CALDENY, as does the commit of an image out of range; else a word goes into the
staging image, the image is committed, or discarded; a rollover begins. -/
def Obligations.PresenceSealAndGuardedWrites : Prop :=
   ((∀ (ms : Nat) (s : State),
      (ms < 50 ∨ 10000 < ms → ∃ t, exec (.presenceButton ms) s = .next t ∧ t.time = s.time + ms * msec ∧ TimeFrame s t) ∧
      (50 ≤ ms → ms ≤ 10000 → ∃ t, exec (.presenceButton ms) s = .next t ∧ t.time = s.time + ms * msec ∧
        t.sealLoop = { s.sealLoop with window := some (t.time + 120 * second) } ∧ t.presOpen = true ∧ t.flag pgSEAL 0x040 9 = true ∧
        LogFrame { s with time := t.time, facets := t.facets, sealLoop := t.sealLoop } t)) ∧
    (∀ s : State, s.sealLoop.window = none → exec .presenceExpiry s = .next s ∧ exec .presClose s = .next s) ∧
    (∀ (s : State) (w : Nat), s.sealLoop.window = some w → ∃ t u, exec .presenceExpiry s = .next t ∧ exec .presClose s = .next u ∧
      t.time = max s.time w ∧ u.time = s.time ∧ ∀ x, x = t ∨ x = u → x.presOpen = false ∧ x.mtr = { s.mtr with staging := none } ∧
        x.flag pgSVC 0x054 0 = false ∧ x.flag pgSEAL 0x040 9 = false ∧
        LogFrame { s with time := x.time, facets := x.facets, sealLoop := x.sealLoop, mtr := x.mtr } x) ∧
    ∀ s : State,
      (s.flag pgSEAL 0x040 0 = false → ∀ ok, ∃ t, exec (.sealOpen ok) s = .next t ∧ t.time = s.time + 10 * msec ∧ TimeFrame s t) ∧
      (s.flag pgSEAL 0x040 0 = true → s.sealCount < 32 → ∀ ok, ∃ t, exec (.sealOpen ok) s = .next t ∧ t.time = s.time + 10 * msec ∧
        t.flag pgSEAL 0x040 0 = false ∧ t.sealCount = s.sealCount + b2n (ok && !s.injPend pgSEAL 10) ∧ bitOf (t.hdr pgSEAL).err 8 = true ∧ t.nv.loopClosed = false ∧
        (ok = false ∨ s.injPend pgSEAL 10 = true → t.flag pgSEAL 0x040 8 = true ∧ bitOf (t.hdr pgSEAL).err 10 = true) ∧
        (∀ r, r ∈ t.reqs → r.isLive = true → bitOf r.rflags 0 = true) ∧ SameMem s t) ∧
      (s.sealLoop.injOpen = none → ∃ t, exec .sealClose s = .next t ∧ t.time = s.time + 10 * msec ∧ t.flag pgSEAL 0x040 0 = true ∧
        (s.flag pgSEAL 0x040 0 = false → t.mtr = { s.mtr with staging := none } ∧ t.nv.loopClosed = true) ∧
        (s.flag pgSEAL 0x040 0 = true → TimeFrame s t) ∧ SameMem s t)) ∧
   (∀ s : State,
      (s.presOpen = false → (s.hdr pgMTR).inj = 0 → (s.hdr pgRCP).inj = 0 → ∀ v, ∃ t u x y, exec (.calData v) s = .next t ∧
        exec .calCommit s = .next u ∧ exec .discard s = .next x ∧ exec .rollover s = .next y ∧
        (∀ z, z = t ∨ z = u ∨ z = x → (z.hdr pgMTR).wlock = true ∧ bitOf (z.hdr pgMTR).err 2 = true ∧ LogFrame s z) ∧
        (y.hdr pgRCP).wlock = true ∧ bitOf (y.hdr pgRCP).err 2 = true ∧ LogFrame s y) ∧
      (s.presOpen = true → (s.hdr pgMTR).inj = 0 →
        (s.calAllowed = false → ∀ v, ∃ t u x, exec (.calData v) s = .next t ∧ exec .calCommit s = .next u ∧ exec .discard s = .next x ∧
          ∀ z, z = t ∨ z = u ∨ z = x → (z.hdr pgMTR).wlock = true ∧ bitOf (z.hdr pgMTR).err 8 = true ∧ LogFrame s z) ∧
        (s.calAllowed = true →
          let img := s.mtr.staging.getD s.mtr.cal
          (∀ v : Word, ∃ t i, exec (.calData v) s = .next t ∧ t.mtr = { s.mtr with staging := some i } ∧ t.flag pgMTR 0x044 2 = true ∧
            t = { s with mtr := t.mtr, regs := t.regs } ∧
            ∀ k, calWord i k = if k = s.fld pgMTR 0x0A0 0 12 ∧ calDefined k then v.toNat else calWord img k) ∧
          (calBad img = true → ∃ t, exec .calCommit s = .next t ∧ (t.hdr pgMTR).wlock = true ∧ bitOf (t.hdr pgMTR).err 8 = true ∧ LogFrame s t) ∧
          (calBad img = false → ∃ t, exec .calCommit s = .next t ∧ t.mtr = { s.mtr with commit := some img, staging := none } ∧
            t.flag pgMTR 0x044 2 = false ∧ t = { s with mtr := t.mtr, regs := t.regs }) ∧
          ∃ t, exec .discard s = .next t ∧ t.mtr = { s.mtr with staging := none } ∧ t.flag pgMTR 0x044 2 = false ∧
            t = { s with mtr := t.mtr, regs := t.regs })) ∧
      (s.presOpen = true → (s.hdr pgRCP).inj = 0 → s.rcp.rolling = none → s.rcp.newKey = none → ∃ t, exec .rollover s = .next t ∧
        t.rcp = { s.rcp with rolling := some s.time } ∧ t.flag pgRCP 0x040 1 = true ∧ t = { s with rcp := t.rcp, regs := t.regs }))

/-- R43. A masked error still sets its PG_ERR bit and still counts in PG_ERR_CNT. It does not set PG_STATUS.ERR, bit 2 of offset 0x008, and is
not reported to the error log: neither the log nor any collector changes. -/
def Obligations.MaskedErrors : Prop :=
  ∀ (pg : Nat) (b : Fin 32) (s : State), pageExists pg = true → errDefined pg b.val = true → (s.hdr pg).inj = 0 →
    bitOf (s.hdr pg).mask b.val = true → ∃ t, exec (.errReport pg b) s = .next t ∧ bitOf (t.hdr pg).err b.val = true ∧
      (t.hdr pg).corr = (if (corrBits (pgTy pg)).contains b.val then min 0xFFFF ((s.hdr pg).corr + 1) else (s.hdr pg).corr) ∧
      (t.hdr pg).unc = (if (corrBits (pgTy pg)).contains b.val = false ∧ (uncBits (pgTy pg)).contains b.val = true
        then min 0xFFFF ((s.hdr pg).unc + 1) else (s.hdr pg).unc) ∧
      bitOf (t.pgStatus pg) 2 = bitOf (s.pgStatus pg) 2 ∧ t.log = s.log ∧ t.colls = s.colls ∧ t = { s with hdrs := t.hdrs }

/-- ERR_REPORT (R42, R43, R524): an event of a page sets its PG_ERR bit and counts as its class says; a masked one is not logged; a bit or page
that does not exist reports nothing.

COLLECTOR_INTERVAL, FLT_POP, SW_SUBMIT and FLT_REPLACE_SET (R525 to R532): at the end of its millisecond a coalescing entry that counted reports is
written out and one that saw none is freed; FLT_POP takes the head of the log; a software record with COUNT 0 is refused, another is
logged; replace causes are added and never taken away. -/
def Obligations.ErrorReportsAndLog : Prop :=
   (∀ (pg : Nat) (b : Fin 32) (s : State),
      (pageExists pg = false ∨ errDefined pg b.val = false → exec (.errReport pg b) s = .next s) ∧
      (pageExists pg = true → errDefined pg b.val = true → (s.hdr pg).inj = 0 → ∃ t, exec (.errReport pg b) s = .next t ∧
        bitOf (t.hdr pg).err b.val = true ∧
        (t.hdr pg).corr = (if (corrBits (pgTy pg)).contains b.val then min 0xFFFF ((s.hdr pg).corr + 1) else (s.hdr pg).corr) ∧
        ((corrBits (pgTy pg)).contains b.val = false →
          (t.hdr pg).unc = if (uncBits (pgTy pg)).contains b.val then min 0xFFFF ((s.hdr pg).unc + 1) else (s.hdr pg).unc) ∧
        (bitOf (s.hdr pg).mask b.val = true → t = { s with hdrs := t.hdrs }) ∧ LogFrame s t)) ∧
   ((∀ (k : Fin 13) (s : State), ∃ t, exec (.collectorInterval k) s = .next t ∧ t.time = nextMs s.time ∧
      LogFrame { s with time := t.time, facets := t.facets } t ∧
      (s.waiting = 0 → ∀ e, (s.coll k.val).entries = [e] → (s.coll k.val).overflow = [] →
        (0 < e.count → s.log.length < 4095 → s.halting (pgFLT 0) = false → t.waiting = 0 ∧ t.log.length = s.log.length + 1 ∧
          (t.coll k.val).entries = [{ e with count := 0, active := false }] ∧
          (t.log.getLast?).map (fun r => (r.count, r.pgid, r.bit)) = some (e.count, e.pgid, e.bit)) ∧
        (e.count = 0 → e.active = true → (t.coll k.val).entries = [{ e with active := false }] ∧ t.log = s.log) ∧
        (e.count = 0 → e.active = false → (t.coll k.val).entries = [] ∧ t.log = s.log))) ∧
    (∀ s : State, s.waiting = 0 → exec .fltPop s = .next { s with log := s.log.drop 1 }) ∧
    (∀ s : State,
      let w := fun (i : Nat) => s.reg (pgFLT 2) (0x040 + 4 * i)
      (w 4 = 0 ∨ s.injPend (pgFLT 0) 11 = true → ∃ t, exec .swSubmit s = .next t ∧ bitOf (t.hdr (pgFLT 0)).err 11 = true ∧ LogFrame s t) ∧
      (w 4 ≠ 0 → s.injPend (pgFLT 0) 11 = false → s.colls = [] → s.log.length < 4095 → s.halting (pgFLT 0) = false → ∃ t r, exec .swSubmit s = .next t ∧
        t.log = s.log ++ [r] ∧ r.tfirst = w 0 + w 1 * 2 ^ 32 ∧ r.tlast = w 2 + w 3 * 2 ^ 32 ∧ r.count = w 4 ∧ r.pgid = w 5 ∧
        r.bit = w 6 % 2 ^ 8 ∧ r.coll = 12 ∧ bitOf r.flags 3 = true ∧ r.seqno = s.logSeq % 2 ^ 32 ∧
        r.detail = (List.range 8).map (fun i => w (8 + i)) ∧ LogFrame s t)) ∧
    ∀ (m : BitVec 12) (s : State), ∃ t, exec (.fltReplaceSet m) s = .next t ∧ LogFrame s t ∧
      ∀ i, i < 12 → bitOf (t.reg (pgFLT 3) 0x040) i = (bitOf (s.reg (pgFLT 3) 0x040) i || bitOf m.toNat i))

/-- POISON_CLASSIFY, WEIGHT_REFETCH and STEP_REISSUE (R518 to R521): a poisoned step that no weight origin can have reached fails its request
with code 0x12, one that was exposed waits for re-issue; a QUERY's PARTIAL goes out and its bind fails; the refetch of a weight word
stores the golden copy and marks the origin; the re-issued step takes the values its rows compute again. -/
def Obligations.PoisonHandling : Prop :=
  (∀ (s : State) (j : Job) (n : Nat) (r : Req) (st : SeqStep), s.job = some j → s.reqAt n = some r → r.step = some st →
    (st.bad = false → exec (.poisonClassify false n) s = .next s) ∧
    (st.bad = true →
      let u := s.waitTime (st.fin + 20 * usec)
      ((u.exposing none st.at_ st.fin).isEmpty = true → ∃ t, exec (.poisonClassify false n) s = .next t ∧ t.reqAt n = none ∧
        t.reqs.length = s.reqs.length ∧ u.time ≤ t.time ∧ t.spad = s.spad ∧ t.imem = s.imem) ∧
      ((u.exposing none st.at_ st.fin).isEmpty = false → ∃ t, exec (.poisonClassify false n) s = .next t ∧ t.time = u.time ∧
        t.reqs = s.reqs.map (fun x => if x.slot == n && x.isLive then { x with step := some { st with bad := false, again := true } } else x) ∧
        t.attns = s.attns.filter (fun a => a.slot != n) ∧ SameMem s t)) ∧
    (∀ w : SeqWork, st.again = true → (s.exposing none st.at_ st.fin).any (fun o => o.done.isNone) = false → w.kv.length = st.kv.length →
      j.cfg.role ≠ 2 → ∃ t, exec (.stepReissue false n w) s = .next t ∧
        t.reqs = s.reqs.map (fun x => if x.slot == n && x.isLive then
          { x with step := some { st with kv := w.kv, at_ := s.time, again := false, fin := 0 } } else x) ∧
        t = { s with reqs := t.reqs, origins := t.origins }) ∧
    ∀ w : SeqWork, st.again = false ∨ w.kv.length ≠ st.kv.length → exec (.stepReissue false n w) s = .next s) ∧
  (∀ (s : State) (j : Job) (n : Nat) (h : HeldQuery), s.job = some j → s.heldQ[n]? = some h →
    let u := s.waitTime (h.since + 20 * usec)
    ((u.exposing (some h.query.layer) h.since h.since).isEmpty = false → exec (.poisonClassify true n) s = .next u) ∧
    ((s.exposing (some h.query.layer) h.since h.since).any (fun o => o.done.isNone) = true → ∀ w, exec (.stepReissue true n w) s = .next s) ∧
    ((u.exposing (some h.query.layer) h.since h.since).isEmpty = true → ∀ recs, u.queryRecords j.cfg h.query true = .ok recs →
      ∃ t, exec (.poisonClassify true n) s = .next t ∧ t.heldQ = s.heldQ.erase h ∧
        (t.outbox.getLast?).map (fun m => (m.chan, m.kind)) = some (.fabric h.query.src, "PARTIAL") ∧
        (∀ b : Bind, b ∈ t.binds → b.seq = h.query.seq → b.failed = true) ∧ SameMem s t)) ∧
  (∀ (s : State) (n : Nat), (s.origins[n]?).bind s.weightLtn = none → exec (.weightRefetch n) s = .next s) ∧
  ∀ (s : State) (n ltn v : Nat) (o : Origin) (img : TileImg) (e : RestEnt), s.origins[n]? = some o → s.weightLtn o = some ltn →
    s.poisonStorm o.place = false → s.tileImg ltn = some img →
    img.rlist.filter (fun g => decide (g.off < 4 * o.address + 4) && decide (4 * o.address < g.off + g.len)) = [e] → e.len = 4 → e.off % 4 = 0 →
    s.memGet e.a = ⟨v, false⟩ → v < 2 ^ 32 → e.off / 4 < spadWords →
    ∃ t, exec (.weightRefetch n) s = .next t ∧ t.spadWord (s.ltnSite ltn) (e.off / 4) = ⟨v, false⟩ ∧ t.dram = s.dram ∧
      (∀ x : Origin, x ∈ t.origins → x.ltn = o.ltn → x.address = o.address → x.done.isSome = true) ∧
      LogFrame { s with spad := t.spad, spadPoison := t.spadPoison, origins := t.origins } t

/-- IN_PLACE_RESTART, SCREENING_RUN, ARM, STOP and CLEAR (R513, R534 to R542): a restart restores the LTN's own site and drains its stage; a run that may
not start changes nothing but what it reports, one that runs leaves the reservation as it was and retires a site that failed; ARM
starts a loupe, STOP stops it, CLEAR empties it. -/
def Obligations.RestartsScreeningAndLoupe : Prop :=
  (∀ (n : BitVec 11) (s : State) (img : TileImg) (r : SubstRec) (j : Job), s.job = some j → s.tileImg n.toNat = some img →
    (j.records.find? fun r => r.ltn == n.toNat) = some r →
    (s.siteClass (s.ltnSite n.toNat) ≠ .bound → ∀ l b, exec (.inPlaceRestart n l b) s = .next s) ∧
    (s.siteClass (s.ltnSite n.toNat) = .bound → img.rlist.all (fun e => (s.restWords e).isSome) = true →
      ∃ t k, exec (.inPlaceRestart n [] false) s = .next t ∧ t.job = some k ∧ k.stages = j.stages.set r.stage .draining ∧
        k.substs = (j.substs.filter fun w => w.ltn != n.toNat) ++
          [⟨n.toNat, s.ltnSite n.toNat, some ⟨s.ltnSite n.toNat, [], []⟩, r.stage, none, true, false, false⟩] ∧
        (∀ y, y ∈ s.stageSites r.stage → (t.blk (blkOf (pgSEQ y 0))).haltReq = true) ∧
        t = { s with job := t.job, blks := t.blks, spad := t.spad, spadPoison := t.spadPoison })) ∧
  (∀ (x : Site) (p : Nat) (res : ScreenRes) (s : State),
    ((s.nv.packs.find? fun e => e.1 == p) = none → exec (.screeningRun x p res) s = .next s) ∧
    ∀ e, (s.nv.packs.find? fun e => e.1 == p) = some e →
      (s.screenOk x.val = false → ∃ t, exec (.screeningRun x p res) s = .next t ∧ t = { s with outbox := t.outbox }) ∧
      (s.screenOk x.val = true → ∃ t, exec (.screeningRun x p res) s = .next t ∧ t.time = s.time + min res.ms 2000 * msec ∧
        t.fld pgPWR 0x04C 0 14 = s.fld pgPWR 0x04C 0 14 ∧ t.flag pgPWR 0x05C 8 = false ∧ t.flag pgPWR 0x058 8 = false ∧
        (res.verdict = 1 → t.nv.retired.contains x.val = true) ∧ (res.verdict ≠ 1 → t.nv = s.nv) ∧ t.dram = s.dram)) ∧
  ∀ (f : Facet) (s : State),
    let l := s.loupeOf f.val
    let b := blkId tyLOUPE f.val
    (s.enabled (pgLOUPE f.val) = false ∨ s.halting (pgLOUPE f.val) = true → exec (.arm f) s = .next s) ∧
    (s.enabled (pgLOUPE f.val) = true → s.halting (pgLOUPE f.val) = false → ∃ t, exec (.arm f) s = .next t ∧ (t.blk b).run = true ∧
      t.loupeOf f.val = { l with armed := true, triggered := false, stopped := false, postLeft := 0 } ∧
      t = { s with loupes := t.loupes, blks := t.blks }) ∧
    (l.armed = false → exec (.stop f) s = .next s) ∧
    (l.armed = true → ∃ t, exec (.stop f) s = .next t ∧ t.loupeOf f.val = { l with armed := false, stopped := true } ∧ (t.blk b).run = false ∧
      t = { s with loupes := t.loupes, blks := t.blks }) ∧
    ∃ t, exec (.clear f) s = .next t ∧ t.loupeOf f.val = { l with entries := [] } ∧ t = { s with loupes := t.loupes }

/-- BC_START, BROADCAST_CHUNK, SCAN and REPAIR (R565 to R567): an image of 1 byte to 256 KiB starts a broadcast when none is open, and its
chunks are all that is delivered; a chunk that arrives whole is staged, the whole image verified against its hash; a scan counts the
sites' states; a repair sends the selected site chunks and counts.

BC_COMMIT, IMAGE_COMMIT and ABORT (R568 to R570): the commit reaches sites that hold the verified image and sets their time; at that time
the staged bank becomes the instruction memory and the image is valid, but the commit of a substitution's candidate waits for it (Table 12.6); an abort discards what is staged and ends the broadcast. -/
def Obligations.Broadcasts : Prop :=
   ((∀ (sram : List (BitVec 8)) (bad : List (Nat × Nat × Nat)) (s : State),
      let b := s.bcSource sram
      (s.bcast.open_ = true ∨ b = [] ∨ imemBytes < b.length → exec (.bcStart sram bad) s = .next (s.wlock pgSVC)) ∧
      (s.bcast.open_ = false → b ≠ [] → b.length ≤ imemBytes → ∃ t, exec (.bcStart sram bad) s = .next t ∧ t.bcast = ⟨true, false, false, b, []⟩ ∧
        t.reg pgSVC 0x0C0 = 0 ∧ t.imem = s.imem ∧ t.staging = s.staging ∧
        ∀ d, d ∈ t.delivered → d ∈ s.delivered ∨ d.2.1 = clChunk ∧ ∃ c, c < chunksOf b.length ∧ d.2.2 = chunkWords (s.fld pgSVC 0x084 0 16) c b)) ∧
    (∀ (x : Site) (s : State), (s.delivered.find? fun d => d.1 == x.val && d.2.1 == clChunk) = none →
      ∀ k, exec (.broadcastChunk x k) s = .next s) ∧
    (∀ (x : Site) (s : State) (img : BitVec 16) (bytes : List Nat) (rest : List (Nat × Nat × List Nat)),
      s.delivered = (x.val, clChunk, chunkWords img.toNat 0 bytes) :: rest →
      exec (.broadcastChunk x false) s = .next { s with delivered := rest } ∧
      (bytes ≠ [] → bytes.length ≤ 116 → bytes.all (fun v => decide (v < 256)) = true → s.siteOn x.val = true → (s.bcSite x.val).st = 0 →
        ∃ t, exec (.broadcastChunk x true) s = .next t ∧ t.delivered = rest ∧
          t.bcSite x.val = ⟨if sha256 bytes = s.bcHash then 2 else 3, img.toNat, bytes.length, [0], sha256 bytes, none, false⟩ ∧
          (∀ i, i < bytes.length → some (memByte t.staging (imemKey x.val i)) = bytes[i]?) ∧
          t = { s with delivered := rest, staging := t.staging, bc := t.bc })) ∧
    (∀ s : State, s.bcast.open_ = false ∨ (s.bcast.repairs = [] ∧ s.bcast.committed = false) →
      let n := fun (l : List Nat) => (s.bcSites.filter fun x => l.contains (s.bcState x)).length
      ∃ t, exec .scan s = .next t ∧ t.fld pgSVC 0x0C4 0 16 = n [2, 4, 5] ∧ t.fld pgSVC 0x0C4 16 16 = n [0, 1] ∧ t.fld pgSVC 0x0C8 0 16 = n [3] ∧
        t.fld pgSVC 0x0C8 16 16 = n [6] ∧ t.flag pgSVC 0x0C0 2 = true ∧ t = { s with regs := t.regs }) ∧
    ∀ (s : State) (bad : List (Nat × Nat × Nat)),
      let x := s.fld pgSVC 0x0CC 0 11
      let b := s.bcSite x
      (1296 ≤ x → exec (.repair bad) s = .next s) ∧
      (x < 1296 → ∃ t n, exec (.repair bad) s = .next t ∧ t.bcSite x = (if b.st = 3 then { b with have_ := [], st := 1, sha := [] } else b) ∧
        (x, n + 1) ∈ t.bcast.repairs ∧ (s.bcast.repairs.all (fun r => r.1 != x) = true → n = 0) ∧ t.staging = s.staging ∧ t.imem = s.imem)) ∧
   ((∀ s : State,
      let img := s.fld pgSVC 0x084 0 16
      let at_ := s.reg64 pgSVC 0x098
      let reach := (({ s with bcast := { s.bcast with committed := true } } : State).mcast (s.reg pgSVC 0x08C) []).1
      ∃ t, exec .bcCommit s = .next t ∧ t.bcast = { s.bcast with committed := true } ∧ SameMem s t ∧
        (∀ x, t.bcSite x = s.bcSite x ∨ t.bcSite x = { s.bcSite x with commit := some at_, late := decide (at_ < s.time) }) ∧
        (∀ x, x ∈ reach → (s.bcSite x).st = 2 → (s.bcSite x).img = img → s.siteOn x = true → (t.bcSite x).commit = some at_) ∧
        ∀ x, (s.bcSite x).st ≠ 2 ∨ (s.bcSite x).img ≠ img → t.bcSite x = s.bcSite x) ∧
    (∀ (x : Site) (s : State),
      ((s.bcSite x.val).commit = none ∨ (s.bcSite x.val).st ≠ 2 ∨ s.siteOn x.val = false ∨ s.substituting x.val = true →
        exec (.imageCommit x) s = .next s) ∧
      ∀ c, (s.bcSite x.val).commit = some c → (s.bcSite x.val).st = 2 → s.siteOn x.val = true →
        s.substituting x.val = false → ∃ t, exec (.imageCommit x) s = .next t ∧
        t.time = max s.time c ∧ t.flag (pgSEQ x.val 0) 0x050 0 = true ∧
        t.bcSite x.val = { s.bcSite x.val with st := if (s.bcSite x.val).late then 5 else 4, commit := none } ∧
        (∀ i, i < imemBytes → memByte t.imem (imemKey x.val i) = memByte s.staging (imemKey x.val i) ∧ memByte t.staging (imemKey x.val i) = 0) ∧
        (∀ a, a < imemKey x.val 0 ∨ imemKey (x.val + 1) 0 ≤ a → memByte t.imem a = memByte s.imem a ∧ memByte t.staging a = memByte s.staging a) ∧
        t = { s with time := t.time, facets := t.facets, regs := t.regs, imem := t.imem, staging := t.staging, bc := t.bc }) ∧
    ∀ s : State, ∃ t, exec .abort s = .next t ∧ t.bcast = { s.bcast with open_ := false } ∧ t.reg pgSVC 0x0C0 = 0 ∧ t.imem = s.imem ∧
      ∀ x, t.bcSite x = s.bcSite x ∨ ((s.bcSite x).st ≠ 0 ∧ t.bcSite x = BcSite.init))

/-- The I3C target (R609, Table 22.4): transfers to another address, or with the block unpowered, change nothing; a private read answers bytes of
the status block from the read offset, and an offset from 0 to 15 is written by one byte; ENTDAA and SETDASA give the address only to a
target without one, RSTDAA takes it away; GETPID answers six bytes. BCR, DCR and status are free values (log entry 4). -/
def Obligations.SidebandBus : Prop :=
  (∀ (a : BitVec 7) (s : State), s.boot.powered = true → s.i3c.addr = some a.toNat →
    (∀ n, ∃ t, exec (.i3cPrivateRead a n) s = .next t ∧
      t = { s with outbox := s.outbox ++ [⟨.i3c, "READ", (s.statusBlock.drop s.i3c.off).take n⟩] }) ∧ s.statusBlock.length = 16 ∧
    (∀ b : BitVec 8, (b.toNat < 16 → exec (.i3cPrivateWrite a [b]) s = .next { s with i3c := { s.i3c with off := b.toNat } }) ∧
      (16 ≤ b.toNat → exec (.i3cPrivateWrite a [b]) s = .next (s.send .i3c "NACK" []))) ∧
    (∀ l, l.length ≠ 1 → exec (.i3cPrivateWrite a l) s = .next (s.send .i3c "NACK" [])) ∧
    exec (.getpid a) s = .next (s.send .i3c "GETPID" (be 6 s.i3cPid)) ∧ (be 6 s.i3cPid).length = 6 ∧
    exec (.getbcr a) s = .next (s.send .i3c "GETBCR" [Config.i3cBcr.toNat]) ∧
    exec (.getdcr a) s = .next (s.send .i3c "GETDCR" [Config.i3cDcr.toNat]) ∧
    (∃ t w, exec (.getstatus a) s = .next t ∧ t = ({ s with freeCtr := s.freeCtr + 1 } : State).send .i3c "GETSTATUS" w ∧ w.length = 2) ∧
    (∀ x, exec (.entdaa x) s = .next s ∧ ∀ y, exec (.setdasa y x) s = .next s) ∧
    exec .rstdaa s = .next { s with i3c := { s.i3c with addr := none } }) ∧
  (∀ (a : BitVec 7) (s : State), s.boot.powered = false ∨ s.i3c.addr ≠ some a.toNat → (∀ n, exec (.i3cPrivateRead a n) s = .next s) ∧
    (∀ l, exec (.i3cPrivateWrite a l) s = .next s) ∧ exec (.getpid a) s = .next s ∧ exec (.getbcr a) s = .next s ∧
    exec (.getdcr a) s = .next s ∧ exec (.getstatus a) s = .next s) ∧
  ∀ (a : BitVec 7) (s : State), s.boot.powered = true → s.i3c.addr = none →
    exec (.setdasa 0x3A#7 a) s = .next { s with i3c := { s.i3c with addr := some a.toNat } } ∧
    (∀ x : BitVec 7, x ≠ 0x3A#7 → exec (.setdasa x a) s = .next s) ∧
    ∃ t, exec (.entdaa a) s = .next t ∧ t.i3c = { s.i3c with addr := some a.toNat } ∧
      t = { s with i3c := t.i3c, outbox := s.outbox ++ [⟨.i3c, "ENTDAA", [s.i3cPid, Config.i3cBcr.toNat, Config.i3cDcr.toNat]⟩] }

/-- HELLO, HELLO_SEND, PAIR_SENSE_ASSERTED, TAKEOVER and HANDOVER (R599 to R602): without a pair they change nothing; a higher EPOCH is taken, and a
server that meets one becomes a mirror, UNSYNCED, with no live request; PAIR_SENSE read asserted for a millisecond completes a mirror
that holds the stream; at its release a synchronised mirror becomes a primary, UNPROTECTED, one epoch on; a handover releases it once. -/
def Obligations.PairRoles : Prop :=
  (∀ s : State, s.pairSt = 0 → (∀ e r k, exec (.hello e r k) s = .next s) ∧ exec .helloSend s = .next s ∧
    exec .pairSenseAsserted s = .next s ∧ exec .takeover s = .next s) ∧
  (∀ s : State, s.pairSt ≠ 0 →
    (∀ (e : Word) k, e.toNat ≤ s.reg pgPAIR 0x058 → ∃ t, exec (.hello e 0#8 k) s = .next t ∧ t = s) ∧
    (∀ (e : Word) r k, s.reg pgPAIR 0x058 < e.toNat → s.serving = true → ∃ t, exec (.hello e r k) s = .next t ∧ t.pairSt = 4 ∧
      t.reg pgPAIR 0x058 = e.toNat ∧ t.reqs.all (fun q => !q.isLive) = true ∧ t.flag pgPAIR 0x054 4 = false ∧ SameMem s t) ∧
    (∀ (e : Word) k, s.reg pgPAIR 0x058 < e.toNat → s.serving = false → ∃ t, exec (.hello e 0#8 k) s = .next t ∧
      t.reg pgPAIR 0x058 = e.toNat ∧ t.pairSt = s.pairSt ∧ t = { s with regs := t.regs }) ∧
    (∃ t, exec .helloSend s = .next t ∧ t.time = max s.time (s.pair.helloAt + 100 * usec) ∧ t.pair = { s.pair with helloAt := t.time } ∧
      (s.pairClear = true → (s.runs pgPAIR = true → s.pairPort.isSome = true → t.outbox.length = s.outbox.length + 1) ∧
        t = { s with time := t.time, facets := t.facets, pair := t.pair, outbox := t.outbox }) ∧
      (s.runs pgPAIR = true → ∀ p, s.pairPort = some p → s.jobOk p = false → bitOf (t.hdr (pgOPT p)).err 12 = true) ∧
      LogFrame { s with time := t.time, facets := t.facets, pair := t.pair } t) ∧
    (∃ t, exec .pairSenseAsserted s = .next t ∧ t.time = max s.time (s.pair.senseSince + msec) ∧ t.pair = { s.pair with senseOk := true } ∧
      t.flag pgPAIR 0x054 3 = true ∧ t.pairSt = (if s.pairSt = 4 ∧ s.pair.complete = true then 3 else s.pairSt) ∧
      t = { s with time := t.time, facets := t.facets, pair := t.pair, regs := t.regs })) ∧
  (∀ (s : State) (j : Job), s.job = some j → s.pairSt ≠ 0 →
    (s.flag pgPAIR 0x054 4 = true → exec .takeover s = .next s) ∧
    (s.flag pgPAIR 0x054 4 = false → s.pairSt ≠ 3 ∨ s.flag pgPAIR 0x04C 0 = false ∨ s.runs pgPAIR = false → ∃ t, exec .takeover s = .next t ∧
      t.flag pgPAIR 0x054 3 = false ∧ t.pairSt = s.pairSt ∧ t.time = s.time + 10 * usec ∧
      t = { s with regs := t.regs, time := t.time, facets := t.facets }) ∧
    (s.flag pgPAIR 0x054 4 = false → s.pairSt = 3 → s.flag pgPAIR 0x04C 0 = true → s.runs pgPAIR = true → s.reqs = [] →
      ∃ t, exec .takeover s = .next t ∧ t.pairSt = 2 ∧ t.reg pgPAIR 0x058 = (s.reg pgPAIR 0x058 + 1) % 2 ^ 32 ∧
        t.flag pgPAIR 0x054 4 = true ∧ t.reg pgPAIR 0x068 = min 0xFFFF_FFFF (s.reg pgPAIR 0x068 + 1) ∧
        t.pair.stepNo = s.reg64 pgPAIR 0x060 ∧ t.pair.steps = [] ∧ t.pair.deltas = [] ∧ bitOf (t.hdr pgPAIR).err 10 = true)) ∧
  ∀ s : State,
    (s.streams = false ∨ s.enabled pgPAIR = false → exec .handover s = .next s) ∧
    (s.streams = true → s.enabled pgPAIR = true →
      (s.flag pgPAIR 0x054 4 = false → exec .handover s = .next (s.wlock pgPAIR)) ∧
      (s.flag pgPAIR 0x054 4 = true → ∃ t, exec .handover s = .next t ∧ t.flag pgPAIR 0x054 4 = false ∧ t.pairSt = s.pairSt ∧
        t = { s with regs := t.regs, outbox := s.outbox ++ [⟨.pin, "PAIR_SENSE", [0]⟩] }))

/-- PAIR_ADMIT, DELTA, PAIR_STEP, PAIR_COMMIT and RELEASE (R596, R598, R599): a module that mirrors nothing ignores them; a mirror holds a step and
its DELTA messages apart, acknowledges the step, and applies what a COMMIT covers, after which it is synchronised if PAIR_SENSE allows;
a missing number makes it UNSYNCED.

PAIR_ACK, STEP_COMMITTED and RESYNC (R597 to R599): an ACK covers steps up to the highest sent, lets out the replies that waited for it, and
protects a primary whose needed COMMIT it covers; the oldest step is committed once its tokens went out, its interval is divided and
the ACK covers it; a RESYNC sends one step and its COMMIT. -/
def Obligations.PairStream : Prop :=
   ((∀ s : State, s.mirrors = false → (∀ n l, exec (.pairAdmit n l) s = .next s) ∧ (∀ a b c k d, exec (.delta a b c k d) s = .next s) ∧
      (∀ n l, exec (.pairStep n l) s = .next s) ∧ (∀ n, exec (.pairCommit n) s = .next s) ∧ ∀ n c, exec (.release n c) s = .next s) ∧
    (∀ s : State, s.mirrors = true →
      (∀ n l, n ≤ s.pair.stepNo → exec (.pairStep n l) s = .next s ∧ ∀ b c k d, exec (.delta n b c k d) s = .next s) ∧
      (s.pair.gap = false →
        (∀ l, ∃ t, exec (.pairStep (s.pair.stepNo + 1) l) s = .next t ∧
          t.pair = { s.pair with stepNo := s.pair.stepNo + 1, acked := s.pair.stepNo + 1, steps := s.pair.steps ++ [(s.pair.stepNo + 1, l)] } ∧
          (s.pairClear = true → (s.runs pgPAIR = true → s.pairPort.isSome = true → (t.outbox.getLast?).map (fun m => m.kind) = some "ACK") ∧
            t = { s with pair := t.pair, outbox := t.outbox }) ∧ LogFrame { s with pair := t.pair } t) ∧
        (∀ n l, s.pair.stepNo + 1 < n → ∃ t, exec (.pairStep n l) s = .next t ∧ t.pairSt = 4 ∧ t.pair.gap = true ∧ t.pair.stepNo = n ∧
          t.pair.steps = [] ∧ t.pair.deltas = [] ∧ bitOf (t.hdr pgPAIR).err 9 = true ∧ LogFrame { s with pair := t.pair } t) ∧
        (∀ n a b k d, s.pair.stepNo + 1 < n → ∃ t, exec (.delta n a b k d) s = .next t ∧ t.pairSt = 4 ∧ t.pair.gap = true ∧
          t.pair.deltas = [⟨n, a, b, k.toNat, d⟩] ∧ bitOf (t.hdr pgPAIR).err 9 = true ∧ LogFrame { s with pair := t.pair } t) ∧
        (∀ a b (k : BitVec 8) d, s.injPend pgPAIR 9 = false → ∃ t, exec (.delta (s.pair.stepNo + 1) a b k d) s = .next t ∧
          (t.pair.deltas.getLast?) = some ⟨s.pair.stepNo + 1, a, b, k.toNat, d⟩ ∧ t.pair.deltas.length = s.pair.deltas.length + 1 ∧
          t = { s with pair := t.pair })) ∧
      (s.pair.gap = true → ∃ t, exec (.pairStep (s.pair.stepNo + 1) []) s = .next t ∧ t.pair.gap = false ∧
        t.pair.steps = [(s.pair.stepNo + 1, [])] ∧ t.pair.acked = s.pair.stepNo + 1)) ∧
    (∀ (s : State) (j : Job) (n : Nat), s.job = some j → s.mirrors = true → s.pair.gap = false → n = s.pair.stepNo → n < 2 ^ 64 →
      s.pair.steps = [] → ∃ t, exec (.pairCommit n) s = .next t ∧ t.pair = { s.pair with complete := true } ∧ t.reg64 pgPAIR 0x060 = n ∧
        t.pairSt = (if s.pairSt = 4 ∧ s.pair.senseOk = true then 3 else s.pairSt) ∧ t = { s with pair := t.pair, regs := t.regs }) ∧
    (∀ (s : State) (j : Job) (n slot : Nat) (r : Req) (w : Word), s.job = some j → j.cfg.role = 2 → s.mirrors = true → s.pair.gap = false →
      n = s.pair.stepNo → s.pair.steps = [(n, [⟨slot, 0, 1, [w.toNat]⟩])] → s.pair.deltas = [] → s.reqs = [r] → r.slot = slot → r.isLive = true →
      r.tokens = [] → bitOf r.flags 0 = false → ∃ t, exec (.pairCommit n) s = .next t ∧
        t.reqs = [{ r with tokens := [(r.t, w.toNat)], sent := 1, last := tokenOf w.toNat }] ∧ t.pair.steps = [] ∧ t.pair.complete = true) ∧
    (∀ (s : State) (payload : List Word) (slot : Nat),
      let ws := payload.map (·.toNat)
      let ns := pfield ws 0x2C 1
      s.mirrors = true → 101 + ns ≤ ws.length → s.reqAt slot = none →
      ∃ t q, exec (.pairAdmit slot payload) s = .next t ∧ t.reqs = s.reqs ++ [q] ∧ q.slot = slot ∧ q.st = .live ∧ q.conn = none ∧
        q.answers.length = ns ∧ SameMem s t) ∧
    ∀ (s : State) (slot : Nat) (code : BitVec 8), s.mirrors = true →
      (s.reqAt slot = none → exec (.release slot code) s = .next s) ∧
      ((s.reqAt slot).isSome = true → ∃ t, exec (.release slot code) s = .next t ∧ t.reqAt slot = none ∧ t.reqs.length = s.reqs.length)) ∧
   ((∀ s : State, s.streams = false → (∀ n, exec (.pairAck n) s = .next s) ∧ exec .stepCommitted s = .next s ∧ exec .resync s = .next s) ∧
    (∀ (s : State) (n : Nat), s.streams = true → s.pair.held = [] → ∃ t, exec (.pairAck n) s = .next t ∧
      t.pair = { s.pair with acked := max s.pair.acked (min n s.pair.stepNo) } ∧
      t.flag pgPAIR 0x054 5 = decide (s.fld pgPAIR 0x04C 8 8 < s.pair.stepNo - t.pair.acked) ∧
      t.pairSt = (if s.pairSt = 2 ∧ s.pair.need ≤ s.reg64 pgPAIR 0x060 ∧ s.reg64 pgPAIR 0x060 ≤ t.pair.acked then 1 else s.pairSt) ∧
      t = { s with pair := t.pair, regs := t.regs }) ∧
    (∀ (s : State) (n : Nat) (m : OutMsg), s.streams = true → s.pair.held = [(n, m)] → n ≤ s.pair.stepNo → ∃ t, exec (.pairAck n) s = .next t ∧
      t.pair.held = [] ∧ t.outbox = s.outbox ++ [m]) ∧
    (∀ (s : State) (n iv : Nat) (up : List (Nat × Nat)) (rest : List (Nat × Nat × List (Nat × Nat))), s.streams = true →
      s.pair.open_ = (n, iv, up) :: rest →
      (s.pair.acked < n → exec .stepCommitted s = .next s) ∧
      (s.role = 2 → s.mtr.shared ≤ iv → exec .stepCommitted s = .next s) ∧
      (n ≤ s.pair.acked → up.all s.tokensSent = true → s.role ≠ 2 ∨ iv < s.mtr.shared → n < 2 ^ 64 → ∃ t, exec .stepCommitted s = .next t ∧
        t.pair = { s.pair with open_ := rest } ∧ t.reg64 pgPAIR 0x060 = n ∧ LogFrame { s with pair := t.pair } t ∧
        (s.pairClear = true → t = { s with pair := t.pair, regs := t.regs, outbox := t.outbox }))) ∧
    ∀ (s : State) (j : Job), s.job = some j → s.streams = true → s.enabled pgPAIR = true → j.cfg.role = 1 → s.reqs = [] → s.pair.stepNo + 1 < 2 ^ 64 →
      ∃ t, exec .resync s = .next t ∧ t.pair.stepNo = s.pair.stepNo + 1 ∧ t.pair.open_ = [] ∧ t.pair.need = s.pair.stepNo + 1 ∧
        t.reg64 pgPAIR 0x060 = s.pair.stepNo + 1 ∧
        (s.runs pgPAIR = true → s.pairPort.isSome = true → s.pairClear = true →
          (t.outbox.drop s.outbox.length).map (fun m => m.kind) = ["STEP", "COMMIT"]))

/-- CONNECTION_OPEN, CONNECTION_CLOSE, UNDEFINED_CLASS_OR_TYPE, MGMT_LINK_DOWN, MGMT_LINK_UP, KICK and CORE_HALT (R546 to R549, R562, R564, R605): at most
64 connections are open; a close ends its transfers and subscriptions and leaves its streams unsent; a wrong header closes, an unknown
message gets UNKNOWN; a message on no open connection changes nothing, and while only the boot ROM answers gets UNKNOWN. -/
def Obligations.ConnectionsAndHeaders : Prop :=
  (∀ (c : Nat) (s : State),
    (s.svcUp = false ∨ s.conns.contains c = true → exec (.connectionOpen c) s = .next s) ∧
    (s.svcUp = true → s.conns.contains c = false →
      (s.conns.length < 64 → exec (.connectionOpen c) s = .next { s with conns := s.conns ++ [c] }) ∧
      (64 ≤ s.conns.length → exec (.connectionOpen c) s = .next (s.send (.mgmt c) "RESET" []))) ∧
    ∃ t, exec (.connectionClose c) s = .next t ∧ t.conns.contains c = false ∧ (∀ d, d ≠ c → t.conns.contains d = s.conns.contains d) ∧
      (∀ r, r ∈ t.reqs → r.conn ≠ some c) ∧ t.reqs.map (fun r => (r.slot, r.tokens, r.sent, r.endCode)) =
        s.reqs.map (fun r => (r.slot, r.tokens, r.sent, r.endCode)) ∧
      t.contents.all (fun x => x.conn != c) = true ∧ t.subs.all (fun x => x.conn != c) = true ∧
      t = { s with conns := t.conns, contents := t.contents, subs := t.subs, replies := t.replies, reqs := t.reqs }) ∧
  (∀ (c : Nat) (magic : BitVec 16) (ver cls : BitVec 8) (ty : BitVec 16) (len tag : Word) (s : State),
    (s.conns.contains c = false → exec (.undefinedClassOrType c magic ver cls ty len tag) s = .next s) ∧
    (s.conns.contains c = true → s.replies = [] →
      (magic ≠ 0x4441#16 ∨ ver ≠ 1#8 → ∃ t, exec (.undefinedClassOrType c magic ver cls ty len tag) s = .next t ∧ t.conns.contains c = false ∧
        t.outbox = s.outbox) ∧
      (magic = 0x4441#16 → ver = 1#8 →
        (4194304 < len.toNat → ∃ t, exec (.undefinedClassOrType c magic ver cls ty len tag) s = .next t ∧ t.conns.contains c = false ∧
          t.outbox = s.outbox ++ [⟨.mgmt c, "REPLY", [tag.toNat, stBADMSG]⟩]) ∧
        (len.toNat ≤ 4194304 → ctlDefined cls.toNat ty.toNat = false → exec (.undefinedClassOrType c magic ver cls ty len tag) s =
          .next (s.send (.mgmt c) "REPLY" [tag.toNat, stUNKNOWN]))))) ∧
  (∀ (c : Nat) (tag pe fl : Word) (len a n : Nat) (pl : List Word) (id : BitVec 128) (x y : BitVec 64) (l : Option Nat) (i : Instr) (s : State),
    i ∈ [.submit c tag len pl, .bind c tag len pl, .prompt c tag len pl, .resume c tag id x, .cancel c tag id, .ack c tag x, .get c tag x y,
      .subscribe c tag pe fl, .registerRead c tag a n l, .registerWrite c tag a pl l, .jobUnload c tag, .inventory c tag, .cert c tag] →
    (s.conns.contains c = false ∨ s.svcUp = false → exec i s = .next s) ∧
    (s.conns.contains c = true → s.svcUp = true → s.romOnly = true → s.replies = [] →
      exec i s = .next (s.send (.mgmt c) "REPLY" [tag.toNat, stUNKNOWN]))) ∧
  ∀ s : State,
    (∃ t, exec .mgmtLinkDown s = .next t ∧ t.flag pgSVC 0x048 8 = false ∧ bitOf (t.hdr pgSVC).err 11 = true ∧ LogFrame s t) ∧
    (∃ t, exec .mgmtLinkUp s = .next t ∧ t.flag pgSVC 0x048 8 = true ∧ t = { s with regs := t.regs }) ∧
    exec .kick s = .next { s with boot := { s.boot with kick := s.time } } ∧
    ∀ h r : BitVec 8, (s.flag pgSVC 0x054 0 = false → exec (.coreHalt h r) s = .next (s.wlock pgSVC)) ∧
      (s.flag pgSVC 0x054 0 = true → ∃ t, exec (.coreHalt h r) s = .next t ∧ t = { s with regs := t.regs } ∧
        ∀ i, i < 8 → t.flag pgSVC 0x048 i = (bitOf r.toNat i || (s.flag pgSVC 0x048 i && !bitOf h.toNat i)))

/-- SUBMIT, BIND, PROMPT, PROMPT_TIMEOUT and BIND_EXPIRY (R550 to R552): a malformed payload gets BADMSG, one while receipts hold admissions HELD, one
without a job REFUSED, one that finds no slot FULL, or on a solo module REFUSED with a receipt; a request whose prompt is not complete takes the lowest free slot and waits for it, a complete one is admitted
unless the budget defers it; prompt tokens join the request; what waits too long goes.

TOKENS, RESUME, TOKEN_RETENTION_EXPIRY and CANCEL (R553 to R555): unsent tokens go out once the poison hold has ended, and end the request with
the last one; a resumed stream sends again from an index on the new connection; a released request keeps its tokens 60 s; a cancel
takes effect at the next step boundary. -/
def Obligations.RequestsAndTokenStreams : Prop :=
   ((∀ (c len : Nat) (tag : Word) (pl : List Word) (s : State), s.conns.contains c = true → s.svcUp = true → s.romOnly = false → s.replies = [] →
      let ws := pl.map (·.toNat)
      let rep := fun (x : State) (st : Nat) (p : List Nat) => x.send (.mgmt c) "REPLY" (tag.toNat :: st :: p)
      (submitBad len ws = true → exec (.submit c tag len pl) s = .next (rep s stBADMSG [])) ∧
      (submitBad len ws = false →
        (s.rcp.full = true ∨ s.rcp.admitHold = true → exec (.submit c tag len pl) s = .next (rep s stHELD [])) ∧
        (s.rcp.full = false → s.rcp.admitHold = false →
          (s.job = none → exec (.submit c tag len pl) s = .next (rep s stREFUSED (submitReply 0xFFFF_FFFF 0x18))) ∧
          (∀ j, s.job = some j → j.cfg.role ≠ 3 → s.serving = true → pfield ws 0x18 8 = j.cfg.hash →
            s.reqs.any (fun r => r.st != .done && (r.reqid == pfield ws 0 16 || r.seq == pfield ws 0x10 8)) = false → s.freeSlot j.cfg = none →
            (j.cfg.solo = false → exec (.submit c tag len pl) s = .next (rep s stFULL (submitReply 0xFFFF_FFFF 0xFF))) ∧
            (j.cfg.solo = true → ∃ t p, exec (.submit c tag len pl) s = .next t ∧ t.rcp = { s.rcp with waiting := s.rcp.waiting ++ [p] } ∧
              p.outcome = 2 ∧ p.reqid = pfield ws 0 16 ∧ t = rep { s with rcp := t.rcp } stREFUSED (submitReply 0xFFFF_FFFF 0x18))) ∧
          ∀ j n, s.job = some j → j.cfg.role ≠ 3 → s.serving = true → pfield ws 0x18 8 = j.cfg.hash →
            s.reqs.any (fun r => r.st != .done && (r.reqid == pfield ws 0 16 || r.seq == pfield ws 0x10 8)) = false → s.freeSlot j.cfg = some n →
            ((len - 0x194) / 4 < pfield ws 0x190 4 → ∃ t q, exec (.submit c tag len pl) s = .next t ∧ t.reqs = s.reqs ++ [q] ∧ q.slot = n ∧
              q.st = .prompt ∧ q.sub = ws ∧ q.conn = some c ∧ q.submitted = s.time ∧
              t = rep { s with reqs := t.reqs } stOK (submitReply n 0xFF)) ∧
            (pfield ws 0x190 4 ≤ (len - 0x194) / 4 → s.ctl.deferAdm = false → s.ctl.floorStep = 0 → s.reqAt n = none →
              ∃ t q, exec (.submit c tag len pl) s = .next t ∧ t.reqAt n = some q ∧ q.st = .opening ∧ q.sub = ws ∧ q.slot = n ∧
                q.answers = List.replicate (pfield ws 0x2C 1) none ∧ t.replies = [⟨c, tag.toNat, 1, n, none⟩])))) ∧
    (∀ (c len : Nat) (tag : Word) (pl : List Word) (s : State), s.conns.contains c = true → s.svcUp = true → s.romOnly = false → s.replies = [] →
      let ws := pl.map (·.toNat)
      let rep := fun (x : State) (st : Nat) => x.send (.mgmt c) "REPLY" [tag.toNat, st]
      (len ≠ 40 ∨ ws.length ≠ 10 → exec (.bind c tag len pl) s = .next (rep s stBADMSG)) ∧
      (len = 40 → ws.length = 10 → ∀ j, s.job = some j → j.cfg.role = 3 → pfield ws 0x18 8 = j.cfg.hash → ∃ t b, exec (.bind c tag len pl) s = .next t ∧
        t.binds.getLast? = some b ∧ b.seq = pfield ws 0x10 8 ∧ b.reqid = pfield ws 0 16 ∧
        t.binds.dropLast = s.binds.filter (fun (x : Bind) => x.seq != pfield ws 0x10 8) ∧ t = rep { s with binds := t.binds } stOK) ∧
      ((∀ r, r ∈ s.reqs → r.st ≠ .prompt) → ws.length = len / 4 → len = 24 + 4 * pfield ws 20 4 →
        exec (.prompt c tag len pl) s = .next (rep s stNOTFOUND)) ∧
      (len ≠ 24 + 4 * pfield ws 20 4 → exec (.prompt c tag len pl) s = .next (rep s stBADMSG)) ∧
      (∀ r, s.reqs = [r] → r.isLive = true → r.st = .prompt → r.reqid = pfield ws 0 16 → r.prompt = [] → ws.length = len / 4 →
        len = 24 + 4 * pfield ws 20 4 → pfield ws 16 4 + pfield ws 20 4 ≤ r.nprompt → pfield ws 20 4 < r.nprompt →
        ∃ t, exec (.prompt c tag len pl) s = .next t ∧ t.reqs = [{ r with
          prompt := (List.range (pfield ws 20 4)).map fun i => (pfield ws 16 4 + i, nthD 0 ws (6 + i) % 2 ^ 18) }] ∧
          t = rep { s with reqs := t.reqs } stOK)) ∧
    (∀ (slot : BitVec 12) (s : State) (r : Req), s.reqAt slot.toNat = some r →
      (r.st = .prompt → r.prompt.length < r.nprompt → ∃ t, exec (.promptTimeout slot) s = .next t ∧ t.reqAt slot.toNat = none ∧
        r.submitted + 60 * second ≤ t.time ∧ t.reqs.length = s.reqs.length ∧ t.job = s.job) ∧
      (r.st ≠ .prompt ∨ r.nprompt ≤ r.prompt.length → exec (.promptTimeout slot) s = .next s)) ∧
    ∀ (seq : Nat) (s : State),
      ((s.binds.find? fun (b : Bind) => b.seq == seq && !b.opened) = none → exec (.bindExpiry seq) s = .next s) ∧
      ∀ b, (s.binds.find? fun (b : Bind) => b.seq == seq && !b.opened) = some b → ∃ t, exec (.bindExpiry seq) s = .next t ∧
        t.time = max s.time (b.at_ + 3600 * second) ∧ t.binds = s.binds.filter (fun (x : Bind) => x.seq != seq) ∧
        TimeFrame { s with binds := t.binds } t) ∧
   ((∀ (slot : BitVec 12) (s : State) (r : Req), s.reqAt slot.toNat = some r → s.serving = true →
      (r.endOf = none → r.cancel = false →
        (r.tokens.drop r.sent = [] → exec (.tokens slot) s = .next s) ∧
        (r.tokens.drop r.sent ≠ [] → ∃ t, exec (.tokens slot) s = .next t ∧ t.time = max s.time r.holdTo ∧
          t.reqs = s.reqs.map (fun x => if x.slot == slot.toNat && x.isLive then { x with sent := x.tokens.length } else x) ∧
          (∀ c, r.conn = some c → t.streamed = s.streamed + (r.tokens.drop r.sent).length ∧ t.outbox = s.outbox ++ [⟨.mgmt c, "TOKENS",
            tokensMsg r (((r.tokens.drop r.sent).head?.map (·.1)).getD 0) ((r.tokens.drop r.sent).map (·.2)) 0xFF⟩]) ∧
          t = { s with reqs := t.reqs, time := t.time, facets := t.facets, streamed := t.streamed, outbox := t.outbox })) ∧
      (∀ k, r.endOf = some k → ∃ t, exec (.tokens slot) s = .next t ∧ t.reqAt slot.toNat = none ∧ r.holdTo ≤ t.time ∧
        t.reqs.length = s.reqs.length)) ∧
    (∀ (c : Nat) (tag : Word) (id : BitVec 128) (idx : BitVec 64) (s : State), s.conns.contains c = true → s.svcUp = true → s.romOnly = false →
      s.replies = [] →
      let rep := fun (x : State) (st : Nat) => x.send (.mgmt c) "REPLY" [tag.toNat, st]
      (s.reqs.any (fun r => r.reqid == id.toNat) = false → exec (.resume c tag id idx) s = .next (rep s stNOTFOUND) ∧
        exec (.cancel c tag id) s = .next (rep s stNOTFOUND)) ∧
      ∀ r, s.reqs = [r] → r.reqid = id.toNat → s.serving = true →
        let ts := (r.tokens.take r.sent).filter fun e => decide (idx.toNat ≤ e.1)
        (r.kept s.time = true → ts ≠ [] ∨ r.isLive = false → exec (.resume c tag id idx) s =
          .next ((({ rep { s with reqs := [{ r with conn := some c }] } stOK with streamed := s.streamed + ts.length } : State)).send (.mgmt c) "TOKENS"
            (tokensMsg r ((ts.head?.map (·.1)).getD r.nextIdx) (ts.map (·.2)) (r.endCode.getD 0xFF)))) ∧
        (r.kept s.time = true → ts = [] → r.isLive = true → exec (.resume c tag id idx) s =
          .next (rep { s with reqs := [{ r with conn := some c }] } stOK)) ∧
        (∀ k, r.endCode = some k → exec (.cancel c tag id) s =
          .next (s.send (.mgmt c) "REPLY" (tag.toNat :: stOK :: cancelReply r.nextIdx k))) ∧
        (r.isLive = true → r.step.isSome = true → exec (.cancel c tag id) s =
          .next { s with reqs := [{ r with cancel := true }], replies := [⟨c, tag.toNat, 2, r.slot, none⟩] }) ∧
        (r.isLive = true → r.step = none → ∃ t, exec (.cancel c tag id) s = .next t ∧ t.reqAt r.slot = none ∧ t.replies = [] ∧
          r.holdTo ≤ t.time)) ∧
    ∀ (slot : BitVec 12) (s : State) (r : Req) (a : Nat), s.reqs = [r] → r.slot = slot.toNat → r.released = some a →
      (r.st = .done → ∃ t, exec (.tokenRetentionExpiry slot) s = .next t ∧ t.reqs = [] ∧ t.time = max s.time (a + 60 * second) ∧
        TimeFrame { s with reqs := [] } t) ∧
      (r.st ≠ .done → r.tokens ≠ [] → ∃ t, exec (.tokenRetentionExpiry slot) s = .next t ∧ t.reqs = [{ r with tokens := [] }] ∧
        t.time = max s.time (a + 60 * second) ∧ TimeFrame { s with reqs := t.reqs } t))

/-- ACK, GET, SUBSCRIBE, REPORT, REGISTER_READ, REGISTER_WRITE, INVENTORY, CERT and JOB_UNLOAD (R28, R501, R556 to R561): an acknowledged flacon leaves the store; a range
is delivered, NOTFOUND where one is missing; a period out of range gets BADMSG, another becomes the connection's subscription; a report
goes out at its time, over UDP too where a collector is named; a register access answers its status and words; a certificate that of the key in use; an unload ends the job. -/
def Obligations.ReceiptsAndTelemetryServed : Prop :=
  (∀ (c : Nat) (tag : Word) (s : State), s.conns.contains c = true → s.svcUp = true → s.romOnly = false → s.replies = [] →
    let rep := fun (x : State) (st : Nat) (p : List Nat) => x.send (.mgmt c) "REPLY" (tag.toNat :: st :: p)
    (∀ n : BitVec 64,
      (s.rcp.store.any (fun f => f.fnum == n.toNat) = false → exec (.ack c tag n) s = .next (rep s stNOTFOUND [])) ∧
      (s.rcp.store.any (fun f => f.fnum == n.toNat) = true → ∃ t, exec (.ack c tag n) s = .next t ∧
        t.rcp.store = s.rcp.store.filter (fun f => f.fnum != n.toNat) ∧ t = rep { s with rcp := t.rcp } stOK [])) ∧
    (∀ a b : BitVec 64, s.rcp.store = [] → exec (.get c tag a b) s = .next (rep s stNOTFOUND [])) ∧
    (∀ (a : BitVec 64) f, s.rcp.store = [f] → f.fnum = a.toNat → ∃ t, exec (.get c tag a a) s = .next t ∧ t = { s with outbox := t.outbox } ∧
      t.outbox.length = s.outbox.length + 2 + f.receipts.length ∧ (t.outbox.drop s.outbox.length).map (fun m => m.kind) =
        "REPLY" :: "FLACON" :: List.replicate f.receipts.length "RECEIPT") ∧
    (∀ p fl : Word, (p.toNat ≠ 0 → p.toNat < 100 ∨ 60000 < p.toNat → exec (.subscribe c tag p fl) s = .next (rep s stBADMSG [])) ∧
      (100 ≤ p.toNat → p.toNat ≤ 60000 → exec (.subscribe c tag p fl) s = .next (rep { s with
        subs := (s.subs.filter fun y => y.conn != c) ++ [⟨c, p.toNat, fl.toNat % 4, s.time + p.toNat * msec, s.streamed⟩] } stOK []))) ∧
    (∀ a n l, n = 0 ∨ 64 < n → exec (.registerRead c tag a n l) s = .next (rep s stBADMSG [])) ∧
    (∀ a l, exec (.registerWrite c tag a [] l) s = .next (rep s stBADMSG [])) ∧
    (s.accessFree (8 + c) = true → ∀ a, a < 0x1_0000_0000 → a % 4 = 0 →
      (pageAt a = none → exec (.registerRead c tag a 1 none) s = .next (rep s stOK [0, accUNMAPPED]) ∧
        ∀ v, exec (.registerWrite c tag a [v] none) s = .next (rep s stOK [0, accUNMAPPED])) ∧
      ∃ t, exec (.registerRead c tag a 1 (some 0)) s = .next t ∧ t.time = s.time + 100 * usec ∧
        t = rep { s with time := t.time, facets := t.facets, freeCtr := t.freeCtr } stOK [0, accTIMEOUT]) ∧
    (s.accessFree (8 + c) = true → (s.blk (blkOf pgTIM)).retired = false → (s.hdr pgTIM).inj = 0 →
      tblFind s.latches (latchKey (8 + c) (pageAddr pgTIM + 0x040)) = none →
      ∃ t, exec (.registerRead c tag (pageAddr pgTIM + 0x040) 1 none) s = .next t ∧ t = rep { s with latches := t.latches } stOK [1, accOK, s.time % 2 ^ 32]) ∧
    (s.accessFree (8 + c) = true → (s.blk (blkOf (pgFLT 0))).retired = false → (s.hdr (pgFLT 0)).inj = 0 → ∀ v : Word,
      ∃ t, exec (.registerWrite c tag (pageAddr (pgFLT 0) + 0x040) [v] none) s = .next t ∧ t.fld (pgFLT 0) 0x040 0 8 = v.toNat % 2 ^ 8 ∧
        SameRegsBut s t (fun p off => p = pgFLT 0 ∧ off = 0x040) ∧ t = rep { s with regs := t.regs } stOK [1, accOK]) ∧
    exec (.cert c tag) s = .next (rep s stOK (Config.certificate s.rcp.keyId)) ∧
    (∃ t l, exec (.inventory c tag) s = .next t ∧ t = rep s stOK l ∧ l.head? = some s.ltns) ∧
    (s.job = none → exec (.jobUnload c tag) s = .next (rep s stNOTFOUND [])) ∧
    (s.job.isSome = true → ∃ t, exec (.jobUnload c tag) s = .next t ∧ t.job = none ∧ t.reqs.all (fun r => !r.isLive) = true ∧
      t.binds.all (fun b => !b.opened) = true ∧ t.pages = [] ∧ (t.outbox.getLast?).map (fun m => (m.chan, m.kind)) = some (.mgmt c, "REPLY"))) ∧
  ∀ (c : Nat) (s : State),
    ((s.subs.find? fun x => x.conn == c && x.period != 0) = none → exec (.report c) s = .next s) ∧
    ∀ x, (s.subs.find? fun x => x.conn == c && x.period != 0) = some x → ∃ t, exec (.report c) s = .next t ∧ t.time = max s.time x.due ∧
      t.subs = s.subs.map (fun y => if y.conn == c then { y with due := x.due + x.period * msec, seen := s.streamed } else y) ∧
      (t.outbox.drop s.outbox.length).map (fun m => (m.chan, m.kind)) =
        (.mgmt c, "REPORT") :: (if s.udp then [(.udp, "REPORT")] else []) ∧
      TimeFrame { s with subs := t.subs, outbox := t.outbox } t

/-- BEGIN, DATA, OSIMG, SEQIMG, PACK, LICENCE and JOB_LOAD (R313, R350 to R352, R538, R562, R565, R574, R582): one transfer of a type is open at a time; data beyond its
length gets BADMSG; an end closes it, and content that is not whole is refused; a whole one is put in force, or refused by its type's rule. -/
def Obligations.ContentTransfers : Prop :=
  ∀ (c : Nat) (tag : Word) (s : State), s.conns.contains c = true → s.svcUp = true → s.romOnly = false → s.replies = [] →
    let rep := fun (x : State) (st : Nat) (p : List Nat) => x.send (.mgmt c) "REPLY" (tag.toNat :: st :: p)
    let less := fun (ty : Nat) => { s with contents := s.contents.filter fun x => x.conn != c || x.ty != ty }
    (∀ (ty : BitVec 16) len (h : List (BitVec 8)),
      (ty.toNat = 0 ∨ 5 < ty.toNat ∨ h.length ≠ 32 → exec (.begin c tag ty len h) s = .next (rep s stBADMSG [])) ∧
      (1 ≤ ty.toNat → ty.toNat ≤ 5 → h.length = 32 →
        (s.contents.any (fun x => x.ty == ty.toNat) = true → exec (.begin c tag ty len h) s = .next (rep s stBUSY [])) ∧
        (s.contents.any (fun x => x.ty == ty.toNat) = false → exec (.begin c tag ty len h) s =
          .next (rep { s with contents := s.contents ++ [⟨c, ty.toNat, len, h.map (fun b => b.toNat), []⟩] } stOK [])))) ∧
    (∀ (ty : BitVec 16) off (b : List (BitVec 8)),
      (s.content c ty.toNat = none → exec (.data c tag ty off b) s = .next (rep s stNOTFOUND [])) ∧
      ∀ x, s.content c ty.toNat = some x →
        (2 ^ 20 < b.length ∨ x.len < off + b.length → exec (.data c tag ty off b) s = .next (rep s stBADMSG [])) ∧
        (b.length ≤ 2 ^ 20 → off + b.length ≤ x.len → ∃ t, exec (.data c tag ty off b) s = .next t ∧
          t = rep { s with contents := t.contents } stOK [] ∧ ∀ i, i < b.length →
            ((t.content c ty.toNat).bind fun y => y.byte (off + i)) = (b[i]?).map (fun v => v.toNat))) ∧
    (∀ (v : BitVec 31) ok res id ver (mj : BitVec 8) lic cfg at_ n pl j7 part,
      (s.content c tyOSIMG = none → exec (.osimg c tag v ok res) s = .next (rep s stNOTFOUND [])) ∧
      (∀ x, s.content c tyOSIMG = some x →
        (x.whole = none → exec (.osimg c tag v ok res) s = .next (rep (less tyOSIMG) stREFUSED [])) ∧
        ∀ b, x.whole = some b → (ok = false ∨ v.toNat < s.nv.minVersion → exec (.osimg c tag v ok res) s = .next (rep (less tyOSIMG) stREFUSED [])) ∧
          (ok = true → s.nv.minVersion ≤ v.toNat → s.nv.sel ≤ 1 → ∃ t, exec (.osimg c tag v ok res) s = .next t ∧ t.nv.newImage = true ∧
            t.nv.slots[1 - s.nv.sel]? = some ⟨v.toNat, sha256 b, true⟩ ∧ t = rep { less tyOSIMG with nv := t.nv } stOK [])) ∧
      (∀ x, s.content c tySEQIMG = some x →
        (x.whole = none → exec (.seqimg c tag) s = .next (rep (less tySEQIMG) stREFUSED [])) ∧
        ∀ b, x.whole = some b → b ≠ [] → b.length ≤ imemBytes →
          (s.bcast.open_ = true → exec (.seqimg c tag) s = .next (rep (less tySEQIMG) stBUSY [])) ∧
          (s.bcast.open_ = false → ∃ t, exec (.seqimg c tag) s = .next t ∧ t.bcast = ⟨true, false, false, b, []⟩ ∧
            t.replies = [⟨c, tag.toNat, 3, 0, none⟩] ∧ t.fld pgSVC 0x084 0 16 = (s.fld pgSVC 0x084 0 16 + 1) % 2 ^ 16 ∧ t.imem = s.imem)) ∧
      (∀ x, s.content c tyPACK = some x →
        (x.whole = none → exec (.pack c tag id ver mj ok) s = .next (rep (less tyPACK) stREFUSED [])) ∧
        (x.whole.isSome = true → ok = true → mj = 1#8 → s.nv.packs.all (fun p => p.1 != id || decide (p.2 < ver)) = true →
          ∃ t, exec (.pack c tag id ver mj ok) s = .next t ∧ t.nv.packs = (s.nv.packs.filter fun p => p.1 != id) ++ [(id, ver)] ∧
            t = rep { less tyPACK with nv := t.nv } stOK [])) ∧
      (∀ x, s.content c tyLICENCE = some x →
        (x.whole = none ∨ s.licenceFits lic = false → exec (.licence c tag lic) s = .next (rep (less tyLICENCE) stREFUSED [])) ∧
        (x.whole.isSome = true → s.licenceFits lic = true → s.nv.licCtr < lic.version → ∃ t, exec (.licence c tag lic) s = .next t ∧
          t.nv = { s.nv with licCtr := lic.version, lics := [lic, lic] } ∧ t.flag (pgGLB 1) 0x048 8 = true ∧
          t = rep { less tyLICENCE with nv := t.nv, regs := t.regs } stOK [])) ∧
      ∀ x, s.content c tyJOBLOAD = some x →
        (x.whole = none → exec (.jobLoad c tag cfg at_ n pl j7 part) s = .next (rep (less tyJOBLOAD) stREFUSED [])) ∧
        (∀ b, x.whole = some b →
          let cf : JobCfg := { cfg with hash := fromLe ((sha256 ((b.drop at_).take n)).take 8), window := cfg.window % 256 }
          ((less tyJOBLOAD).loadCheck cf pl j7 part = (0, 0) → ∃ t j, exec (.jobLoad c tag cfg at_ n pl j7 part) s = .next t ∧
            t.job = some j ∧ j.cfg = cf ∧ j.place = pl ∧ t.pages = [] ∧ t.msgs = [] ∧
            (t.outbox.getLast?).map (fun m => (m.chan, m.kind, m.words.take 2)) = some (.mgmt c, "REPLY", [tag.toNat, stOK])) ∧
          (∀ k d, (less tyJOBLOAD).loadCheck cf pl j7 part = (k + 1, d) → exec (.jobLoad c tag cfg at_ n pl j7 part) s =
            .next (rep (less tyJOBLOAD) stREFUSED ((less tyJOBLOAD).loadStatus (k + 1) d pl)))))

/-- COLD_START, WARM, FULL, COMPUTE, OS_READY_TIMEOUT and WATCHDOG_EXPIRY (R423, R546, R571 to R575, R589 to R591): a cold start of a module that is up
does nothing; one of a module that is not leaves no job, request, connection or transfer, and without an image that verifies halts at
step 3 with OSBOOT; a warm reset too early is refused, one while a fuse word is programmed waits, a second one is refused, another counts itself and its cause;
a compute-only reset before Ready is refused, and at Ready ends the job and its requests and keeps the connections. -/
def Obligations.ResetsAndBringUp : Prop :=
  ∀ (res : BootRes) (s : State),
    let blank := fun (t : State) => t.job = none ∧ t.reqs = [] ∧ t.conns = [] ∧ t.binds = [] ∧ t.contents = [] ∧ t.subs = [] ∧ t.pending = s.pending
    let osboot := fun (t : State) => t.bootStage = 3 ∧ t.bootHalted = true ∧ t.fld (pgGLB 0) 0x040 8 4 = haltOSBOOT ∧ t.romOnly = true
    (s.boot.powered = true → s.bootStage ≠ 1 → exec (.coldStart res) s = .next s) ∧
    (s.boot.powered = false ∨ s.bootStage = 1 → ∃ t, exec (.coldStart res) s = .next t ∧ blank t ∧ t.boot.powered = true ∧
      (s.nv.slots = [] → osboot t ∧ SameMem State.reset t ∧ (∀ r, r < 72 → t.region r = 0) ∧ t.time ≤ 10000 * msec + 10 * msec)) ∧
    (s.boot.powered = false ∨ s.bootStage < 3 ∨ s.inputOut = true → exec (.warm res) s = .next (s.wlock (pgGLB 0)) ∧
      exec (.full res) s = .next (s.wlock (pgGLB 0))) ∧
    (s.boot.powered = true → 3 ≤ s.bootStage → s.inputOut = false →
      (s.boot.prog.isSome = true → s.boot.after.all (fun a => a.1 == 2) = true →
        exec (.warm res) s = .next { s with boot := { s.boot with after := some (0, res) } } ∧
        exec (.full res) s = .next { s with boot := { s.boot with after := some (1, res) } }) ∧
      (s.boot.prog.isSome = true → s.boot.after.all (fun a => a.1 == 2) = false → exec (.warm res) s = .next (s.wlock (pgGLB 0)) ∧
        exec (.full res) s = .next (s.wlock (pgGLB 0))) ∧
      (s.boot.prog = none → ∃ t u, exec (.warm res) s = .next t ∧ exec (.full res) s = .next u ∧ ∀ x, x = t ∨ x = u → blank x ∧ s.time ≤ x.time ∧
        (s.nv.slots = [] → osboot x ∧ x.fld (pgGLB 0) 0x058 0 16 = min 65535 (s.fld (pgGLB 0) 0x058 0 16 + 1) ∧
          x.fld (pgGLB 0) 0x048 0 4 = (if s.boot.stopCause = 0 then 1 else s.boot.stopCause) % 16))) ∧
    (s.svcUp = false ∨ s.bootStage ≠ 11 → exec (.compute res) s = .next (s.wlock (pgGLB 0))) ∧
    (s.svcUp = true → s.bootStage = 11 →
      (s.boot.prog.isSome = true → exec (.compute res) s =
        .next (if s.boot.after.isSome then s.wlock (pgGLB 0) else { s with boot := { s.boot with after := some (2, res) } })) ∧
      (s.boot.prog = none → ∃ t, exec (.compute res) s = .next t ∧ t.job = none ∧ (s.job.isSome = true → t.reqs.all (fun r => !r.isLive) = true) ∧
        t.conns = s.conns ∧ t.reg (pgGLB 0) 0x048 = 5 ∧ t.fld (pgGLB 0) 0x058 16 16 = min 65535 (s.fld (pgGLB 0) 0x058 16 16 + 1) ∧
        t.stepPend = none)) ∧
    (s.boot.osStart = none ∨ s.flag pgSVC 0x048 9 = true → exec (.osReadyTimeout res) s = .next s) ∧
    (∀ a, s.boot.osStart = some a → s.flag pgSVC 0x048 9 = false → ∃ t, exec (.osReadyTimeout res) s = .next t ∧ blank t ∧
      a + 30 * second ≤ t.time ∧ bitOf (t.hdr (pgGLB 0)).err 11 = true) ∧
    (s.flag pgSVC 0x040 0 = false ∨ s.svcUp = false ∨ s.flag pgSVC 0x048 9 = false → exec (.watchdogExpiry res) s = .next s) ∧
    (s.flag pgSVC 0x040 0 = true → s.svcUp = true → s.flag pgSVC 0x048 9 = true → ∃ t, exec (.watchdogExpiry res) s = .next t ∧ blank t ∧
      s.boot.kick + max 1 (s.fld pgSVC 0x040 8 8) * second ≤ t.time ∧ (s.nv.slots = [] → t.fld (pgGLB 0) 0x048 0 4 = 2 ∧ osboot t))

/-- FUSE_GO and FUSE_PROGRAM_DONE (R592): outside the presence window the write is refused with WLOCK; a word that may not be programmed writes its
RESULT and blows nothing; the word is programmed within 10 ms and then holds the entry, or is void. -/
def Obligations.FuseProgramming : Prop :=
  (∀ s : State, (s.hdr (pgFUS 2)).inj = 0 →
    let i := s.fld (pgFUS 2) 0x040 0 10
    let v := s.reg (pgFUS 2) 0x044
    let result := fun (n : Nat) => ∃ t, exec .fuseGo s = .next t ∧ t.reg (pgFUS 2) 0x04C = n ∧ t = { s with regs := t.regs }
    (s.presOpen = false → ∃ t, exec .fuseGo s = .next t ∧ (t.hdr (pgFUS 2)).wlock = true ∧ bitOf (t.hdr (pgFUS 2)).err 2 = true ∧ LogFrame s t) ∧
    (s.presOpen = true →
      (s.flag (pgFUS 0) 0x040 2 = false → result 2) ∧
      (s.flag (pgFUS 0) 0x040 2 = true →
        (fieldWord i = false → result 3) ∧
        (fieldWord i = true →
          ((s.fuse i).v ≠ 0 ∨ (s.fuse i).void = true → result 4) ∧
          ((s.fuse i).v = 0 → (s.fuse i).void = false →
            (bitOf v 31 = false ∨ bitOf v 30 = true → result 5) ∧
            (bitOf v 31 = true → bitOf v 30 = false →
              (s.inputOut = true → result 6) ∧
              (s.inputOut = false → s.boot.prog.isSome = true → result 7) ∧
              (s.inputOut = false → s.boot.prog = none → ∃ t, exec .fuseGo s = .next t ∧ t.boot = { s.boot with prog := some (i, v, s.time) } ∧
                t.flag (pgFUS 0) 0x040 3 = true ∧ t = { s with boot := t.boot, regs := t.regs }))))))) ∧
  (∀ s : State, s.boot.prog = none → ∀ ok, exec (.fuseProgramDone ok) s = .next s) ∧
  ∀ (s : State) (i v a : Nat) (ok : Bool), s.boot.prog = some (i, v, a) → s.boot.after = none →
    let good := ok && !s.injPend (pgFUS 0) 10
    ∃ t, exec (.fuseProgramDone ok) s = .next t ∧
    t.time = max s.time (a + 10 * msec) ∧ (t.fuse i).v = (if good then v else 0xFFFF_FFFF) ∧ (t.fuse i).void = !good ∧ t.boot.prog = none ∧
    t.reg (pgFUS 2) 0x04C = (if good then 1 else 8) ∧ t.flag (pgFUS 0) 0x040 3 = false ∧ (∀ k, k ≠ i → t.fuse k = s.fuse k) ∧
    (good = false → bitOf (t.hdr (pgFUS 0)).err 10 = true) ∧ LogFrame { s with time := t.time, facets := t.facets, nv := t.nv, boot := t.boot } t

/-- State.reset holds what the manual gives for reset (R41, R423, Table 20.2): nothing in any memory, device time 0, every region OFF, no
request, no pending command; step 7 in force and STAGE 1 are its register values. Blank fuses and storage are log entry 1. -/
def Obligations.ResetMeetsInvariant : Prop :=
  State.reset.memOk = true ∧ State.reset.pending = [] ∧ State.reset.time = 0 ∧ (∀ r, r < 72 → State.reset.region r = 0) ∧
    State.reset.bootStage = 1 ∧ State.reset.job = none ∧ State.reset.reqs = [] ∧
    ∀ site w, State.reset.spadWord site w = ⟨0, true⟩

/-- Every step keeps every memory of the block, scratchpads, instruction memories, bulk memory and broadcast staging, in canonical form. -/
def Obligations.StepKeepsMemoriesCanonical : Prop :=
  ∀ s t : State, s.memOk = true → step s = .next t → t.memOk = true

/-- The tables of registers, block control and page headers keep their canonical form at every step: keys rise and no entry equals its
reset value, so that equal contents are equal data. -/
def Obligations.StepKeepsRegistersCanonical : Prop :=
  ∀ s t : State, tblWf regReset s.regs = true → tblWf blkReset s.blks = true → tblWf hdrReset s.hdrs = true → step s = .next t →
    tblWf regReset t.regs = true ∧ tblWf blkReset t.blks = true ∧ tblWf hdrReset t.hdrs = true

/-- Every step of the block answers a next state: no command of the table faults or is refused.

A command changes everything but the queue of the commands that wait: after a step that ran a command the queue is its rest, and an
idle step leaves it empty. -/
def Obligations.CommandsLeaveQueueAlone : Prop :=
   (∀ s : State, ∃ t, step s = .next t) ∧
   ((∀ (i : Instr) (s t : State), exec i s = .next t → t.pending = s.pending) ∧
      ∀ s t : State, step s = .next t → t.pending = s.pending.tail)

/-- Device time counts on (R423): no command but a cold start, which begins it again at 0, sets it back. -/
def Obligations.DeviceTimeNeverGoesBack : Prop :=
  (∀ (i : Instr) (s t : State), (∀ res, i ≠ .coldStart res) → exec i s = .next t → s.time ≤ t.time) ∧
    ∀ s t : State, s.pending = [] → step s = .next t → s.time ≤ t.time
end

