-- ==== Sys2Proof/Laws/Frames.lean ====
section
/-! SUPPORT. The fields that an error report, and those that the passing of time, leave alone. -/

namespace Sys2Proof.Machine

theorem LogFrame.pending {s t : State} (h : LogFrame s t) : t.pending = s.pending :=
  (congrArg State.pending (show t.butLog = s.butLog from h) : _)
theorem LogFrame.freeCtr {s t : State} (h : LogFrame s t) : t.freeCtr = s.freeCtr :=
  (congrArg State.freeCtr (show t.butLog = s.butLog from h) : _)
theorem LogFrame.time {s t : State} (h : LogFrame s t) : t.time = s.time :=
  (congrArg State.time (show t.butLog = s.butLog from h) : _)
theorem LogFrame.facets {s t : State} (h : LogFrame s t) : t.facets = s.facets :=
  (congrArg State.facets (show t.butLog = s.butLog from h) : _)
theorem LogFrame.staged {s t : State} (h : LogFrame s t) : t.staged = s.staged :=
  (congrArg State.staged (show t.butLog = s.butLog from h) : _)
theorem LogFrame.latches {s t : State} (h : LogFrame s t) : t.latches = s.latches :=
  (congrArg State.latches (show t.butLog = s.butLog from h) : _)
theorem LogFrame.origins {s t : State} (h : LogFrame s t) : t.origins = s.origins :=
  (congrArg State.origins (show t.butLog = s.butLog from h) : _)
theorem LogFrame.tiles {s t : State} (h : LogFrame s t) : t.tiles = s.tiles :=
  (congrArg State.tiles (show t.butLog = s.butLog from h) : _)
theorem LogFrame.sync {s t : State} (h : LogFrame s t) : t.sync = s.sync :=
  (congrArg State.sync (show t.butLog = s.butLog from h) : _)
theorem LogFrame.keys {s t : State} (h : LogFrame s t) : t.keys = s.keys :=
  (congrArg State.keys (show t.butLog = s.butLog from h) : _)
theorem LogFrame.spad {s t : State} (h : LogFrame s t) : t.spad = s.spad :=
  (congrArg State.spad (show t.butLog = s.butLog from h) : _)
theorem LogFrame.spadPoison {s t : State} (h : LogFrame s t) : t.spadPoison = s.spadPoison :=
  (congrArg State.spadPoison (show t.butLog = s.butLog from h) : _)
theorem LogFrame.imem {s t : State} (h : LogFrame s t) : t.imem = s.imem :=
  (congrArg State.imem (show t.butLog = s.butLog from h) : _)
theorem LogFrame.telActive {s t : State} (h : LogFrame s t) : t.telActive = s.telActive :=
  (congrArg State.telActive (show t.butLog = s.butLog from h) : _)
theorem LogFrame.telFrozen {s t : State} (h : LogFrame s t) : t.telFrozen = s.telFrozen :=
  (congrArg State.telFrozen (show t.butLog = s.butLog from h) : _)
theorem LogFrame.telSwap {s t : State} (h : LogFrame s t) : t.telSwap = s.telSwap :=
  (congrArg State.telSwap (show t.butLog = s.butLog from h) : _)
theorem LogFrame.rtrTbl {s t : State} (h : LogFrame s t) : t.rtrTbl = s.rtrTbl :=
  (congrArg State.rtrTbl (show t.butLog = s.butLog from h) : _)
theorem LogFrame.slotCtr {s t : State} (h : LogFrame s t) : t.slotCtr = s.slotCtr :=
  (congrArg State.slotCtr (show t.butLog = s.butLog from h) : _)
theorem LogFrame.inbuf {s t : State} (h : LogFrame s t) : t.inbuf = s.inbuf :=
  (congrArg State.inbuf (show t.butLog = s.butLog from h) : _)
theorem LogFrame.order {s t : State} (h : LogFrame s t) : t.order = s.order :=
  (congrArg State.order (show t.butLog = s.butLog from h) : _)
theorem LogFrame.links {s t : State} (h : LogFrame s t) : t.links = s.links :=
  (congrArg State.links (show t.butLog = s.butLog from h) : _)
theorem LogFrame.maps {s t : State} (h : LogFrame s t) : t.maps = s.maps :=
  (congrArg State.maps (show t.butLog = s.butLog from h) : _)
theorem LogFrame.chanMaps {s t : State} (h : LogFrame s t) : t.chanMaps = s.chanMaps :=
  (congrArg State.chanMaps (show t.butLog = s.butLog from h) : _)
theorem LogFrame.packets {s t : State} (h : LogFrame s t) : t.packets = s.packets :=
  (congrArg State.packets (show t.butLog = s.butLog from h) : _)
theorem LogFrame.rr {s t : State} (h : LogFrame s t) : t.rr = s.rr :=
  (congrArg State.rr (show t.butLog = s.butLog from h) : _)
theorem LogFrame.verdicts {s t : State} (h : LogFrame s t) : t.verdicts = s.verdicts :=
  (congrArg State.verdicts (show t.butLog = s.butLog from h) : _)
theorem LogFrame.delivered {s t : State} (h : LogFrame s t) : t.delivered = s.delivered :=
  (congrArg State.delivered (show t.butLog = s.butLog from h) : _)
theorem LogFrame.subs {s t : State} (h : LogFrame s t) : t.subs = s.subs :=
  (congrArg State.subs (show t.butLog = s.butLog from h) : _)
theorem LogFrame.udp {s t : State} (h : LogFrame s t) : t.udp = s.udp :=
  (congrArg State.udp (show t.butLog = s.butLog from h) : _)
theorem LogFrame.mccs {s t : State} (h : LogFrame s t) : t.mccs = s.mccs :=
  (congrArg State.mccs (show t.butLog = s.butLog from h) : _)
theorem LogFrame.dram {s t : State} (h : LogFrame s t) : t.dram = s.dram :=
  (congrArg State.dram (show t.butLog = s.butLog from h) : _)
theorem LogFrame.dramClean {s t : State} (h : LogFrame s t) : t.dramClean = s.dramClean :=
  (congrArg State.dramClean (show t.butLog = s.butLog from h) : _)
theorem LogFrame.retireQ {s t : State} (h : LogFrame s t) : t.retireQ = s.retireQ :=
  (congrArg State.retireQ (show t.butLog = s.butLog from h) : _)
theorem LogFrame.job {s t : State} (h : LogFrame s t) : t.job = s.job :=
  (congrArg State.job (show t.butLog = s.butLog from h) : _)
theorem LogFrame.reqs {s t : State} (h : LogFrame s t) : t.reqs = s.reqs :=
  (congrArg State.reqs (show t.butLog = s.butLog from h) : _)
theorem LogFrame.msgs {s t : State} (h : LogFrame s t) : t.msgs = s.msgs :=
  (congrArg State.msgs (show t.butLog = s.butLog from h) : _)
theorem LogFrame.tagCtr {s t : State} (h : LogFrame s t) : t.tagCtr = s.tagCtr :=
  (congrArg State.tagCtr (show t.butLog = s.butLog from h) : _)
theorem LogFrame.attns {s t : State} (h : LogFrame s t) : t.attns = s.attns :=
  (congrArg State.attns (show t.butLog = s.butLog from h) : _)
theorem LogFrame.gens {s t : State} (h : LogFrame s t) : t.gens = s.gens :=
  (congrArg State.gens (show t.butLog = s.butLog from h) : _)
theorem LogFrame.pages {s t : State} (h : LogFrame s t) : t.pages = s.pages :=
  (congrArg State.pages (show t.butLog = s.butLog from h) : _)
theorem LogFrame.chunks {s t : State} (h : LogFrame s t) : t.chunks = s.chunks :=
  (congrArg State.chunks (show t.butLog = s.butLog from h) : _)
theorem LogFrame.oldDirs {s t : State} (h : LogFrame s t) : t.oldDirs = s.oldDirs :=
  (congrArg State.oldDirs (show t.butLog = s.butLog from h) : _)
theorem LogFrame.heldQ {s t : State} (h : LogFrame s t) : t.heldQ = s.heldQ :=
  (congrArg State.heldQ (show t.butLog = s.butLog from h) : _)
theorem LogFrame.closes {s t : State} (h : LogFrame s t) : t.closes = s.closes :=
  (congrArg State.closes (show t.butLog = s.butLog from h) : _)
theorem LogFrame.binds {s t : State} (h : LogFrame s t) : t.binds = s.binds :=
  (congrArg State.binds (show t.butLog = s.butLog from h) : _)
theorem LogFrame.ports {s t : State} (h : LogFrame s t) : t.ports = s.ports :=
  (congrArg State.ports (show t.butLog = s.butLog from h) : _)
theorem LogFrame.stepPend {s t : State} (h : LogFrame s t) : t.stepPend = s.stepPend :=
  (congrArg State.stepPend (show t.butLog = s.butLog from h) : _)
theorem LogFrame.ptp {s t : State} (h : LogFrame s t) : t.ptp = s.ptp :=
  (congrArg State.ptp (show t.butLog = s.butLog from h) : _)
theorem LogFrame.regions {s t : State} (h : LogFrame s t) : t.regions = s.regions :=
  (congrArg State.regions (show t.butLog = s.butLog from h) : _)
theorem LogFrame.reqOrder {s t : State} (h : LogFrame s t) : t.reqOrder = s.reqOrder :=
  (congrArg State.reqOrder (show t.butLog = s.butLog from h) : _)
theorem LogFrame.ctl {s t : State} (h : LogFrame s t) : t.ctl = s.ctl :=
  (congrArg State.ctl (show t.butLog = s.butLog from h) : _)
theorem LogFrame.mtr {s t : State} (h : LogFrame s t) : t.mtr = s.mtr :=
  (congrArg State.mtr (show t.butLog = s.butLog from h) : _)
theorem LogFrame.rcp {s t : State} (h : LogFrame s t) : t.rcp = s.rcp :=
  (congrArg State.rcp (show t.butLog = s.butLog from h) : _)
theorem LogFrame.sealLoop {s t : State} (h : LogFrame s t) : t.sealLoop = s.sealLoop :=
  (congrArg State.sealLoop (show t.butLog = s.butLog from h) : _)
theorem LogFrame.conns {s t : State} (h : LogFrame s t) : t.conns = s.conns :=
  (congrArg State.conns (show t.butLog = s.butLog from h) : _)
theorem LogFrame.contents {s t : State} (h : LogFrame s t) : t.contents = s.contents :=
  (congrArg State.contents (show t.butLog = s.butLog from h) : _)
theorem LogFrame.replies {s t : State} (h : LogFrame s t) : t.replies = s.replies :=
  (congrArg State.replies (show t.butLog = s.butLog from h) : _)
theorem LogFrame.streamed {s t : State} (h : LogFrame s t) : t.streamed = s.streamed :=
  (congrArg State.streamed (show t.butLog = s.butLog from h) : _)
theorem LogFrame.bc {s t : State} (h : LogFrame s t) : t.bc = s.bc :=
  (congrArg State.bc (show t.butLog = s.butLog from h) : _)
theorem LogFrame.bcast {s t : State} (h : LogFrame s t) : t.bcast = s.bcast :=
  (congrArg State.bcast (show t.butLog = s.butLog from h) : _)
theorem LogFrame.staging {s t : State} (h : LogFrame s t) : t.staging = s.staging :=
  (congrArg State.staging (show t.butLog = s.butLog from h) : _)
theorem LogFrame.nv {s t : State} (h : LogFrame s t) : t.nv = s.nv :=
  (congrArg State.nv (show t.butLog = s.butLog from h) : _)
theorem LogFrame.boot {s t : State} (h : LogFrame s t) : t.boot = s.boot :=
  (congrArg State.boot (show t.butLog = s.butLog from h) : _)
theorem LogFrame.pair {s t : State} (h : LogFrame s t) : t.pair = s.pair :=
  (congrArg State.pair (show t.butLog = s.butLog from h) : _)
theorem LogFrame.i3c {s t : State} (h : LogFrame s t) : t.i3c = s.i3c :=
  (congrArg State.i3c (show t.butLog = s.butLog from h) : _)
theorem LogFrame.accesses {s t : State} (h : LogFrame s t) : t.accesses = s.accesses :=
  (congrArg State.accesses (show t.butLog = s.butLog from h) : _)
theorem LogFrame.rsps {s t : State} (h : LogFrame s t) : t.rsps = s.rsps :=
  (congrArg State.rsps (show t.butLog = s.butLog from h) : _)
theorem LogFrame.svc {s t : State} (h : LogFrame s t) : t.svc = s.svc :=
  (congrArg State.svc (show t.butLog = s.butLog from h) : _)
theorem LogFrame.svcWait {s t : State} (h : LogFrame s t) : t.svcWait = s.svcWait :=
  (congrArg State.svcWait (show t.butLog = s.butLog from h) : _)

theorem TimeFrame.pending {s t : State} (h : TimeFrame s t) : t.pending = s.pending :=
  (congrArg State.pending (show t.butTime = s.butTime from h) : _)
theorem TimeFrame.outbox {s t : State} (h : TimeFrame s t) : t.outbox = s.outbox :=
  (congrArg State.outbox (show t.butTime = s.butTime from h) : _)
theorem TimeFrame.freeCtr {s t : State} (h : TimeFrame s t) : t.freeCtr = s.freeCtr :=
  (congrArg State.freeCtr (show t.butTime = s.butTime from h) : _)
theorem TimeFrame.regs {s t : State} (h : TimeFrame s t) : t.regs = s.regs :=
  (congrArg State.regs (show t.butTime = s.butTime from h) : _)
theorem TimeFrame.staged {s t : State} (h : TimeFrame s t) : t.staged = s.staged :=
  (congrArg State.staged (show t.butTime = s.butTime from h) : _)
theorem TimeFrame.blks {s t : State} (h : TimeFrame s t) : t.blks = s.blks :=
  (congrArg State.blks (show t.butTime = s.butTime from h) : _)
theorem TimeFrame.hdrs {s t : State} (h : TimeFrame s t) : t.hdrs = s.hdrs :=
  (congrArg State.hdrs (show t.butTime = s.butTime from h) : _)
theorem TimeFrame.latches {s t : State} (h : TimeFrame s t) : t.latches = s.latches :=
  (congrArg State.latches (show t.butTime = s.butTime from h) : _)
theorem TimeFrame.log {s t : State} (h : TimeFrame s t) : t.log = s.log :=
  (congrArg State.log (show t.butTime = s.butTime from h) : _)
theorem TimeFrame.logSeq {s t : State} (h : TimeFrame s t) : t.logSeq = s.logSeq :=
  (congrArg State.logSeq (show t.butTime = s.butTime from h) : _)
theorem TimeFrame.colls {s t : State} (h : TimeFrame s t) : t.colls = s.colls :=
  (congrArg State.colls (show t.butTime = s.butTime from h) : _)
theorem TimeFrame.loupes {s t : State} (h : TimeFrame s t) : t.loupes = s.loupes :=
  (congrArg State.loupes (show t.butTime = s.butTime from h) : _)
theorem TimeFrame.origins {s t : State} (h : TimeFrame s t) : t.origins = s.origins :=
  (congrArg State.origins (show t.butTime = s.butTime from h) : _)
theorem TimeFrame.tiles {s t : State} (h : TimeFrame s t) : t.tiles = s.tiles :=
  (congrArg State.tiles (show t.butTime = s.butTime from h) : _)
theorem TimeFrame.sync {s t : State} (h : TimeFrame s t) : t.sync = s.sync :=
  (congrArg State.sync (show t.butTime = s.butTime from h) : _)
theorem TimeFrame.keys {s t : State} (h : TimeFrame s t) : t.keys = s.keys :=
  (congrArg State.keys (show t.butTime = s.butTime from h) : _)
theorem TimeFrame.spad {s t : State} (h : TimeFrame s t) : t.spad = s.spad :=
  (congrArg State.spad (show t.butTime = s.butTime from h) : _)
theorem TimeFrame.spadPoison {s t : State} (h : TimeFrame s t) : t.spadPoison = s.spadPoison :=
  (congrArg State.spadPoison (show t.butTime = s.butTime from h) : _)
theorem TimeFrame.imem {s t : State} (h : TimeFrame s t) : t.imem = s.imem :=
  (congrArg State.imem (show t.butTime = s.butTime from h) : _)
theorem TimeFrame.telActive {s t : State} (h : TimeFrame s t) : t.telActive = s.telActive :=
  (congrArg State.telActive (show t.butTime = s.butTime from h) : _)
theorem TimeFrame.telFrozen {s t : State} (h : TimeFrame s t) : t.telFrozen = s.telFrozen :=
  (congrArg State.telFrozen (show t.butTime = s.butTime from h) : _)
theorem TimeFrame.telSwap {s t : State} (h : TimeFrame s t) : t.telSwap = s.telSwap :=
  (congrArg State.telSwap (show t.butTime = s.butTime from h) : _)
theorem TimeFrame.rtrTbl {s t : State} (h : TimeFrame s t) : t.rtrTbl = s.rtrTbl :=
  (congrArg State.rtrTbl (show t.butTime = s.butTime from h) : _)
theorem TimeFrame.slotCtr {s t : State} (h : TimeFrame s t) : t.slotCtr = s.slotCtr :=
  (congrArg State.slotCtr (show t.butTime = s.butTime from h) : _)
theorem TimeFrame.inbuf {s t : State} (h : TimeFrame s t) : t.inbuf = s.inbuf :=
  (congrArg State.inbuf (show t.butTime = s.butTime from h) : _)
theorem TimeFrame.order {s t : State} (h : TimeFrame s t) : t.order = s.order :=
  (congrArg State.order (show t.butTime = s.butTime from h) : _)
theorem TimeFrame.links {s t : State} (h : TimeFrame s t) : t.links = s.links :=
  (congrArg State.links (show t.butTime = s.butTime from h) : _)
theorem TimeFrame.maps {s t : State} (h : TimeFrame s t) : t.maps = s.maps :=
  (congrArg State.maps (show t.butTime = s.butTime from h) : _)
theorem TimeFrame.chanMaps {s t : State} (h : TimeFrame s t) : t.chanMaps = s.chanMaps :=
  (congrArg State.chanMaps (show t.butTime = s.butTime from h) : _)
theorem TimeFrame.packets {s t : State} (h : TimeFrame s t) : t.packets = s.packets :=
  (congrArg State.packets (show t.butTime = s.butTime from h) : _)
theorem TimeFrame.rr {s t : State} (h : TimeFrame s t) : t.rr = s.rr :=
  (congrArg State.rr (show t.butTime = s.butTime from h) : _)
theorem TimeFrame.verdicts {s t : State} (h : TimeFrame s t) : t.verdicts = s.verdicts :=
  (congrArg State.verdicts (show t.butTime = s.butTime from h) : _)
theorem TimeFrame.delivered {s t : State} (h : TimeFrame s t) : t.delivered = s.delivered :=
  (congrArg State.delivered (show t.butTime = s.butTime from h) : _)
theorem TimeFrame.subs {s t : State} (h : TimeFrame s t) : t.subs = s.subs :=
  (congrArg State.subs (show t.butTime = s.butTime from h) : _)
theorem TimeFrame.udp {s t : State} (h : TimeFrame s t) : t.udp = s.udp :=
  (congrArg State.udp (show t.butTime = s.butTime from h) : _)
theorem TimeFrame.mccs {s t : State} (h : TimeFrame s t) : t.mccs = s.mccs :=
  (congrArg State.mccs (show t.butTime = s.butTime from h) : _)
theorem TimeFrame.dram {s t : State} (h : TimeFrame s t) : t.dram = s.dram :=
  (congrArg State.dram (show t.butTime = s.butTime from h) : _)
theorem TimeFrame.dramClean {s t : State} (h : TimeFrame s t) : t.dramClean = s.dramClean :=
  (congrArg State.dramClean (show t.butTime = s.butTime from h) : _)
theorem TimeFrame.retireQ {s t : State} (h : TimeFrame s t) : t.retireQ = s.retireQ :=
  (congrArg State.retireQ (show t.butTime = s.butTime from h) : _)
theorem TimeFrame.job {s t : State} (h : TimeFrame s t) : t.job = s.job :=
  (congrArg State.job (show t.butTime = s.butTime from h) : _)
theorem TimeFrame.reqs {s t : State} (h : TimeFrame s t) : t.reqs = s.reqs :=
  (congrArg State.reqs (show t.butTime = s.butTime from h) : _)
theorem TimeFrame.msgs {s t : State} (h : TimeFrame s t) : t.msgs = s.msgs :=
  (congrArg State.msgs (show t.butTime = s.butTime from h) : _)
theorem TimeFrame.tagCtr {s t : State} (h : TimeFrame s t) : t.tagCtr = s.tagCtr :=
  (congrArg State.tagCtr (show t.butTime = s.butTime from h) : _)
theorem TimeFrame.attns {s t : State} (h : TimeFrame s t) : t.attns = s.attns :=
  (congrArg State.attns (show t.butTime = s.butTime from h) : _)
theorem TimeFrame.gens {s t : State} (h : TimeFrame s t) : t.gens = s.gens :=
  (congrArg State.gens (show t.butTime = s.butTime from h) : _)
theorem TimeFrame.pages {s t : State} (h : TimeFrame s t) : t.pages = s.pages :=
  (congrArg State.pages (show t.butTime = s.butTime from h) : _)
theorem TimeFrame.chunks {s t : State} (h : TimeFrame s t) : t.chunks = s.chunks :=
  (congrArg State.chunks (show t.butTime = s.butTime from h) : _)
theorem TimeFrame.oldDirs {s t : State} (h : TimeFrame s t) : t.oldDirs = s.oldDirs :=
  (congrArg State.oldDirs (show t.butTime = s.butTime from h) : _)
theorem TimeFrame.heldQ {s t : State} (h : TimeFrame s t) : t.heldQ = s.heldQ :=
  (congrArg State.heldQ (show t.butTime = s.butTime from h) : _)
theorem TimeFrame.closes {s t : State} (h : TimeFrame s t) : t.closes = s.closes :=
  (congrArg State.closes (show t.butTime = s.butTime from h) : _)
theorem TimeFrame.binds {s t : State} (h : TimeFrame s t) : t.binds = s.binds :=
  (congrArg State.binds (show t.butTime = s.butTime from h) : _)
theorem TimeFrame.ports {s t : State} (h : TimeFrame s t) : t.ports = s.ports :=
  (congrArg State.ports (show t.butTime = s.butTime from h) : _)
theorem TimeFrame.stepPend {s t : State} (h : TimeFrame s t) : t.stepPend = s.stepPend :=
  (congrArg State.stepPend (show t.butTime = s.butTime from h) : _)
theorem TimeFrame.ptp {s t : State} (h : TimeFrame s t) : t.ptp = s.ptp :=
  (congrArg State.ptp (show t.butTime = s.butTime from h) : _)
theorem TimeFrame.regions {s t : State} (h : TimeFrame s t) : t.regions = s.regions :=
  (congrArg State.regions (show t.butTime = s.butTime from h) : _)
theorem TimeFrame.reqOrder {s t : State} (h : TimeFrame s t) : t.reqOrder = s.reqOrder :=
  (congrArg State.reqOrder (show t.butTime = s.butTime from h) : _)
theorem TimeFrame.ctl {s t : State} (h : TimeFrame s t) : t.ctl = s.ctl :=
  (congrArg State.ctl (show t.butTime = s.butTime from h) : _)
theorem TimeFrame.mtr {s t : State} (h : TimeFrame s t) : t.mtr = s.mtr :=
  (congrArg State.mtr (show t.butTime = s.butTime from h) : _)
theorem TimeFrame.rcp {s t : State} (h : TimeFrame s t) : t.rcp = s.rcp :=
  (congrArg State.rcp (show t.butTime = s.butTime from h) : _)
theorem TimeFrame.sealLoop {s t : State} (h : TimeFrame s t) : t.sealLoop = s.sealLoop :=
  (congrArg State.sealLoop (show t.butTime = s.butTime from h) : _)
theorem TimeFrame.conns {s t : State} (h : TimeFrame s t) : t.conns = s.conns :=
  (congrArg State.conns (show t.butTime = s.butTime from h) : _)
theorem TimeFrame.contents {s t : State} (h : TimeFrame s t) : t.contents = s.contents :=
  (congrArg State.contents (show t.butTime = s.butTime from h) : _)
theorem TimeFrame.replies {s t : State} (h : TimeFrame s t) : t.replies = s.replies :=
  (congrArg State.replies (show t.butTime = s.butTime from h) : _)
theorem TimeFrame.streamed {s t : State} (h : TimeFrame s t) : t.streamed = s.streamed :=
  (congrArg State.streamed (show t.butTime = s.butTime from h) : _)
theorem TimeFrame.bc {s t : State} (h : TimeFrame s t) : t.bc = s.bc :=
  (congrArg State.bc (show t.butTime = s.butTime from h) : _)
theorem TimeFrame.bcast {s t : State} (h : TimeFrame s t) : t.bcast = s.bcast :=
  (congrArg State.bcast (show t.butTime = s.butTime from h) : _)
theorem TimeFrame.staging {s t : State} (h : TimeFrame s t) : t.staging = s.staging :=
  (congrArg State.staging (show t.butTime = s.butTime from h) : _)
theorem TimeFrame.nv {s t : State} (h : TimeFrame s t) : t.nv = s.nv :=
  (congrArg State.nv (show t.butTime = s.butTime from h) : _)
theorem TimeFrame.boot {s t : State} (h : TimeFrame s t) : t.boot = s.boot :=
  (congrArg State.boot (show t.butTime = s.butTime from h) : _)
theorem TimeFrame.pair {s t : State} (h : TimeFrame s t) : t.pair = s.pair :=
  (congrArg State.pair (show t.butTime = s.butTime from h) : _)
theorem TimeFrame.i3c {s t : State} (h : TimeFrame s t) : t.i3c = s.i3c :=
  (congrArg State.i3c (show t.butTime = s.butTime from h) : _)
theorem TimeFrame.accesses {s t : State} (h : TimeFrame s t) : t.accesses = s.accesses :=
  (congrArg State.accesses (show t.butTime = s.butTime from h) : _)
theorem TimeFrame.rsps {s t : State} (h : TimeFrame s t) : t.rsps = s.rsps :=
  (congrArg State.rsps (show t.butTime = s.butTime from h) : _)
theorem TimeFrame.svc {s t : State} (h : TimeFrame s t) : t.svc = s.svc :=
  (congrArg State.svc (show t.butTime = s.butTime from h) : _)
theorem TimeFrame.svcWait {s t : State} (h : TimeFrame s t) : t.svcWait = s.svcWait :=
  (congrArg State.svcWait (show t.butTime = s.butTime from h) : _)

end Sys2Proof.Machine
end

