-- ==== Sys2Proof/Laws/State.lean ====
section
/-! SUPPORT. For each update of the state and each field it leaves alone: the field is unchanged. -/

namespace Sys2Proof.Machine

variable (s : State)

@[simp] theorem State.setReg_pending (pg off v : Nat) : (s.setReg pg off v).pending = s.pending := rfl
@[simp] theorem State.setReg_outbox (pg off v : Nat) : (s.setReg pg off v).outbox = s.outbox := rfl
@[simp] theorem State.setReg_freeCtr (pg off v : Nat) : (s.setReg pg off v).freeCtr = s.freeCtr := rfl
@[simp] theorem State.setReg_time (pg off v : Nat) : (s.setReg pg off v).time = s.time := rfl
@[simp] theorem State.setReg_facets (pg off v : Nat) : (s.setReg pg off v).facets = s.facets := rfl
@[simp] theorem State.setReg_staged (pg off v : Nat) : (s.setReg pg off v).staged = s.staged := rfl
@[simp] theorem State.setReg_blks (pg off v : Nat) : (s.setReg pg off v).blks = s.blks := rfl
@[simp] theorem State.setReg_hdrs (pg off v : Nat) : (s.setReg pg off v).hdrs = s.hdrs := rfl
@[simp] theorem State.setReg_latches (pg off v : Nat) : (s.setReg pg off v).latches = s.latches := rfl
@[simp] theorem State.setReg_log (pg off v : Nat) : (s.setReg pg off v).log = s.log := rfl
@[simp] theorem State.setReg_logSeq (pg off v : Nat) : (s.setReg pg off v).logSeq = s.logSeq := rfl
@[simp] theorem State.setReg_colls (pg off v : Nat) : (s.setReg pg off v).colls = s.colls := rfl
@[simp] theorem State.setReg_loupes (pg off v : Nat) : (s.setReg pg off v).loupes = s.loupes := rfl
@[simp] theorem State.setReg_origins (pg off v : Nat) : (s.setReg pg off v).origins = s.origins := rfl
@[simp] theorem State.setReg_tiles (pg off v : Nat) : (s.setReg pg off v).tiles = s.tiles := rfl
@[simp] theorem State.setReg_sync (pg off v : Nat) : (s.setReg pg off v).sync = s.sync := rfl
@[simp] theorem State.setReg_keys (pg off v : Nat) : (s.setReg pg off v).keys = s.keys := rfl
@[simp] theorem State.setReg_spad (pg off v : Nat) : (s.setReg pg off v).spad = s.spad := rfl
@[simp] theorem State.setReg_spadPoison (pg off v : Nat) : (s.setReg pg off v).spadPoison = s.spadPoison := rfl
@[simp] theorem State.setReg_imem (pg off v : Nat) : (s.setReg pg off v).imem = s.imem := rfl
@[simp] theorem State.setReg_telActive (pg off v : Nat) : (s.setReg pg off v).telActive = s.telActive := rfl
@[simp] theorem State.setReg_telFrozen (pg off v : Nat) : (s.setReg pg off v).telFrozen = s.telFrozen := rfl
@[simp] theorem State.setReg_telSwap (pg off v : Nat) : (s.setReg pg off v).telSwap = s.telSwap := rfl
@[simp] theorem State.setReg_rtrTbl (pg off v : Nat) : (s.setReg pg off v).rtrTbl = s.rtrTbl := rfl
@[simp] theorem State.setReg_slotCtr (pg off v : Nat) : (s.setReg pg off v).slotCtr = s.slotCtr := rfl
@[simp] theorem State.setReg_inbuf (pg off v : Nat) : (s.setReg pg off v).inbuf = s.inbuf := rfl
@[simp] theorem State.setReg_order (pg off v : Nat) : (s.setReg pg off v).order = s.order := rfl
@[simp] theorem State.setReg_links (pg off v : Nat) : (s.setReg pg off v).links = s.links := rfl
@[simp] theorem State.setReg_maps (pg off v : Nat) : (s.setReg pg off v).maps = s.maps := rfl
@[simp] theorem State.setReg_chanMaps (pg off v : Nat) : (s.setReg pg off v).chanMaps = s.chanMaps := rfl
@[simp] theorem State.setReg_packets (pg off v : Nat) : (s.setReg pg off v).packets = s.packets := rfl
@[simp] theorem State.setReg_rr (pg off v : Nat) : (s.setReg pg off v).rr = s.rr := rfl
@[simp] theorem State.setReg_verdicts (pg off v : Nat) : (s.setReg pg off v).verdicts = s.verdicts := rfl
@[simp] theorem State.setReg_delivered (pg off v : Nat) : (s.setReg pg off v).delivered = s.delivered := rfl
@[simp] theorem State.setReg_subs (pg off v : Nat) : (s.setReg pg off v).subs = s.subs := rfl
@[simp] theorem State.setReg_udp (pg off v : Nat) : (s.setReg pg off v).udp = s.udp := rfl
@[simp] theorem State.setReg_mccs (pg off v : Nat) : (s.setReg pg off v).mccs = s.mccs := rfl
@[simp] theorem State.setReg_dram (pg off v : Nat) : (s.setReg pg off v).dram = s.dram := rfl
@[simp] theorem State.setReg_dramClean (pg off v : Nat) : (s.setReg pg off v).dramClean = s.dramClean := rfl
@[simp] theorem State.setReg_retireQ (pg off v : Nat) : (s.setReg pg off v).retireQ = s.retireQ := rfl
@[simp] theorem State.setReg_job (pg off v : Nat) : (s.setReg pg off v).job = s.job := rfl
@[simp] theorem State.setReg_reqs (pg off v : Nat) : (s.setReg pg off v).reqs = s.reqs := rfl
@[simp] theorem State.setReg_msgs (pg off v : Nat) : (s.setReg pg off v).msgs = s.msgs := rfl
@[simp] theorem State.setReg_tagCtr (pg off v : Nat) : (s.setReg pg off v).tagCtr = s.tagCtr := rfl
@[simp] theorem State.setReg_attns (pg off v : Nat) : (s.setReg pg off v).attns = s.attns := rfl
@[simp] theorem State.setReg_gens (pg off v : Nat) : (s.setReg pg off v).gens = s.gens := rfl
@[simp] theorem State.setReg_pages (pg off v : Nat) : (s.setReg pg off v).pages = s.pages := rfl
@[simp] theorem State.setReg_chunks (pg off v : Nat) : (s.setReg pg off v).chunks = s.chunks := rfl
@[simp] theorem State.setReg_oldDirs (pg off v : Nat) : (s.setReg pg off v).oldDirs = s.oldDirs := rfl
@[simp] theorem State.setReg_heldQ (pg off v : Nat) : (s.setReg pg off v).heldQ = s.heldQ := rfl
@[simp] theorem State.setReg_closes (pg off v : Nat) : (s.setReg pg off v).closes = s.closes := rfl
@[simp] theorem State.setReg_binds (pg off v : Nat) : (s.setReg pg off v).binds = s.binds := rfl
@[simp] theorem State.setReg_ports (pg off v : Nat) : (s.setReg pg off v).ports = s.ports := rfl
@[simp] theorem State.setReg_stepPend (pg off v : Nat) : (s.setReg pg off v).stepPend = s.stepPend := rfl
@[simp] theorem State.setReg_ptp (pg off v : Nat) : (s.setReg pg off v).ptp = s.ptp := rfl
@[simp] theorem State.setReg_regions (pg off v : Nat) : (s.setReg pg off v).regions = s.regions := rfl
@[simp] theorem State.setReg_reqOrder (pg off v : Nat) : (s.setReg pg off v).reqOrder = s.reqOrder := rfl
@[simp] theorem State.setReg_ctl (pg off v : Nat) : (s.setReg pg off v).ctl = s.ctl := rfl
@[simp] theorem State.setReg_mtr (pg off v : Nat) : (s.setReg pg off v).mtr = s.mtr := rfl
@[simp] theorem State.setReg_rcp (pg off v : Nat) : (s.setReg pg off v).rcp = s.rcp := rfl
@[simp] theorem State.setReg_sealLoop (pg off v : Nat) : (s.setReg pg off v).sealLoop = s.sealLoop := rfl
@[simp] theorem State.setReg_conns (pg off v : Nat) : (s.setReg pg off v).conns = s.conns := rfl
@[simp] theorem State.setReg_contents (pg off v : Nat) : (s.setReg pg off v).contents = s.contents := rfl
@[simp] theorem State.setReg_replies (pg off v : Nat) : (s.setReg pg off v).replies = s.replies := rfl
@[simp] theorem State.setReg_streamed (pg off v : Nat) : (s.setReg pg off v).streamed = s.streamed := rfl
@[simp] theorem State.setReg_bc (pg off v : Nat) : (s.setReg pg off v).bc = s.bc := rfl
@[simp] theorem State.setReg_bcast (pg off v : Nat) : (s.setReg pg off v).bcast = s.bcast := rfl
@[simp] theorem State.setReg_staging (pg off v : Nat) : (s.setReg pg off v).staging = s.staging := rfl
@[simp] theorem State.setReg_nv (pg off v : Nat) : (s.setReg pg off v).nv = s.nv := rfl
@[simp] theorem State.setReg_boot (pg off v : Nat) : (s.setReg pg off v).boot = s.boot := rfl
@[simp] theorem State.setReg_pair (pg off v : Nat) : (s.setReg pg off v).pair = s.pair := rfl
@[simp] theorem State.setReg_i3c (pg off v : Nat) : (s.setReg pg off v).i3c = s.i3c := rfl
@[simp] theorem State.setReg_accesses (pg off v : Nat) : (s.setReg pg off v).accesses = s.accesses := rfl
@[simp] theorem State.setReg_rsps (pg off v : Nat) : (s.setReg pg off v).rsps = s.rsps := rfl
@[simp] theorem State.setReg_svc (pg off v : Nat) : (s.setReg pg off v).svc = s.svc := rfl
@[simp] theorem State.setReg_svcWait (pg off v : Nat) : (s.setReg pg off v).svcWait = s.svcWait := rfl

@[simp] theorem State.setBlk_pending (b : Nat) (c : BlkCtl) : (s.setBlk b c).pending = s.pending := rfl
@[simp] theorem State.setBlk_outbox (b : Nat) (c : BlkCtl) : (s.setBlk b c).outbox = s.outbox := rfl
@[simp] theorem State.setBlk_freeCtr (b : Nat) (c : BlkCtl) : (s.setBlk b c).freeCtr = s.freeCtr := rfl
@[simp] theorem State.setBlk_time (b : Nat) (c : BlkCtl) : (s.setBlk b c).time = s.time := rfl
@[simp] theorem State.setBlk_facets (b : Nat) (c : BlkCtl) : (s.setBlk b c).facets = s.facets := rfl
@[simp] theorem State.setBlk_regs (b : Nat) (c : BlkCtl) : (s.setBlk b c).regs = s.regs := rfl
@[simp] theorem State.setBlk_staged (b : Nat) (c : BlkCtl) : (s.setBlk b c).staged = s.staged := rfl
@[simp] theorem State.setBlk_hdrs (b : Nat) (c : BlkCtl) : (s.setBlk b c).hdrs = s.hdrs := rfl
@[simp] theorem State.setBlk_latches (b : Nat) (c : BlkCtl) : (s.setBlk b c).latches = s.latches := rfl
@[simp] theorem State.setBlk_log (b : Nat) (c : BlkCtl) : (s.setBlk b c).log = s.log := rfl
@[simp] theorem State.setBlk_logSeq (b : Nat) (c : BlkCtl) : (s.setBlk b c).logSeq = s.logSeq := rfl
@[simp] theorem State.setBlk_colls (b : Nat) (c : BlkCtl) : (s.setBlk b c).colls = s.colls := rfl
@[simp] theorem State.setBlk_loupes (b : Nat) (c : BlkCtl) : (s.setBlk b c).loupes = s.loupes := rfl
@[simp] theorem State.setBlk_origins (b : Nat) (c : BlkCtl) : (s.setBlk b c).origins = s.origins := rfl
@[simp] theorem State.setBlk_tiles (b : Nat) (c : BlkCtl) : (s.setBlk b c).tiles = s.tiles := rfl
@[simp] theorem State.setBlk_sync (b : Nat) (c : BlkCtl) : (s.setBlk b c).sync = s.sync := rfl
@[simp] theorem State.setBlk_keys (b : Nat) (c : BlkCtl) : (s.setBlk b c).keys = s.keys := rfl
@[simp] theorem State.setBlk_spad (b : Nat) (c : BlkCtl) : (s.setBlk b c).spad = s.spad := rfl
@[simp] theorem State.setBlk_spadPoison (b : Nat) (c : BlkCtl) : (s.setBlk b c).spadPoison = s.spadPoison := rfl
@[simp] theorem State.setBlk_imem (b : Nat) (c : BlkCtl) : (s.setBlk b c).imem = s.imem := rfl
@[simp] theorem State.setBlk_telActive (b : Nat) (c : BlkCtl) : (s.setBlk b c).telActive = s.telActive := rfl
@[simp] theorem State.setBlk_telFrozen (b : Nat) (c : BlkCtl) : (s.setBlk b c).telFrozen = s.telFrozen := rfl
@[simp] theorem State.setBlk_telSwap (b : Nat) (c : BlkCtl) : (s.setBlk b c).telSwap = s.telSwap := rfl
@[simp] theorem State.setBlk_rtrTbl (b : Nat) (c : BlkCtl) : (s.setBlk b c).rtrTbl = s.rtrTbl := rfl
@[simp] theorem State.setBlk_slotCtr (b : Nat) (c : BlkCtl) : (s.setBlk b c).slotCtr = s.slotCtr := rfl
@[simp] theorem State.setBlk_inbuf (b : Nat) (c : BlkCtl) : (s.setBlk b c).inbuf = s.inbuf := rfl
@[simp] theorem State.setBlk_order (b : Nat) (c : BlkCtl) : (s.setBlk b c).order = s.order := rfl
@[simp] theorem State.setBlk_links (b : Nat) (c : BlkCtl) : (s.setBlk b c).links = s.links := rfl
@[simp] theorem State.setBlk_maps (b : Nat) (c : BlkCtl) : (s.setBlk b c).maps = s.maps := rfl
@[simp] theorem State.setBlk_chanMaps (b : Nat) (c : BlkCtl) : (s.setBlk b c).chanMaps = s.chanMaps := rfl
@[simp] theorem State.setBlk_packets (b : Nat) (c : BlkCtl) : (s.setBlk b c).packets = s.packets := rfl
@[simp] theorem State.setBlk_rr (b : Nat) (c : BlkCtl) : (s.setBlk b c).rr = s.rr := rfl
@[simp] theorem State.setBlk_verdicts (b : Nat) (c : BlkCtl) : (s.setBlk b c).verdicts = s.verdicts := rfl
@[simp] theorem State.setBlk_delivered (b : Nat) (c : BlkCtl) : (s.setBlk b c).delivered = s.delivered := rfl
@[simp] theorem State.setBlk_subs (b : Nat) (c : BlkCtl) : (s.setBlk b c).subs = s.subs := rfl
@[simp] theorem State.setBlk_udp (b : Nat) (c : BlkCtl) : (s.setBlk b c).udp = s.udp := rfl
@[simp] theorem State.setBlk_mccs (b : Nat) (c : BlkCtl) : (s.setBlk b c).mccs = s.mccs := rfl
@[simp] theorem State.setBlk_dram (b : Nat) (c : BlkCtl) : (s.setBlk b c).dram = s.dram := rfl
@[simp] theorem State.setBlk_dramClean (b : Nat) (c : BlkCtl) : (s.setBlk b c).dramClean = s.dramClean := rfl
@[simp] theorem State.setBlk_retireQ (b : Nat) (c : BlkCtl) : (s.setBlk b c).retireQ = s.retireQ := rfl
@[simp] theorem State.setBlk_job (b : Nat) (c : BlkCtl) : (s.setBlk b c).job = s.job := rfl
@[simp] theorem State.setBlk_reqs (b : Nat) (c : BlkCtl) : (s.setBlk b c).reqs = s.reqs := rfl
@[simp] theorem State.setBlk_msgs (b : Nat) (c : BlkCtl) : (s.setBlk b c).msgs = s.msgs := rfl
@[simp] theorem State.setBlk_tagCtr (b : Nat) (c : BlkCtl) : (s.setBlk b c).tagCtr = s.tagCtr := rfl
@[simp] theorem State.setBlk_attns (b : Nat) (c : BlkCtl) : (s.setBlk b c).attns = s.attns := rfl
@[simp] theorem State.setBlk_gens (b : Nat) (c : BlkCtl) : (s.setBlk b c).gens = s.gens := rfl
@[simp] theorem State.setBlk_pages (b : Nat) (c : BlkCtl) : (s.setBlk b c).pages = s.pages := rfl
@[simp] theorem State.setBlk_chunks (b : Nat) (c : BlkCtl) : (s.setBlk b c).chunks = s.chunks := rfl
@[simp] theorem State.setBlk_oldDirs (b : Nat) (c : BlkCtl) : (s.setBlk b c).oldDirs = s.oldDirs := rfl
@[simp] theorem State.setBlk_heldQ (b : Nat) (c : BlkCtl) : (s.setBlk b c).heldQ = s.heldQ := rfl
@[simp] theorem State.setBlk_closes (b : Nat) (c : BlkCtl) : (s.setBlk b c).closes = s.closes := rfl
@[simp] theorem State.setBlk_binds (b : Nat) (c : BlkCtl) : (s.setBlk b c).binds = s.binds := rfl
@[simp] theorem State.setBlk_ports (b : Nat) (c : BlkCtl) : (s.setBlk b c).ports = s.ports := rfl
@[simp] theorem State.setBlk_stepPend (b : Nat) (c : BlkCtl) : (s.setBlk b c).stepPend = s.stepPend := rfl
@[simp] theorem State.setBlk_ptp (b : Nat) (c : BlkCtl) : (s.setBlk b c).ptp = s.ptp := rfl
@[simp] theorem State.setBlk_regions (b : Nat) (c : BlkCtl) : (s.setBlk b c).regions = s.regions := rfl
@[simp] theorem State.setBlk_reqOrder (b : Nat) (c : BlkCtl) : (s.setBlk b c).reqOrder = s.reqOrder := rfl
@[simp] theorem State.setBlk_ctl (b : Nat) (c : BlkCtl) : (s.setBlk b c).ctl = s.ctl := rfl
@[simp] theorem State.setBlk_mtr (b : Nat) (c : BlkCtl) : (s.setBlk b c).mtr = s.mtr := rfl
@[simp] theorem State.setBlk_rcp (b : Nat) (c : BlkCtl) : (s.setBlk b c).rcp = s.rcp := rfl
@[simp] theorem State.setBlk_sealLoop (b : Nat) (c : BlkCtl) : (s.setBlk b c).sealLoop = s.sealLoop := rfl
@[simp] theorem State.setBlk_conns (b : Nat) (c : BlkCtl) : (s.setBlk b c).conns = s.conns := rfl
@[simp] theorem State.setBlk_contents (b : Nat) (c : BlkCtl) : (s.setBlk b c).contents = s.contents := rfl
@[simp] theorem State.setBlk_replies (b : Nat) (c : BlkCtl) : (s.setBlk b c).replies = s.replies := rfl
@[simp] theorem State.setBlk_streamed (b : Nat) (c : BlkCtl) : (s.setBlk b c).streamed = s.streamed := rfl
@[simp] theorem State.setBlk_bc (b : Nat) (c : BlkCtl) : (s.setBlk b c).bc = s.bc := rfl
@[simp] theorem State.setBlk_bcast (b : Nat) (c : BlkCtl) : (s.setBlk b c).bcast = s.bcast := rfl
@[simp] theorem State.setBlk_staging (b : Nat) (c : BlkCtl) : (s.setBlk b c).staging = s.staging := rfl
@[simp] theorem State.setBlk_nv (b : Nat) (c : BlkCtl) : (s.setBlk b c).nv = s.nv := rfl
@[simp] theorem State.setBlk_boot (b : Nat) (c : BlkCtl) : (s.setBlk b c).boot = s.boot := rfl
@[simp] theorem State.setBlk_pair (b : Nat) (c : BlkCtl) : (s.setBlk b c).pair = s.pair := rfl
@[simp] theorem State.setBlk_i3c (b : Nat) (c : BlkCtl) : (s.setBlk b c).i3c = s.i3c := rfl
@[simp] theorem State.setBlk_accesses (b : Nat) (c : BlkCtl) : (s.setBlk b c).accesses = s.accesses := rfl
@[simp] theorem State.setBlk_rsps (b : Nat) (c : BlkCtl) : (s.setBlk b c).rsps = s.rsps := rfl
@[simp] theorem State.setBlk_svc (b : Nat) (c : BlkCtl) : (s.setBlk b c).svc = s.svc := rfl
@[simp] theorem State.setBlk_svcWait (b : Nat) (c : BlkCtl) : (s.setBlk b c).svcWait = s.svcWait := rfl

@[simp] theorem State.setHdr_pending (pg : Nat) (h : PageHdr) : (s.setHdr pg h).pending = s.pending := rfl
@[simp] theorem State.setHdr_outbox (pg : Nat) (h : PageHdr) : (s.setHdr pg h).outbox = s.outbox := rfl
@[simp] theorem State.setHdr_freeCtr (pg : Nat) (h : PageHdr) : (s.setHdr pg h).freeCtr = s.freeCtr := rfl
@[simp] theorem State.setHdr_time (pg : Nat) (h : PageHdr) : (s.setHdr pg h).time = s.time := rfl
@[simp] theorem State.setHdr_facets (pg : Nat) (h : PageHdr) : (s.setHdr pg h).facets = s.facets := rfl
@[simp] theorem State.setHdr_regs (pg : Nat) (h : PageHdr) : (s.setHdr pg h).regs = s.regs := rfl
@[simp] theorem State.setHdr_staged (pg : Nat) (h : PageHdr) : (s.setHdr pg h).staged = s.staged := rfl
@[simp] theorem State.setHdr_blks (pg : Nat) (h : PageHdr) : (s.setHdr pg h).blks = s.blks := rfl
@[simp] theorem State.setHdr_latches (pg : Nat) (h : PageHdr) : (s.setHdr pg h).latches = s.latches := rfl
@[simp] theorem State.setHdr_log (pg : Nat) (h : PageHdr) : (s.setHdr pg h).log = s.log := rfl
@[simp] theorem State.setHdr_logSeq (pg : Nat) (h : PageHdr) : (s.setHdr pg h).logSeq = s.logSeq := rfl
@[simp] theorem State.setHdr_colls (pg : Nat) (h : PageHdr) : (s.setHdr pg h).colls = s.colls := rfl
@[simp] theorem State.setHdr_loupes (pg : Nat) (h : PageHdr) : (s.setHdr pg h).loupes = s.loupes := rfl
@[simp] theorem State.setHdr_origins (pg : Nat) (h : PageHdr) : (s.setHdr pg h).origins = s.origins := rfl
@[simp] theorem State.setHdr_tiles (pg : Nat) (h : PageHdr) : (s.setHdr pg h).tiles = s.tiles := rfl
@[simp] theorem State.setHdr_sync (pg : Nat) (h : PageHdr) : (s.setHdr pg h).sync = s.sync := rfl
@[simp] theorem State.setHdr_keys (pg : Nat) (h : PageHdr) : (s.setHdr pg h).keys = s.keys := rfl
@[simp] theorem State.setHdr_spad (pg : Nat) (h : PageHdr) : (s.setHdr pg h).spad = s.spad := rfl
@[simp] theorem State.setHdr_spadPoison (pg : Nat) (h : PageHdr) : (s.setHdr pg h).spadPoison = s.spadPoison := rfl
@[simp] theorem State.setHdr_imem (pg : Nat) (h : PageHdr) : (s.setHdr pg h).imem = s.imem := rfl
@[simp] theorem State.setHdr_telActive (pg : Nat) (h : PageHdr) : (s.setHdr pg h).telActive = s.telActive := rfl
@[simp] theorem State.setHdr_telFrozen (pg : Nat) (h : PageHdr) : (s.setHdr pg h).telFrozen = s.telFrozen := rfl
@[simp] theorem State.setHdr_telSwap (pg : Nat) (h : PageHdr) : (s.setHdr pg h).telSwap = s.telSwap := rfl
@[simp] theorem State.setHdr_rtrTbl (pg : Nat) (h : PageHdr) : (s.setHdr pg h).rtrTbl = s.rtrTbl := rfl
@[simp] theorem State.setHdr_slotCtr (pg : Nat) (h : PageHdr) : (s.setHdr pg h).slotCtr = s.slotCtr := rfl
@[simp] theorem State.setHdr_inbuf (pg : Nat) (h : PageHdr) : (s.setHdr pg h).inbuf = s.inbuf := rfl
@[simp] theorem State.setHdr_order (pg : Nat) (h : PageHdr) : (s.setHdr pg h).order = s.order := rfl
@[simp] theorem State.setHdr_links (pg : Nat) (h : PageHdr) : (s.setHdr pg h).links = s.links := rfl
@[simp] theorem State.setHdr_maps (pg : Nat) (h : PageHdr) : (s.setHdr pg h).maps = s.maps := rfl
@[simp] theorem State.setHdr_chanMaps (pg : Nat) (h : PageHdr) : (s.setHdr pg h).chanMaps = s.chanMaps := rfl
@[simp] theorem State.setHdr_packets (pg : Nat) (h : PageHdr) : (s.setHdr pg h).packets = s.packets := rfl
@[simp] theorem State.setHdr_rr (pg : Nat) (h : PageHdr) : (s.setHdr pg h).rr = s.rr := rfl
@[simp] theorem State.setHdr_verdicts (pg : Nat) (h : PageHdr) : (s.setHdr pg h).verdicts = s.verdicts := rfl
@[simp] theorem State.setHdr_delivered (pg : Nat) (h : PageHdr) : (s.setHdr pg h).delivered = s.delivered := rfl
@[simp] theorem State.setHdr_subs (pg : Nat) (h : PageHdr) : (s.setHdr pg h).subs = s.subs := rfl
@[simp] theorem State.setHdr_udp (pg : Nat) (h : PageHdr) : (s.setHdr pg h).udp = s.udp := rfl
@[simp] theorem State.setHdr_mccs (pg : Nat) (h : PageHdr) : (s.setHdr pg h).mccs = s.mccs := rfl
@[simp] theorem State.setHdr_dram (pg : Nat) (h : PageHdr) : (s.setHdr pg h).dram = s.dram := rfl
@[simp] theorem State.setHdr_dramClean (pg : Nat) (h : PageHdr) : (s.setHdr pg h).dramClean = s.dramClean := rfl
@[simp] theorem State.setHdr_retireQ (pg : Nat) (h : PageHdr) : (s.setHdr pg h).retireQ = s.retireQ := rfl
@[simp] theorem State.setHdr_job (pg : Nat) (h : PageHdr) : (s.setHdr pg h).job = s.job := rfl
@[simp] theorem State.setHdr_reqs (pg : Nat) (h : PageHdr) : (s.setHdr pg h).reqs = s.reqs := rfl
@[simp] theorem State.setHdr_msgs (pg : Nat) (h : PageHdr) : (s.setHdr pg h).msgs = s.msgs := rfl
@[simp] theorem State.setHdr_tagCtr (pg : Nat) (h : PageHdr) : (s.setHdr pg h).tagCtr = s.tagCtr := rfl
@[simp] theorem State.setHdr_attns (pg : Nat) (h : PageHdr) : (s.setHdr pg h).attns = s.attns := rfl
@[simp] theorem State.setHdr_gens (pg : Nat) (h : PageHdr) : (s.setHdr pg h).gens = s.gens := rfl
@[simp] theorem State.setHdr_pages (pg : Nat) (h : PageHdr) : (s.setHdr pg h).pages = s.pages := rfl
@[simp] theorem State.setHdr_chunks (pg : Nat) (h : PageHdr) : (s.setHdr pg h).chunks = s.chunks := rfl
@[simp] theorem State.setHdr_oldDirs (pg : Nat) (h : PageHdr) : (s.setHdr pg h).oldDirs = s.oldDirs := rfl
@[simp] theorem State.setHdr_heldQ (pg : Nat) (h : PageHdr) : (s.setHdr pg h).heldQ = s.heldQ := rfl
@[simp] theorem State.setHdr_closes (pg : Nat) (h : PageHdr) : (s.setHdr pg h).closes = s.closes := rfl
@[simp] theorem State.setHdr_binds (pg : Nat) (h : PageHdr) : (s.setHdr pg h).binds = s.binds := rfl
@[simp] theorem State.setHdr_ports (pg : Nat) (h : PageHdr) : (s.setHdr pg h).ports = s.ports := rfl
@[simp] theorem State.setHdr_stepPend (pg : Nat) (h : PageHdr) : (s.setHdr pg h).stepPend = s.stepPend := rfl
@[simp] theorem State.setHdr_ptp (pg : Nat) (h : PageHdr) : (s.setHdr pg h).ptp = s.ptp := rfl
@[simp] theorem State.setHdr_regions (pg : Nat) (h : PageHdr) : (s.setHdr pg h).regions = s.regions := rfl
@[simp] theorem State.setHdr_reqOrder (pg : Nat) (h : PageHdr) : (s.setHdr pg h).reqOrder = s.reqOrder := rfl
@[simp] theorem State.setHdr_ctl (pg : Nat) (h : PageHdr) : (s.setHdr pg h).ctl = s.ctl := rfl
@[simp] theorem State.setHdr_mtr (pg : Nat) (h : PageHdr) : (s.setHdr pg h).mtr = s.mtr := rfl
@[simp] theorem State.setHdr_rcp (pg : Nat) (h : PageHdr) : (s.setHdr pg h).rcp = s.rcp := rfl
@[simp] theorem State.setHdr_sealLoop (pg : Nat) (h : PageHdr) : (s.setHdr pg h).sealLoop = s.sealLoop := rfl
@[simp] theorem State.setHdr_conns (pg : Nat) (h : PageHdr) : (s.setHdr pg h).conns = s.conns := rfl
@[simp] theorem State.setHdr_contents (pg : Nat) (h : PageHdr) : (s.setHdr pg h).contents = s.contents := rfl
@[simp] theorem State.setHdr_replies (pg : Nat) (h : PageHdr) : (s.setHdr pg h).replies = s.replies := rfl
@[simp] theorem State.setHdr_streamed (pg : Nat) (h : PageHdr) : (s.setHdr pg h).streamed = s.streamed := rfl
@[simp] theorem State.setHdr_bc (pg : Nat) (h : PageHdr) : (s.setHdr pg h).bc = s.bc := rfl
@[simp] theorem State.setHdr_bcast (pg : Nat) (h : PageHdr) : (s.setHdr pg h).bcast = s.bcast := rfl
@[simp] theorem State.setHdr_staging (pg : Nat) (h : PageHdr) : (s.setHdr pg h).staging = s.staging := rfl
@[simp] theorem State.setHdr_nv (pg : Nat) (h : PageHdr) : (s.setHdr pg h).nv = s.nv := rfl
@[simp] theorem State.setHdr_boot (pg : Nat) (h : PageHdr) : (s.setHdr pg h).boot = s.boot := rfl
@[simp] theorem State.setHdr_pair (pg : Nat) (h : PageHdr) : (s.setHdr pg h).pair = s.pair := rfl
@[simp] theorem State.setHdr_i3c (pg : Nat) (h : PageHdr) : (s.setHdr pg h).i3c = s.i3c := rfl
@[simp] theorem State.setHdr_accesses (pg : Nat) (h : PageHdr) : (s.setHdr pg h).accesses = s.accesses := rfl
@[simp] theorem State.setHdr_rsps (pg : Nat) (h : PageHdr) : (s.setHdr pg h).rsps = s.rsps := rfl
@[simp] theorem State.setHdr_svc (pg : Nat) (h : PageHdr) : (s.setHdr pg h).svc = s.svc := rfl
@[simp] theorem State.setHdr_svcWait (pg : Nat) (h : PageHdr) : (s.setHdr pg h).svcWait = s.svcWait := rfl

@[simp] theorem State.setFacet_pending (f : Nat) (c : FacetClk) : (s.setFacet f c).pending = s.pending := rfl
@[simp] theorem State.setFacet_outbox (f : Nat) (c : FacetClk) : (s.setFacet f c).outbox = s.outbox := rfl
@[simp] theorem State.setFacet_freeCtr (f : Nat) (c : FacetClk) : (s.setFacet f c).freeCtr = s.freeCtr := rfl
@[simp] theorem State.setFacet_time (f : Nat) (c : FacetClk) : (s.setFacet f c).time = s.time := rfl
@[simp] theorem State.setFacet_regs (f : Nat) (c : FacetClk) : (s.setFacet f c).regs = s.regs := rfl
@[simp] theorem State.setFacet_staged (f : Nat) (c : FacetClk) : (s.setFacet f c).staged = s.staged := rfl
@[simp] theorem State.setFacet_blks (f : Nat) (c : FacetClk) : (s.setFacet f c).blks = s.blks := rfl
@[simp] theorem State.setFacet_hdrs (f : Nat) (c : FacetClk) : (s.setFacet f c).hdrs = s.hdrs := rfl
@[simp] theorem State.setFacet_latches (f : Nat) (c : FacetClk) : (s.setFacet f c).latches = s.latches := rfl
@[simp] theorem State.setFacet_log (f : Nat) (c : FacetClk) : (s.setFacet f c).log = s.log := rfl
@[simp] theorem State.setFacet_logSeq (f : Nat) (c : FacetClk) : (s.setFacet f c).logSeq = s.logSeq := rfl
@[simp] theorem State.setFacet_colls (f : Nat) (c : FacetClk) : (s.setFacet f c).colls = s.colls := rfl
@[simp] theorem State.setFacet_loupes (f : Nat) (c : FacetClk) : (s.setFacet f c).loupes = s.loupes := rfl
@[simp] theorem State.setFacet_origins (f : Nat) (c : FacetClk) : (s.setFacet f c).origins = s.origins := rfl
@[simp] theorem State.setFacet_tiles (f : Nat) (c : FacetClk) : (s.setFacet f c).tiles = s.tiles := rfl
@[simp] theorem State.setFacet_sync (f : Nat) (c : FacetClk) : (s.setFacet f c).sync = s.sync := rfl
@[simp] theorem State.setFacet_keys (f : Nat) (c : FacetClk) : (s.setFacet f c).keys = s.keys := rfl
@[simp] theorem State.setFacet_spad (f : Nat) (c : FacetClk) : (s.setFacet f c).spad = s.spad := rfl
@[simp] theorem State.setFacet_spadPoison (f : Nat) (c : FacetClk) : (s.setFacet f c).spadPoison = s.spadPoison := rfl
@[simp] theorem State.setFacet_imem (f : Nat) (c : FacetClk) : (s.setFacet f c).imem = s.imem := rfl
@[simp] theorem State.setFacet_telActive (f : Nat) (c : FacetClk) : (s.setFacet f c).telActive = s.telActive := rfl
@[simp] theorem State.setFacet_telFrozen (f : Nat) (c : FacetClk) : (s.setFacet f c).telFrozen = s.telFrozen := rfl
@[simp] theorem State.setFacet_telSwap (f : Nat) (c : FacetClk) : (s.setFacet f c).telSwap = s.telSwap := rfl
@[simp] theorem State.setFacet_rtrTbl (f : Nat) (c : FacetClk) : (s.setFacet f c).rtrTbl = s.rtrTbl := rfl
@[simp] theorem State.setFacet_slotCtr (f : Nat) (c : FacetClk) : (s.setFacet f c).slotCtr = s.slotCtr := rfl
@[simp] theorem State.setFacet_inbuf (f : Nat) (c : FacetClk) : (s.setFacet f c).inbuf = s.inbuf := rfl
@[simp] theorem State.setFacet_order (f : Nat) (c : FacetClk) : (s.setFacet f c).order = s.order := rfl
@[simp] theorem State.setFacet_links (f : Nat) (c : FacetClk) : (s.setFacet f c).links = s.links := rfl
@[simp] theorem State.setFacet_maps (f : Nat) (c : FacetClk) : (s.setFacet f c).maps = s.maps := rfl
@[simp] theorem State.setFacet_chanMaps (f : Nat) (c : FacetClk) : (s.setFacet f c).chanMaps = s.chanMaps := rfl
@[simp] theorem State.setFacet_packets (f : Nat) (c : FacetClk) : (s.setFacet f c).packets = s.packets := rfl
@[simp] theorem State.setFacet_rr (f : Nat) (c : FacetClk) : (s.setFacet f c).rr = s.rr := rfl
@[simp] theorem State.setFacet_verdicts (f : Nat) (c : FacetClk) : (s.setFacet f c).verdicts = s.verdicts := rfl
@[simp] theorem State.setFacet_delivered (f : Nat) (c : FacetClk) : (s.setFacet f c).delivered = s.delivered := rfl
@[simp] theorem State.setFacet_subs (f : Nat) (c : FacetClk) : (s.setFacet f c).subs = s.subs := rfl
@[simp] theorem State.setFacet_udp (f : Nat) (c : FacetClk) : (s.setFacet f c).udp = s.udp := rfl
@[simp] theorem State.setFacet_mccs (f : Nat) (c : FacetClk) : (s.setFacet f c).mccs = s.mccs := rfl
@[simp] theorem State.setFacet_dram (f : Nat) (c : FacetClk) : (s.setFacet f c).dram = s.dram := rfl
@[simp] theorem State.setFacet_dramClean (f : Nat) (c : FacetClk) : (s.setFacet f c).dramClean = s.dramClean := rfl
@[simp] theorem State.setFacet_retireQ (f : Nat) (c : FacetClk) : (s.setFacet f c).retireQ = s.retireQ := rfl
@[simp] theorem State.setFacet_job (f : Nat) (c : FacetClk) : (s.setFacet f c).job = s.job := rfl
@[simp] theorem State.setFacet_reqs (f : Nat) (c : FacetClk) : (s.setFacet f c).reqs = s.reqs := rfl
@[simp] theorem State.setFacet_msgs (f : Nat) (c : FacetClk) : (s.setFacet f c).msgs = s.msgs := rfl
@[simp] theorem State.setFacet_tagCtr (f : Nat) (c : FacetClk) : (s.setFacet f c).tagCtr = s.tagCtr := rfl
@[simp] theorem State.setFacet_attns (f : Nat) (c : FacetClk) : (s.setFacet f c).attns = s.attns := rfl
@[simp] theorem State.setFacet_gens (f : Nat) (c : FacetClk) : (s.setFacet f c).gens = s.gens := rfl
@[simp] theorem State.setFacet_pages (f : Nat) (c : FacetClk) : (s.setFacet f c).pages = s.pages := rfl
@[simp] theorem State.setFacet_chunks (f : Nat) (c : FacetClk) : (s.setFacet f c).chunks = s.chunks := rfl
@[simp] theorem State.setFacet_oldDirs (f : Nat) (c : FacetClk) : (s.setFacet f c).oldDirs = s.oldDirs := rfl
@[simp] theorem State.setFacet_heldQ (f : Nat) (c : FacetClk) : (s.setFacet f c).heldQ = s.heldQ := rfl
@[simp] theorem State.setFacet_closes (f : Nat) (c : FacetClk) : (s.setFacet f c).closes = s.closes := rfl
@[simp] theorem State.setFacet_binds (f : Nat) (c : FacetClk) : (s.setFacet f c).binds = s.binds := rfl
@[simp] theorem State.setFacet_ports (f : Nat) (c : FacetClk) : (s.setFacet f c).ports = s.ports := rfl
@[simp] theorem State.setFacet_stepPend (f : Nat) (c : FacetClk) : (s.setFacet f c).stepPend = s.stepPend := rfl
@[simp] theorem State.setFacet_ptp (f : Nat) (c : FacetClk) : (s.setFacet f c).ptp = s.ptp := rfl
@[simp] theorem State.setFacet_regions (f : Nat) (c : FacetClk) : (s.setFacet f c).regions = s.regions := rfl
@[simp] theorem State.setFacet_reqOrder (f : Nat) (c : FacetClk) : (s.setFacet f c).reqOrder = s.reqOrder := rfl
@[simp] theorem State.setFacet_ctl (f : Nat) (c : FacetClk) : (s.setFacet f c).ctl = s.ctl := rfl
@[simp] theorem State.setFacet_mtr (f : Nat) (c : FacetClk) : (s.setFacet f c).mtr = s.mtr := rfl
@[simp] theorem State.setFacet_rcp (f : Nat) (c : FacetClk) : (s.setFacet f c).rcp = s.rcp := rfl
@[simp] theorem State.setFacet_sealLoop (f : Nat) (c : FacetClk) : (s.setFacet f c).sealLoop = s.sealLoop := rfl
@[simp] theorem State.setFacet_conns (f : Nat) (c : FacetClk) : (s.setFacet f c).conns = s.conns := rfl
@[simp] theorem State.setFacet_contents (f : Nat) (c : FacetClk) : (s.setFacet f c).contents = s.contents := rfl
@[simp] theorem State.setFacet_replies (f : Nat) (c : FacetClk) : (s.setFacet f c).replies = s.replies := rfl
@[simp] theorem State.setFacet_streamed (f : Nat) (c : FacetClk) : (s.setFacet f c).streamed = s.streamed := rfl
@[simp] theorem State.setFacet_bc (f : Nat) (c : FacetClk) : (s.setFacet f c).bc = s.bc := rfl
@[simp] theorem State.setFacet_bcast (f : Nat) (c : FacetClk) : (s.setFacet f c).bcast = s.bcast := rfl
@[simp] theorem State.setFacet_staging (f : Nat) (c : FacetClk) : (s.setFacet f c).staging = s.staging := rfl
@[simp] theorem State.setFacet_nv (f : Nat) (c : FacetClk) : (s.setFacet f c).nv = s.nv := rfl
@[simp] theorem State.setFacet_boot (f : Nat) (c : FacetClk) : (s.setFacet f c).boot = s.boot := rfl
@[simp] theorem State.setFacet_pair (f : Nat) (c : FacetClk) : (s.setFacet f c).pair = s.pair := rfl
@[simp] theorem State.setFacet_i3c (f : Nat) (c : FacetClk) : (s.setFacet f c).i3c = s.i3c := rfl
@[simp] theorem State.setFacet_accesses (f : Nat) (c : FacetClk) : (s.setFacet f c).accesses = s.accesses := rfl
@[simp] theorem State.setFacet_rsps (f : Nat) (c : FacetClk) : (s.setFacet f c).rsps = s.rsps := rfl
@[simp] theorem State.setFacet_svc (f : Nat) (c : FacetClk) : (s.setFacet f c).svc = s.svc := rfl
@[simp] theorem State.setFacet_svcWait (f : Nat) (c : FacetClk) : (s.setFacet f c).svcWait = s.svcWait := rfl

@[simp] theorem State.setRgn_pending (r : Nat) (x : RegionSt) : (s.setRgn r x).pending = s.pending := rfl
@[simp] theorem State.setRgn_outbox (r : Nat) (x : RegionSt) : (s.setRgn r x).outbox = s.outbox := rfl
@[simp] theorem State.setRgn_freeCtr (r : Nat) (x : RegionSt) : (s.setRgn r x).freeCtr = s.freeCtr := rfl
@[simp] theorem State.setRgn_time (r : Nat) (x : RegionSt) : (s.setRgn r x).time = s.time := rfl
@[simp] theorem State.setRgn_facets (r : Nat) (x : RegionSt) : (s.setRgn r x).facets = s.facets := rfl
@[simp] theorem State.setRgn_regs (r : Nat) (x : RegionSt) : (s.setRgn r x).regs = s.regs := rfl
@[simp] theorem State.setRgn_staged (r : Nat) (x : RegionSt) : (s.setRgn r x).staged = s.staged := rfl
@[simp] theorem State.setRgn_blks (r : Nat) (x : RegionSt) : (s.setRgn r x).blks = s.blks := rfl
@[simp] theorem State.setRgn_hdrs (r : Nat) (x : RegionSt) : (s.setRgn r x).hdrs = s.hdrs := rfl
@[simp] theorem State.setRgn_latches (r : Nat) (x : RegionSt) : (s.setRgn r x).latches = s.latches := rfl
@[simp] theorem State.setRgn_log (r : Nat) (x : RegionSt) : (s.setRgn r x).log = s.log := rfl
@[simp] theorem State.setRgn_logSeq (r : Nat) (x : RegionSt) : (s.setRgn r x).logSeq = s.logSeq := rfl
@[simp] theorem State.setRgn_colls (r : Nat) (x : RegionSt) : (s.setRgn r x).colls = s.colls := rfl
@[simp] theorem State.setRgn_loupes (r : Nat) (x : RegionSt) : (s.setRgn r x).loupes = s.loupes := rfl
@[simp] theorem State.setRgn_origins (r : Nat) (x : RegionSt) : (s.setRgn r x).origins = s.origins := rfl
@[simp] theorem State.setRgn_tiles (r : Nat) (x : RegionSt) : (s.setRgn r x).tiles = s.tiles := rfl
@[simp] theorem State.setRgn_sync (r : Nat) (x : RegionSt) : (s.setRgn r x).sync = s.sync := rfl
@[simp] theorem State.setRgn_keys (r : Nat) (x : RegionSt) : (s.setRgn r x).keys = s.keys := rfl
@[simp] theorem State.setRgn_spad (r : Nat) (x : RegionSt) : (s.setRgn r x).spad = s.spad := rfl
@[simp] theorem State.setRgn_spadPoison (r : Nat) (x : RegionSt) : (s.setRgn r x).spadPoison = s.spadPoison := rfl
@[simp] theorem State.setRgn_imem (r : Nat) (x : RegionSt) : (s.setRgn r x).imem = s.imem := rfl
@[simp] theorem State.setRgn_telActive (r : Nat) (x : RegionSt) : (s.setRgn r x).telActive = s.telActive := rfl
@[simp] theorem State.setRgn_telFrozen (r : Nat) (x : RegionSt) : (s.setRgn r x).telFrozen = s.telFrozen := rfl
@[simp] theorem State.setRgn_telSwap (r : Nat) (x : RegionSt) : (s.setRgn r x).telSwap = s.telSwap := rfl
@[simp] theorem State.setRgn_rtrTbl (r : Nat) (x : RegionSt) : (s.setRgn r x).rtrTbl = s.rtrTbl := rfl
@[simp] theorem State.setRgn_slotCtr (r : Nat) (x : RegionSt) : (s.setRgn r x).slotCtr = s.slotCtr := rfl
@[simp] theorem State.setRgn_inbuf (r : Nat) (x : RegionSt) : (s.setRgn r x).inbuf = s.inbuf := rfl
@[simp] theorem State.setRgn_order (r : Nat) (x : RegionSt) : (s.setRgn r x).order = s.order := rfl
@[simp] theorem State.setRgn_links (r : Nat) (x : RegionSt) : (s.setRgn r x).links = s.links := rfl
@[simp] theorem State.setRgn_maps (r : Nat) (x : RegionSt) : (s.setRgn r x).maps = s.maps := rfl
@[simp] theorem State.setRgn_chanMaps (r : Nat) (x : RegionSt) : (s.setRgn r x).chanMaps = s.chanMaps := rfl
@[simp] theorem State.setRgn_packets (r : Nat) (x : RegionSt) : (s.setRgn r x).packets = s.packets := rfl
@[simp] theorem State.setRgn_rr (r : Nat) (x : RegionSt) : (s.setRgn r x).rr = s.rr := rfl
@[simp] theorem State.setRgn_verdicts (r : Nat) (x : RegionSt) : (s.setRgn r x).verdicts = s.verdicts := rfl
@[simp] theorem State.setRgn_delivered (r : Nat) (x : RegionSt) : (s.setRgn r x).delivered = s.delivered := rfl
@[simp] theorem State.setRgn_subs (r : Nat) (x : RegionSt) : (s.setRgn r x).subs = s.subs := rfl
@[simp] theorem State.setRgn_udp (r : Nat) (x : RegionSt) : (s.setRgn r x).udp = s.udp := rfl
@[simp] theorem State.setRgn_mccs (r : Nat) (x : RegionSt) : (s.setRgn r x).mccs = s.mccs := rfl
@[simp] theorem State.setRgn_dram (r : Nat) (x : RegionSt) : (s.setRgn r x).dram = s.dram := rfl
@[simp] theorem State.setRgn_dramClean (r : Nat) (x : RegionSt) : (s.setRgn r x).dramClean = s.dramClean := rfl
@[simp] theorem State.setRgn_retireQ (r : Nat) (x : RegionSt) : (s.setRgn r x).retireQ = s.retireQ := rfl
@[simp] theorem State.setRgn_job (r : Nat) (x : RegionSt) : (s.setRgn r x).job = s.job := rfl
@[simp] theorem State.setRgn_reqs (r : Nat) (x : RegionSt) : (s.setRgn r x).reqs = s.reqs := rfl
@[simp] theorem State.setRgn_msgs (r : Nat) (x : RegionSt) : (s.setRgn r x).msgs = s.msgs := rfl
@[simp] theorem State.setRgn_tagCtr (r : Nat) (x : RegionSt) : (s.setRgn r x).tagCtr = s.tagCtr := rfl
@[simp] theorem State.setRgn_attns (r : Nat) (x : RegionSt) : (s.setRgn r x).attns = s.attns := rfl
@[simp] theorem State.setRgn_gens (r : Nat) (x : RegionSt) : (s.setRgn r x).gens = s.gens := rfl
@[simp] theorem State.setRgn_pages (r : Nat) (x : RegionSt) : (s.setRgn r x).pages = s.pages := rfl
@[simp] theorem State.setRgn_chunks (r : Nat) (x : RegionSt) : (s.setRgn r x).chunks = s.chunks := rfl
@[simp] theorem State.setRgn_oldDirs (r : Nat) (x : RegionSt) : (s.setRgn r x).oldDirs = s.oldDirs := rfl
@[simp] theorem State.setRgn_heldQ (r : Nat) (x : RegionSt) : (s.setRgn r x).heldQ = s.heldQ := rfl
@[simp] theorem State.setRgn_closes (r : Nat) (x : RegionSt) : (s.setRgn r x).closes = s.closes := rfl
@[simp] theorem State.setRgn_binds (r : Nat) (x : RegionSt) : (s.setRgn r x).binds = s.binds := rfl
@[simp] theorem State.setRgn_ports (r : Nat) (x : RegionSt) : (s.setRgn r x).ports = s.ports := rfl
@[simp] theorem State.setRgn_stepPend (r : Nat) (x : RegionSt) : (s.setRgn r x).stepPend = s.stepPend := rfl
@[simp] theorem State.setRgn_ptp (r : Nat) (x : RegionSt) : (s.setRgn r x).ptp = s.ptp := rfl
@[simp] theorem State.setRgn_reqOrder (r : Nat) (x : RegionSt) : (s.setRgn r x).reqOrder = s.reqOrder := rfl
@[simp] theorem State.setRgn_ctl (r : Nat) (x : RegionSt) : (s.setRgn r x).ctl = s.ctl := rfl
@[simp] theorem State.setRgn_mtr (r : Nat) (x : RegionSt) : (s.setRgn r x).mtr = s.mtr := rfl
@[simp] theorem State.setRgn_rcp (r : Nat) (x : RegionSt) : (s.setRgn r x).rcp = s.rcp := rfl
@[simp] theorem State.setRgn_sealLoop (r : Nat) (x : RegionSt) : (s.setRgn r x).sealLoop = s.sealLoop := rfl
@[simp] theorem State.setRgn_conns (r : Nat) (x : RegionSt) : (s.setRgn r x).conns = s.conns := rfl
@[simp] theorem State.setRgn_contents (r : Nat) (x : RegionSt) : (s.setRgn r x).contents = s.contents := rfl
@[simp] theorem State.setRgn_replies (r : Nat) (x : RegionSt) : (s.setRgn r x).replies = s.replies := rfl
@[simp] theorem State.setRgn_streamed (r : Nat) (x : RegionSt) : (s.setRgn r x).streamed = s.streamed := rfl
@[simp] theorem State.setRgn_bc (r : Nat) (x : RegionSt) : (s.setRgn r x).bc = s.bc := rfl
@[simp] theorem State.setRgn_bcast (r : Nat) (x : RegionSt) : (s.setRgn r x).bcast = s.bcast := rfl
@[simp] theorem State.setRgn_staging (r : Nat) (x : RegionSt) : (s.setRgn r x).staging = s.staging := rfl
@[simp] theorem State.setRgn_nv (r : Nat) (x : RegionSt) : (s.setRgn r x).nv = s.nv := rfl
@[simp] theorem State.setRgn_boot (r : Nat) (x : RegionSt) : (s.setRgn r x).boot = s.boot := rfl
@[simp] theorem State.setRgn_pair (r : Nat) (x : RegionSt) : (s.setRgn r x).pair = s.pair := rfl
@[simp] theorem State.setRgn_i3c (r : Nat) (x : RegionSt) : (s.setRgn r x).i3c = s.i3c := rfl
@[simp] theorem State.setRgn_accesses (r : Nat) (x : RegionSt) : (s.setRgn r x).accesses = s.accesses := rfl
@[simp] theorem State.setRgn_rsps (r : Nat) (x : RegionSt) : (s.setRgn r x).rsps = s.rsps := rfl
@[simp] theorem State.setRgn_svc (r : Nat) (x : RegionSt) : (s.setRgn r x).svc = s.svc := rfl
@[simp] theorem State.setRgn_svcWait (r : Nat) (x : RegionSt) : (s.setRgn r x).svcWait = s.svcWait := rfl

@[simp] theorem State.send_pending (ch : Chan) (kind : String) (ws : List Nat) : (s.send ch kind ws).pending = s.pending := rfl
@[simp] theorem State.send_freeCtr (ch : Chan) (kind : String) (ws : List Nat) : (s.send ch kind ws).freeCtr = s.freeCtr := rfl
@[simp] theorem State.send_time (ch : Chan) (kind : String) (ws : List Nat) : (s.send ch kind ws).time = s.time := rfl
@[simp] theorem State.send_facets (ch : Chan) (kind : String) (ws : List Nat) : (s.send ch kind ws).facets = s.facets := rfl
@[simp] theorem State.send_regs (ch : Chan) (kind : String) (ws : List Nat) : (s.send ch kind ws).regs = s.regs := rfl
@[simp] theorem State.send_staged (ch : Chan) (kind : String) (ws : List Nat) : (s.send ch kind ws).staged = s.staged := rfl
@[simp] theorem State.send_blks (ch : Chan) (kind : String) (ws : List Nat) : (s.send ch kind ws).blks = s.blks := rfl
@[simp] theorem State.send_hdrs (ch : Chan) (kind : String) (ws : List Nat) : (s.send ch kind ws).hdrs = s.hdrs := rfl
@[simp] theorem State.send_latches (ch : Chan) (kind : String) (ws : List Nat) : (s.send ch kind ws).latches = s.latches := rfl
@[simp] theorem State.send_log (ch : Chan) (kind : String) (ws : List Nat) : (s.send ch kind ws).log = s.log := rfl
@[simp] theorem State.send_logSeq (ch : Chan) (kind : String) (ws : List Nat) : (s.send ch kind ws).logSeq = s.logSeq := rfl
@[simp] theorem State.send_colls (ch : Chan) (kind : String) (ws : List Nat) : (s.send ch kind ws).colls = s.colls := rfl
@[simp] theorem State.send_loupes (ch : Chan) (kind : String) (ws : List Nat) : (s.send ch kind ws).loupes = s.loupes := rfl
@[simp] theorem State.send_origins (ch : Chan) (kind : String) (ws : List Nat) : (s.send ch kind ws).origins = s.origins := rfl
@[simp] theorem State.send_tiles (ch : Chan) (kind : String) (ws : List Nat) : (s.send ch kind ws).tiles = s.tiles := rfl
@[simp] theorem State.send_sync (ch : Chan) (kind : String) (ws : List Nat) : (s.send ch kind ws).sync = s.sync := rfl
@[simp] theorem State.send_keys (ch : Chan) (kind : String) (ws : List Nat) : (s.send ch kind ws).keys = s.keys := rfl
@[simp] theorem State.send_spad (ch : Chan) (kind : String) (ws : List Nat) : (s.send ch kind ws).spad = s.spad := rfl
@[simp] theorem State.send_spadPoison (ch : Chan) (kind : String) (ws : List Nat) : (s.send ch kind ws).spadPoison = s.spadPoison := rfl
@[simp] theorem State.send_imem (ch : Chan) (kind : String) (ws : List Nat) : (s.send ch kind ws).imem = s.imem := rfl
@[simp] theorem State.send_telActive (ch : Chan) (kind : String) (ws : List Nat) : (s.send ch kind ws).telActive = s.telActive := rfl
@[simp] theorem State.send_telFrozen (ch : Chan) (kind : String) (ws : List Nat) : (s.send ch kind ws).telFrozen = s.telFrozen := rfl
@[simp] theorem State.send_telSwap (ch : Chan) (kind : String) (ws : List Nat) : (s.send ch kind ws).telSwap = s.telSwap := rfl
@[simp] theorem State.send_rtrTbl (ch : Chan) (kind : String) (ws : List Nat) : (s.send ch kind ws).rtrTbl = s.rtrTbl := rfl
@[simp] theorem State.send_slotCtr (ch : Chan) (kind : String) (ws : List Nat) : (s.send ch kind ws).slotCtr = s.slotCtr := rfl
@[simp] theorem State.send_inbuf (ch : Chan) (kind : String) (ws : List Nat) : (s.send ch kind ws).inbuf = s.inbuf := rfl
@[simp] theorem State.send_order (ch : Chan) (kind : String) (ws : List Nat) : (s.send ch kind ws).order = s.order := rfl
@[simp] theorem State.send_links (ch : Chan) (kind : String) (ws : List Nat) : (s.send ch kind ws).links = s.links := rfl
@[simp] theorem State.send_maps (ch : Chan) (kind : String) (ws : List Nat) : (s.send ch kind ws).maps = s.maps := rfl
@[simp] theorem State.send_chanMaps (ch : Chan) (kind : String) (ws : List Nat) : (s.send ch kind ws).chanMaps = s.chanMaps := rfl
@[simp] theorem State.send_packets (ch : Chan) (kind : String) (ws : List Nat) : (s.send ch kind ws).packets = s.packets := rfl
@[simp] theorem State.send_rr (ch : Chan) (kind : String) (ws : List Nat) : (s.send ch kind ws).rr = s.rr := rfl
@[simp] theorem State.send_verdicts (ch : Chan) (kind : String) (ws : List Nat) : (s.send ch kind ws).verdicts = s.verdicts := rfl
@[simp] theorem State.send_delivered (ch : Chan) (kind : String) (ws : List Nat) : (s.send ch kind ws).delivered = s.delivered := rfl
@[simp] theorem State.send_subs (ch : Chan) (kind : String) (ws : List Nat) : (s.send ch kind ws).subs = s.subs := rfl
@[simp] theorem State.send_udp (ch : Chan) (kind : String) (ws : List Nat) : (s.send ch kind ws).udp = s.udp := rfl
@[simp] theorem State.send_mccs (ch : Chan) (kind : String) (ws : List Nat) : (s.send ch kind ws).mccs = s.mccs := rfl
@[simp] theorem State.send_dram (ch : Chan) (kind : String) (ws : List Nat) : (s.send ch kind ws).dram = s.dram := rfl
@[simp] theorem State.send_dramClean (ch : Chan) (kind : String) (ws : List Nat) : (s.send ch kind ws).dramClean = s.dramClean := rfl
@[simp] theorem State.send_retireQ (ch : Chan) (kind : String) (ws : List Nat) : (s.send ch kind ws).retireQ = s.retireQ := rfl
@[simp] theorem State.send_job (ch : Chan) (kind : String) (ws : List Nat) : (s.send ch kind ws).job = s.job := rfl
@[simp] theorem State.send_reqs (ch : Chan) (kind : String) (ws : List Nat) : (s.send ch kind ws).reqs = s.reqs := rfl
@[simp] theorem State.send_msgs (ch : Chan) (kind : String) (ws : List Nat) : (s.send ch kind ws).msgs = s.msgs := rfl
@[simp] theorem State.send_tagCtr (ch : Chan) (kind : String) (ws : List Nat) : (s.send ch kind ws).tagCtr = s.tagCtr := rfl
@[simp] theorem State.send_attns (ch : Chan) (kind : String) (ws : List Nat) : (s.send ch kind ws).attns = s.attns := rfl
@[simp] theorem State.send_gens (ch : Chan) (kind : String) (ws : List Nat) : (s.send ch kind ws).gens = s.gens := rfl
@[simp] theorem State.send_pages (ch : Chan) (kind : String) (ws : List Nat) : (s.send ch kind ws).pages = s.pages := rfl
@[simp] theorem State.send_chunks (ch : Chan) (kind : String) (ws : List Nat) : (s.send ch kind ws).chunks = s.chunks := rfl
@[simp] theorem State.send_oldDirs (ch : Chan) (kind : String) (ws : List Nat) : (s.send ch kind ws).oldDirs = s.oldDirs := rfl
@[simp] theorem State.send_heldQ (ch : Chan) (kind : String) (ws : List Nat) : (s.send ch kind ws).heldQ = s.heldQ := rfl
@[simp] theorem State.send_closes (ch : Chan) (kind : String) (ws : List Nat) : (s.send ch kind ws).closes = s.closes := rfl
@[simp] theorem State.send_binds (ch : Chan) (kind : String) (ws : List Nat) : (s.send ch kind ws).binds = s.binds := rfl
@[simp] theorem State.send_ports (ch : Chan) (kind : String) (ws : List Nat) : (s.send ch kind ws).ports = s.ports := rfl
@[simp] theorem State.send_stepPend (ch : Chan) (kind : String) (ws : List Nat) : (s.send ch kind ws).stepPend = s.stepPend := rfl
@[simp] theorem State.send_ptp (ch : Chan) (kind : String) (ws : List Nat) : (s.send ch kind ws).ptp = s.ptp := rfl
@[simp] theorem State.send_regions (ch : Chan) (kind : String) (ws : List Nat) : (s.send ch kind ws).regions = s.regions := rfl
@[simp] theorem State.send_reqOrder (ch : Chan) (kind : String) (ws : List Nat) : (s.send ch kind ws).reqOrder = s.reqOrder := rfl
@[simp] theorem State.send_ctl (ch : Chan) (kind : String) (ws : List Nat) : (s.send ch kind ws).ctl = s.ctl := rfl
@[simp] theorem State.send_mtr (ch : Chan) (kind : String) (ws : List Nat) : (s.send ch kind ws).mtr = s.mtr := rfl
@[simp] theorem State.send_rcp (ch : Chan) (kind : String) (ws : List Nat) : (s.send ch kind ws).rcp = s.rcp := rfl
@[simp] theorem State.send_sealLoop (ch : Chan) (kind : String) (ws : List Nat) : (s.send ch kind ws).sealLoop = s.sealLoop := rfl
@[simp] theorem State.send_conns (ch : Chan) (kind : String) (ws : List Nat) : (s.send ch kind ws).conns = s.conns := rfl
@[simp] theorem State.send_contents (ch : Chan) (kind : String) (ws : List Nat) : (s.send ch kind ws).contents = s.contents := rfl
@[simp] theorem State.send_replies (ch : Chan) (kind : String) (ws : List Nat) : (s.send ch kind ws).replies = s.replies := rfl
@[simp] theorem State.send_streamed (ch : Chan) (kind : String) (ws : List Nat) : (s.send ch kind ws).streamed = s.streamed := rfl
@[simp] theorem State.send_bc (ch : Chan) (kind : String) (ws : List Nat) : (s.send ch kind ws).bc = s.bc := rfl
@[simp] theorem State.send_bcast (ch : Chan) (kind : String) (ws : List Nat) : (s.send ch kind ws).bcast = s.bcast := rfl
@[simp] theorem State.send_staging (ch : Chan) (kind : String) (ws : List Nat) : (s.send ch kind ws).staging = s.staging := rfl
@[simp] theorem State.send_nv (ch : Chan) (kind : String) (ws : List Nat) : (s.send ch kind ws).nv = s.nv := rfl
@[simp] theorem State.send_boot (ch : Chan) (kind : String) (ws : List Nat) : (s.send ch kind ws).boot = s.boot := rfl
@[simp] theorem State.send_pair (ch : Chan) (kind : String) (ws : List Nat) : (s.send ch kind ws).pair = s.pair := rfl
@[simp] theorem State.send_i3c (ch : Chan) (kind : String) (ws : List Nat) : (s.send ch kind ws).i3c = s.i3c := rfl
@[simp] theorem State.send_accesses (ch : Chan) (kind : String) (ws : List Nat) : (s.send ch kind ws).accesses = s.accesses := rfl
@[simp] theorem State.send_rsps (ch : Chan) (kind : String) (ws : List Nat) : (s.send ch kind ws).rsps = s.rsps := rfl
@[simp] theorem State.send_svc (ch : Chan) (kind : String) (ws : List Nat) : (s.send ch kind ws).svc = s.svc := rfl
@[simp] theorem State.send_svcWait (ch : Chan) (kind : String) (ws : List Nat) : (s.send ch kind ws).svcWait = s.svcWait := rfl

@[simp] theorem State.setTile_pending (x : Nat) (t : Tile) : (s.setTile x t).pending = s.pending := rfl
@[simp] theorem State.setTile_outbox (x : Nat) (t : Tile) : (s.setTile x t).outbox = s.outbox := rfl
@[simp] theorem State.setTile_freeCtr (x : Nat) (t : Tile) : (s.setTile x t).freeCtr = s.freeCtr := rfl
@[simp] theorem State.setTile_time (x : Nat) (t : Tile) : (s.setTile x t).time = s.time := rfl
@[simp] theorem State.setTile_facets (x : Nat) (t : Tile) : (s.setTile x t).facets = s.facets := rfl
@[simp] theorem State.setTile_regs (x : Nat) (t : Tile) : (s.setTile x t).regs = s.regs := rfl
@[simp] theorem State.setTile_staged (x : Nat) (t : Tile) : (s.setTile x t).staged = s.staged := rfl
@[simp] theorem State.setTile_blks (x : Nat) (t : Tile) : (s.setTile x t).blks = s.blks := rfl
@[simp] theorem State.setTile_hdrs (x : Nat) (t : Tile) : (s.setTile x t).hdrs = s.hdrs := rfl
@[simp] theorem State.setTile_latches (x : Nat) (t : Tile) : (s.setTile x t).latches = s.latches := rfl
@[simp] theorem State.setTile_log (x : Nat) (t : Tile) : (s.setTile x t).log = s.log := rfl
@[simp] theorem State.setTile_logSeq (x : Nat) (t : Tile) : (s.setTile x t).logSeq = s.logSeq := rfl
@[simp] theorem State.setTile_colls (x : Nat) (t : Tile) : (s.setTile x t).colls = s.colls := rfl
@[simp] theorem State.setTile_loupes (x : Nat) (t : Tile) : (s.setTile x t).loupes = s.loupes := rfl
@[simp] theorem State.setTile_origins (x : Nat) (t : Tile) : (s.setTile x t).origins = s.origins := rfl
@[simp] theorem State.setTile_sync (x : Nat) (t : Tile) : (s.setTile x t).sync = s.sync := rfl
@[simp] theorem State.setTile_keys (x : Nat) (t : Tile) : (s.setTile x t).keys = s.keys := rfl
@[simp] theorem State.setTile_spad (x : Nat) (t : Tile) : (s.setTile x t).spad = s.spad := rfl
@[simp] theorem State.setTile_spadPoison (x : Nat) (t : Tile) : (s.setTile x t).spadPoison = s.spadPoison := rfl
@[simp] theorem State.setTile_imem (x : Nat) (t : Tile) : (s.setTile x t).imem = s.imem := rfl
@[simp] theorem State.setTile_telActive (x : Nat) (t : Tile) : (s.setTile x t).telActive = s.telActive := rfl
@[simp] theorem State.setTile_telFrozen (x : Nat) (t : Tile) : (s.setTile x t).telFrozen = s.telFrozen := rfl
@[simp] theorem State.setTile_telSwap (x : Nat) (t : Tile) : (s.setTile x t).telSwap = s.telSwap := rfl
@[simp] theorem State.setTile_rtrTbl (x : Nat) (t : Tile) : (s.setTile x t).rtrTbl = s.rtrTbl := rfl
@[simp] theorem State.setTile_slotCtr (x : Nat) (t : Tile) : (s.setTile x t).slotCtr = s.slotCtr := rfl
@[simp] theorem State.setTile_inbuf (x : Nat) (t : Tile) : (s.setTile x t).inbuf = s.inbuf := rfl
@[simp] theorem State.setTile_order (x : Nat) (t : Tile) : (s.setTile x t).order = s.order := rfl
@[simp] theorem State.setTile_links (x : Nat) (t : Tile) : (s.setTile x t).links = s.links := rfl
@[simp] theorem State.setTile_maps (x : Nat) (t : Tile) : (s.setTile x t).maps = s.maps := rfl
@[simp] theorem State.setTile_chanMaps (x : Nat) (t : Tile) : (s.setTile x t).chanMaps = s.chanMaps := rfl
@[simp] theorem State.setTile_packets (x : Nat) (t : Tile) : (s.setTile x t).packets = s.packets := rfl
@[simp] theorem State.setTile_rr (x : Nat) (t : Tile) : (s.setTile x t).rr = s.rr := rfl
@[simp] theorem State.setTile_verdicts (x : Nat) (t : Tile) : (s.setTile x t).verdicts = s.verdicts := rfl
@[simp] theorem State.setTile_delivered (x : Nat) (t : Tile) : (s.setTile x t).delivered = s.delivered := rfl
@[simp] theorem State.setTile_subs (x : Nat) (t : Tile) : (s.setTile x t).subs = s.subs := rfl
@[simp] theorem State.setTile_udp (x : Nat) (t : Tile) : (s.setTile x t).udp = s.udp := rfl
@[simp] theorem State.setTile_mccs (x : Nat) (t : Tile) : (s.setTile x t).mccs = s.mccs := rfl
@[simp] theorem State.setTile_dram (x : Nat) (t : Tile) : (s.setTile x t).dram = s.dram := rfl
@[simp] theorem State.setTile_dramClean (x : Nat) (t : Tile) : (s.setTile x t).dramClean = s.dramClean := rfl
@[simp] theorem State.setTile_retireQ (x : Nat) (t : Tile) : (s.setTile x t).retireQ = s.retireQ := rfl
@[simp] theorem State.setTile_job (x : Nat) (t : Tile) : (s.setTile x t).job = s.job := rfl
@[simp] theorem State.setTile_reqs (x : Nat) (t : Tile) : (s.setTile x t).reqs = s.reqs := rfl
@[simp] theorem State.setTile_msgs (x : Nat) (t : Tile) : (s.setTile x t).msgs = s.msgs := rfl
@[simp] theorem State.setTile_tagCtr (x : Nat) (t : Tile) : (s.setTile x t).tagCtr = s.tagCtr := rfl
@[simp] theorem State.setTile_attns (x : Nat) (t : Tile) : (s.setTile x t).attns = s.attns := rfl
@[simp] theorem State.setTile_gens (x : Nat) (t : Tile) : (s.setTile x t).gens = s.gens := rfl
@[simp] theorem State.setTile_pages (x : Nat) (t : Tile) : (s.setTile x t).pages = s.pages := rfl
@[simp] theorem State.setTile_chunks (x : Nat) (t : Tile) : (s.setTile x t).chunks = s.chunks := rfl
@[simp] theorem State.setTile_oldDirs (x : Nat) (t : Tile) : (s.setTile x t).oldDirs = s.oldDirs := rfl
@[simp] theorem State.setTile_heldQ (x : Nat) (t : Tile) : (s.setTile x t).heldQ = s.heldQ := rfl
@[simp] theorem State.setTile_closes (x : Nat) (t : Tile) : (s.setTile x t).closes = s.closes := rfl
@[simp] theorem State.setTile_binds (x : Nat) (t : Tile) : (s.setTile x t).binds = s.binds := rfl
@[simp] theorem State.setTile_ports (x : Nat) (t : Tile) : (s.setTile x t).ports = s.ports := rfl
@[simp] theorem State.setTile_stepPend (x : Nat) (t : Tile) : (s.setTile x t).stepPend = s.stepPend := rfl
@[simp] theorem State.setTile_ptp (x : Nat) (t : Tile) : (s.setTile x t).ptp = s.ptp := rfl
@[simp] theorem State.setTile_regions (x : Nat) (t : Tile) : (s.setTile x t).regions = s.regions := rfl
@[simp] theorem State.setTile_reqOrder (x : Nat) (t : Tile) : (s.setTile x t).reqOrder = s.reqOrder := rfl
@[simp] theorem State.setTile_ctl (x : Nat) (t : Tile) : (s.setTile x t).ctl = s.ctl := rfl
@[simp] theorem State.setTile_mtr (x : Nat) (t : Tile) : (s.setTile x t).mtr = s.mtr := rfl
@[simp] theorem State.setTile_rcp (x : Nat) (t : Tile) : (s.setTile x t).rcp = s.rcp := rfl
@[simp] theorem State.setTile_sealLoop (x : Nat) (t : Tile) : (s.setTile x t).sealLoop = s.sealLoop := rfl
@[simp] theorem State.setTile_conns (x : Nat) (t : Tile) : (s.setTile x t).conns = s.conns := rfl
@[simp] theorem State.setTile_contents (x : Nat) (t : Tile) : (s.setTile x t).contents = s.contents := rfl
@[simp] theorem State.setTile_replies (x : Nat) (t : Tile) : (s.setTile x t).replies = s.replies := rfl
@[simp] theorem State.setTile_streamed (x : Nat) (t : Tile) : (s.setTile x t).streamed = s.streamed := rfl
@[simp] theorem State.setTile_bc (x : Nat) (t : Tile) : (s.setTile x t).bc = s.bc := rfl
@[simp] theorem State.setTile_bcast (x : Nat) (t : Tile) : (s.setTile x t).bcast = s.bcast := rfl
@[simp] theorem State.setTile_staging (x : Nat) (t : Tile) : (s.setTile x t).staging = s.staging := rfl
@[simp] theorem State.setTile_nv (x : Nat) (t : Tile) : (s.setTile x t).nv = s.nv := rfl
@[simp] theorem State.setTile_boot (x : Nat) (t : Tile) : (s.setTile x t).boot = s.boot := rfl
@[simp] theorem State.setTile_pair (x : Nat) (t : Tile) : (s.setTile x t).pair = s.pair := rfl
@[simp] theorem State.setTile_i3c (x : Nat) (t : Tile) : (s.setTile x t).i3c = s.i3c := rfl
@[simp] theorem State.setTile_accesses (x : Nat) (t : Tile) : (s.setTile x t).accesses = s.accesses := rfl
@[simp] theorem State.setTile_rsps (x : Nat) (t : Tile) : (s.setTile x t).rsps = s.rsps := rfl
@[simp] theorem State.setTile_svc (x : Nat) (t : Tile) : (s.setTile x t).svc = s.svc := rfl
@[simp] theorem State.setTile_svcWait (x : Nat) (t : Tile) : (s.setTile x t).svcWait = s.svcWait := rfl

@[simp] theorem State.spadStore_pending (x w : Nat) (v : PWord) : (s.spadStore x w v).pending = s.pending := rfl
@[simp] theorem State.spadStore_outbox (x w : Nat) (v : PWord) : (s.spadStore x w v).outbox = s.outbox := rfl
@[simp] theorem State.spadStore_freeCtr (x w : Nat) (v : PWord) : (s.spadStore x w v).freeCtr = s.freeCtr := rfl
@[simp] theorem State.spadStore_time (x w : Nat) (v : PWord) : (s.spadStore x w v).time = s.time := rfl
@[simp] theorem State.spadStore_facets (x w : Nat) (v : PWord) : (s.spadStore x w v).facets = s.facets := rfl
@[simp] theorem State.spadStore_regs (x w : Nat) (v : PWord) : (s.spadStore x w v).regs = s.regs := rfl
@[simp] theorem State.spadStore_staged (x w : Nat) (v : PWord) : (s.spadStore x w v).staged = s.staged := rfl
@[simp] theorem State.spadStore_blks (x w : Nat) (v : PWord) : (s.spadStore x w v).blks = s.blks := rfl
@[simp] theorem State.spadStore_hdrs (x w : Nat) (v : PWord) : (s.spadStore x w v).hdrs = s.hdrs := rfl
@[simp] theorem State.spadStore_latches (x w : Nat) (v : PWord) : (s.spadStore x w v).latches = s.latches := rfl
@[simp] theorem State.spadStore_log (x w : Nat) (v : PWord) : (s.spadStore x w v).log = s.log := rfl
@[simp] theorem State.spadStore_logSeq (x w : Nat) (v : PWord) : (s.spadStore x w v).logSeq = s.logSeq := rfl
@[simp] theorem State.spadStore_colls (x w : Nat) (v : PWord) : (s.spadStore x w v).colls = s.colls := rfl
@[simp] theorem State.spadStore_loupes (x w : Nat) (v : PWord) : (s.spadStore x w v).loupes = s.loupes := rfl
@[simp] theorem State.spadStore_origins (x w : Nat) (v : PWord) : (s.spadStore x w v).origins = s.origins := rfl
@[simp] theorem State.spadStore_tiles (x w : Nat) (v : PWord) : (s.spadStore x w v).tiles = s.tiles := rfl
@[simp] theorem State.spadStore_sync (x w : Nat) (v : PWord) : (s.spadStore x w v).sync = s.sync := rfl
@[simp] theorem State.spadStore_keys (x w : Nat) (v : PWord) : (s.spadStore x w v).keys = s.keys := rfl
@[simp] theorem State.spadStore_imem (x w : Nat) (v : PWord) : (s.spadStore x w v).imem = s.imem := rfl
@[simp] theorem State.spadStore_telActive (x w : Nat) (v : PWord) : (s.spadStore x w v).telActive = s.telActive := rfl
@[simp] theorem State.spadStore_telFrozen (x w : Nat) (v : PWord) : (s.spadStore x w v).telFrozen = s.telFrozen := rfl
@[simp] theorem State.spadStore_telSwap (x w : Nat) (v : PWord) : (s.spadStore x w v).telSwap = s.telSwap := rfl
@[simp] theorem State.spadStore_rtrTbl (x w : Nat) (v : PWord) : (s.spadStore x w v).rtrTbl = s.rtrTbl := rfl
@[simp] theorem State.spadStore_slotCtr (x w : Nat) (v : PWord) : (s.spadStore x w v).slotCtr = s.slotCtr := rfl
@[simp] theorem State.spadStore_inbuf (x w : Nat) (v : PWord) : (s.spadStore x w v).inbuf = s.inbuf := rfl
@[simp] theorem State.spadStore_order (x w : Nat) (v : PWord) : (s.spadStore x w v).order = s.order := rfl
@[simp] theorem State.spadStore_links (x w : Nat) (v : PWord) : (s.spadStore x w v).links = s.links := rfl
@[simp] theorem State.spadStore_maps (x w : Nat) (v : PWord) : (s.spadStore x w v).maps = s.maps := rfl
@[simp] theorem State.spadStore_chanMaps (x w : Nat) (v : PWord) : (s.spadStore x w v).chanMaps = s.chanMaps := rfl
@[simp] theorem State.spadStore_packets (x w : Nat) (v : PWord) : (s.spadStore x w v).packets = s.packets := rfl
@[simp] theorem State.spadStore_rr (x w : Nat) (v : PWord) : (s.spadStore x w v).rr = s.rr := rfl
@[simp] theorem State.spadStore_verdicts (x w : Nat) (v : PWord) : (s.spadStore x w v).verdicts = s.verdicts := rfl
@[simp] theorem State.spadStore_delivered (x w : Nat) (v : PWord) : (s.spadStore x w v).delivered = s.delivered := rfl
@[simp] theorem State.spadStore_subs (x w : Nat) (v : PWord) : (s.spadStore x w v).subs = s.subs := rfl
@[simp] theorem State.spadStore_udp (x w : Nat) (v : PWord) : (s.spadStore x w v).udp = s.udp := rfl
@[simp] theorem State.spadStore_mccs (x w : Nat) (v : PWord) : (s.spadStore x w v).mccs = s.mccs := rfl
@[simp] theorem State.spadStore_dram (x w : Nat) (v : PWord) : (s.spadStore x w v).dram = s.dram := rfl
@[simp] theorem State.spadStore_dramClean (x w : Nat) (v : PWord) : (s.spadStore x w v).dramClean = s.dramClean := rfl
@[simp] theorem State.spadStore_retireQ (x w : Nat) (v : PWord) : (s.spadStore x w v).retireQ = s.retireQ := rfl
@[simp] theorem State.spadStore_job (x w : Nat) (v : PWord) : (s.spadStore x w v).job = s.job := rfl
@[simp] theorem State.spadStore_reqs (x w : Nat) (v : PWord) : (s.spadStore x w v).reqs = s.reqs := rfl
@[simp] theorem State.spadStore_msgs (x w : Nat) (v : PWord) : (s.spadStore x w v).msgs = s.msgs := rfl
@[simp] theorem State.spadStore_tagCtr (x w : Nat) (v : PWord) : (s.spadStore x w v).tagCtr = s.tagCtr := rfl
@[simp] theorem State.spadStore_attns (x w : Nat) (v : PWord) : (s.spadStore x w v).attns = s.attns := rfl
@[simp] theorem State.spadStore_gens (x w : Nat) (v : PWord) : (s.spadStore x w v).gens = s.gens := rfl
@[simp] theorem State.spadStore_pages (x w : Nat) (v : PWord) : (s.spadStore x w v).pages = s.pages := rfl
@[simp] theorem State.spadStore_chunks (x w : Nat) (v : PWord) : (s.spadStore x w v).chunks = s.chunks := rfl
@[simp] theorem State.spadStore_oldDirs (x w : Nat) (v : PWord) : (s.spadStore x w v).oldDirs = s.oldDirs := rfl
@[simp] theorem State.spadStore_heldQ (x w : Nat) (v : PWord) : (s.spadStore x w v).heldQ = s.heldQ := rfl
@[simp] theorem State.spadStore_closes (x w : Nat) (v : PWord) : (s.spadStore x w v).closes = s.closes := rfl
@[simp] theorem State.spadStore_binds (x w : Nat) (v : PWord) : (s.spadStore x w v).binds = s.binds := rfl
@[simp] theorem State.spadStore_ports (x w : Nat) (v : PWord) : (s.spadStore x w v).ports = s.ports := rfl
@[simp] theorem State.spadStore_stepPend (x w : Nat) (v : PWord) : (s.spadStore x w v).stepPend = s.stepPend := rfl
@[simp] theorem State.spadStore_ptp (x w : Nat) (v : PWord) : (s.spadStore x w v).ptp = s.ptp := rfl
@[simp] theorem State.spadStore_regions (x w : Nat) (v : PWord) : (s.spadStore x w v).regions = s.regions := rfl
@[simp] theorem State.spadStore_reqOrder (x w : Nat) (v : PWord) : (s.spadStore x w v).reqOrder = s.reqOrder := rfl
@[simp] theorem State.spadStore_ctl (x w : Nat) (v : PWord) : (s.spadStore x w v).ctl = s.ctl := rfl
@[simp] theorem State.spadStore_mtr (x w : Nat) (v : PWord) : (s.spadStore x w v).mtr = s.mtr := rfl
@[simp] theorem State.spadStore_rcp (x w : Nat) (v : PWord) : (s.spadStore x w v).rcp = s.rcp := rfl
@[simp] theorem State.spadStore_sealLoop (x w : Nat) (v : PWord) : (s.spadStore x w v).sealLoop = s.sealLoop := rfl
@[simp] theorem State.spadStore_conns (x w : Nat) (v : PWord) : (s.spadStore x w v).conns = s.conns := rfl
@[simp] theorem State.spadStore_contents (x w : Nat) (v : PWord) : (s.spadStore x w v).contents = s.contents := rfl
@[simp] theorem State.spadStore_replies (x w : Nat) (v : PWord) : (s.spadStore x w v).replies = s.replies := rfl
@[simp] theorem State.spadStore_streamed (x w : Nat) (v : PWord) : (s.spadStore x w v).streamed = s.streamed := rfl
@[simp] theorem State.spadStore_bc (x w : Nat) (v : PWord) : (s.spadStore x w v).bc = s.bc := rfl
@[simp] theorem State.spadStore_bcast (x w : Nat) (v : PWord) : (s.spadStore x w v).bcast = s.bcast := rfl
@[simp] theorem State.spadStore_staging (x w : Nat) (v : PWord) : (s.spadStore x w v).staging = s.staging := rfl
@[simp] theorem State.spadStore_nv (x w : Nat) (v : PWord) : (s.spadStore x w v).nv = s.nv := rfl
@[simp] theorem State.spadStore_boot (x w : Nat) (v : PWord) : (s.spadStore x w v).boot = s.boot := rfl
@[simp] theorem State.spadStore_pair (x w : Nat) (v : PWord) : (s.spadStore x w v).pair = s.pair := rfl
@[simp] theorem State.spadStore_i3c (x w : Nat) (v : PWord) : (s.spadStore x w v).i3c = s.i3c := rfl
@[simp] theorem State.spadStore_accesses (x w : Nat) (v : PWord) : (s.spadStore x w v).accesses = s.accesses := rfl
@[simp] theorem State.spadStore_rsps (x w : Nat) (v : PWord) : (s.spadStore x w v).rsps = s.rsps := rfl
@[simp] theorem State.spadStore_svc (x w : Nat) (v : PWord) : (s.spadStore x w v).svc = s.svc := rfl
@[simp] theorem State.spadStore_svcWait (x w : Nat) (v : PWord) : (s.spadStore x w v).svcWait = s.svcWait := rfl

@[simp] theorem State.setKey_pending (x k : Nat) (e : KeyEntry) : (s.setKey x k e).pending = s.pending := rfl
@[simp] theorem State.setKey_outbox (x k : Nat) (e : KeyEntry) : (s.setKey x k e).outbox = s.outbox := rfl
@[simp] theorem State.setKey_freeCtr (x k : Nat) (e : KeyEntry) : (s.setKey x k e).freeCtr = s.freeCtr := rfl
@[simp] theorem State.setKey_time (x k : Nat) (e : KeyEntry) : (s.setKey x k e).time = s.time := rfl
@[simp] theorem State.setKey_facets (x k : Nat) (e : KeyEntry) : (s.setKey x k e).facets = s.facets := rfl
@[simp] theorem State.setKey_regs (x k : Nat) (e : KeyEntry) : (s.setKey x k e).regs = s.regs := rfl
@[simp] theorem State.setKey_staged (x k : Nat) (e : KeyEntry) : (s.setKey x k e).staged = s.staged := rfl
@[simp] theorem State.setKey_blks (x k : Nat) (e : KeyEntry) : (s.setKey x k e).blks = s.blks := rfl
@[simp] theorem State.setKey_hdrs (x k : Nat) (e : KeyEntry) : (s.setKey x k e).hdrs = s.hdrs := rfl
@[simp] theorem State.setKey_latches (x k : Nat) (e : KeyEntry) : (s.setKey x k e).latches = s.latches := rfl
@[simp] theorem State.setKey_log (x k : Nat) (e : KeyEntry) : (s.setKey x k e).log = s.log := rfl
@[simp] theorem State.setKey_logSeq (x k : Nat) (e : KeyEntry) : (s.setKey x k e).logSeq = s.logSeq := rfl
@[simp] theorem State.setKey_colls (x k : Nat) (e : KeyEntry) : (s.setKey x k e).colls = s.colls := rfl
@[simp] theorem State.setKey_loupes (x k : Nat) (e : KeyEntry) : (s.setKey x k e).loupes = s.loupes := rfl
@[simp] theorem State.setKey_origins (x k : Nat) (e : KeyEntry) : (s.setKey x k e).origins = s.origins := rfl
@[simp] theorem State.setKey_tiles (x k : Nat) (e : KeyEntry) : (s.setKey x k e).tiles = s.tiles := rfl
@[simp] theorem State.setKey_sync (x k : Nat) (e : KeyEntry) : (s.setKey x k e).sync = s.sync := rfl
@[simp] theorem State.setKey_spad (x k : Nat) (e : KeyEntry) : (s.setKey x k e).spad = s.spad := rfl
@[simp] theorem State.setKey_spadPoison (x k : Nat) (e : KeyEntry) : (s.setKey x k e).spadPoison = s.spadPoison := rfl
@[simp] theorem State.setKey_imem (x k : Nat) (e : KeyEntry) : (s.setKey x k e).imem = s.imem := rfl
@[simp] theorem State.setKey_telActive (x k : Nat) (e : KeyEntry) : (s.setKey x k e).telActive = s.telActive := rfl
@[simp] theorem State.setKey_telFrozen (x k : Nat) (e : KeyEntry) : (s.setKey x k e).telFrozen = s.telFrozen := rfl
@[simp] theorem State.setKey_telSwap (x k : Nat) (e : KeyEntry) : (s.setKey x k e).telSwap = s.telSwap := rfl
@[simp] theorem State.setKey_rtrTbl (x k : Nat) (e : KeyEntry) : (s.setKey x k e).rtrTbl = s.rtrTbl := rfl
@[simp] theorem State.setKey_slotCtr (x k : Nat) (e : KeyEntry) : (s.setKey x k e).slotCtr = s.slotCtr := rfl
@[simp] theorem State.setKey_inbuf (x k : Nat) (e : KeyEntry) : (s.setKey x k e).inbuf = s.inbuf := rfl
@[simp] theorem State.setKey_order (x k : Nat) (e : KeyEntry) : (s.setKey x k e).order = s.order := rfl
@[simp] theorem State.setKey_links (x k : Nat) (e : KeyEntry) : (s.setKey x k e).links = s.links := rfl
@[simp] theorem State.setKey_maps (x k : Nat) (e : KeyEntry) : (s.setKey x k e).maps = s.maps := rfl
@[simp] theorem State.setKey_chanMaps (x k : Nat) (e : KeyEntry) : (s.setKey x k e).chanMaps = s.chanMaps := rfl
@[simp] theorem State.setKey_packets (x k : Nat) (e : KeyEntry) : (s.setKey x k e).packets = s.packets := rfl
@[simp] theorem State.setKey_rr (x k : Nat) (e : KeyEntry) : (s.setKey x k e).rr = s.rr := rfl
@[simp] theorem State.setKey_verdicts (x k : Nat) (e : KeyEntry) : (s.setKey x k e).verdicts = s.verdicts := rfl
@[simp] theorem State.setKey_delivered (x k : Nat) (e : KeyEntry) : (s.setKey x k e).delivered = s.delivered := rfl
@[simp] theorem State.setKey_subs (x k : Nat) (e : KeyEntry) : (s.setKey x k e).subs = s.subs := rfl
@[simp] theorem State.setKey_udp (x k : Nat) (e : KeyEntry) : (s.setKey x k e).udp = s.udp := rfl
@[simp] theorem State.setKey_mccs (x k : Nat) (e : KeyEntry) : (s.setKey x k e).mccs = s.mccs := rfl
@[simp] theorem State.setKey_dram (x k : Nat) (e : KeyEntry) : (s.setKey x k e).dram = s.dram := rfl
@[simp] theorem State.setKey_dramClean (x k : Nat) (e : KeyEntry) : (s.setKey x k e).dramClean = s.dramClean := rfl
@[simp] theorem State.setKey_retireQ (x k : Nat) (e : KeyEntry) : (s.setKey x k e).retireQ = s.retireQ := rfl
@[simp] theorem State.setKey_job (x k : Nat) (e : KeyEntry) : (s.setKey x k e).job = s.job := rfl
@[simp] theorem State.setKey_reqs (x k : Nat) (e : KeyEntry) : (s.setKey x k e).reqs = s.reqs := rfl
@[simp] theorem State.setKey_msgs (x k : Nat) (e : KeyEntry) : (s.setKey x k e).msgs = s.msgs := rfl
@[simp] theorem State.setKey_tagCtr (x k : Nat) (e : KeyEntry) : (s.setKey x k e).tagCtr = s.tagCtr := rfl
@[simp] theorem State.setKey_attns (x k : Nat) (e : KeyEntry) : (s.setKey x k e).attns = s.attns := rfl
@[simp] theorem State.setKey_gens (x k : Nat) (e : KeyEntry) : (s.setKey x k e).gens = s.gens := rfl
@[simp] theorem State.setKey_pages (x k : Nat) (e : KeyEntry) : (s.setKey x k e).pages = s.pages := rfl
@[simp] theorem State.setKey_chunks (x k : Nat) (e : KeyEntry) : (s.setKey x k e).chunks = s.chunks := rfl
@[simp] theorem State.setKey_oldDirs (x k : Nat) (e : KeyEntry) : (s.setKey x k e).oldDirs = s.oldDirs := rfl
@[simp] theorem State.setKey_heldQ (x k : Nat) (e : KeyEntry) : (s.setKey x k e).heldQ = s.heldQ := rfl
@[simp] theorem State.setKey_closes (x k : Nat) (e : KeyEntry) : (s.setKey x k e).closes = s.closes := rfl
@[simp] theorem State.setKey_binds (x k : Nat) (e : KeyEntry) : (s.setKey x k e).binds = s.binds := rfl
@[simp] theorem State.setKey_ports (x k : Nat) (e : KeyEntry) : (s.setKey x k e).ports = s.ports := rfl
@[simp] theorem State.setKey_stepPend (x k : Nat) (e : KeyEntry) : (s.setKey x k e).stepPend = s.stepPend := rfl
@[simp] theorem State.setKey_ptp (x k : Nat) (e : KeyEntry) : (s.setKey x k e).ptp = s.ptp := rfl
@[simp] theorem State.setKey_regions (x k : Nat) (e : KeyEntry) : (s.setKey x k e).regions = s.regions := rfl
@[simp] theorem State.setKey_reqOrder (x k : Nat) (e : KeyEntry) : (s.setKey x k e).reqOrder = s.reqOrder := rfl
@[simp] theorem State.setKey_ctl (x k : Nat) (e : KeyEntry) : (s.setKey x k e).ctl = s.ctl := rfl
@[simp] theorem State.setKey_mtr (x k : Nat) (e : KeyEntry) : (s.setKey x k e).mtr = s.mtr := rfl
@[simp] theorem State.setKey_rcp (x k : Nat) (e : KeyEntry) : (s.setKey x k e).rcp = s.rcp := rfl
@[simp] theorem State.setKey_sealLoop (x k : Nat) (e : KeyEntry) : (s.setKey x k e).sealLoop = s.sealLoop := rfl
@[simp] theorem State.setKey_conns (x k : Nat) (e : KeyEntry) : (s.setKey x k e).conns = s.conns := rfl
@[simp] theorem State.setKey_contents (x k : Nat) (e : KeyEntry) : (s.setKey x k e).contents = s.contents := rfl
@[simp] theorem State.setKey_replies (x k : Nat) (e : KeyEntry) : (s.setKey x k e).replies = s.replies := rfl
@[simp] theorem State.setKey_streamed (x k : Nat) (e : KeyEntry) : (s.setKey x k e).streamed = s.streamed := rfl
@[simp] theorem State.setKey_bc (x k : Nat) (e : KeyEntry) : (s.setKey x k e).bc = s.bc := rfl
@[simp] theorem State.setKey_bcast (x k : Nat) (e : KeyEntry) : (s.setKey x k e).bcast = s.bcast := rfl
@[simp] theorem State.setKey_staging (x k : Nat) (e : KeyEntry) : (s.setKey x k e).staging = s.staging := rfl
@[simp] theorem State.setKey_nv (x k : Nat) (e : KeyEntry) : (s.setKey x k e).nv = s.nv := rfl
@[simp] theorem State.setKey_boot (x k : Nat) (e : KeyEntry) : (s.setKey x k e).boot = s.boot := rfl
@[simp] theorem State.setKey_pair (x k : Nat) (e : KeyEntry) : (s.setKey x k e).pair = s.pair := rfl
@[simp] theorem State.setKey_i3c (x k : Nat) (e : KeyEntry) : (s.setKey x k e).i3c = s.i3c := rfl
@[simp] theorem State.setKey_accesses (x k : Nat) (e : KeyEntry) : (s.setKey x k e).accesses = s.accesses := rfl
@[simp] theorem State.setKey_rsps (x k : Nat) (e : KeyEntry) : (s.setKey x k e).rsps = s.rsps := rfl
@[simp] theorem State.setKey_svc (x k : Nat) (e : KeyEntry) : (s.setKey x k e).svc = s.svc := rfl
@[simp] theorem State.setKey_svcWait (x k : Nat) (e : KeyEntry) : (s.setKey x k e).svcWait = s.svcWait := rfl

@[simp] theorem State.setObj_pending (x n : Nat) (o : SyncObj) : (s.setObj x n o).pending = s.pending := rfl
@[simp] theorem State.setObj_outbox (x n : Nat) (o : SyncObj) : (s.setObj x n o).outbox = s.outbox := rfl
@[simp] theorem State.setObj_freeCtr (x n : Nat) (o : SyncObj) : (s.setObj x n o).freeCtr = s.freeCtr := rfl
@[simp] theorem State.setObj_time (x n : Nat) (o : SyncObj) : (s.setObj x n o).time = s.time := rfl
@[simp] theorem State.setObj_facets (x n : Nat) (o : SyncObj) : (s.setObj x n o).facets = s.facets := rfl
@[simp] theorem State.setObj_regs (x n : Nat) (o : SyncObj) : (s.setObj x n o).regs = s.regs := rfl
@[simp] theorem State.setObj_staged (x n : Nat) (o : SyncObj) : (s.setObj x n o).staged = s.staged := rfl
@[simp] theorem State.setObj_blks (x n : Nat) (o : SyncObj) : (s.setObj x n o).blks = s.blks := rfl
@[simp] theorem State.setObj_hdrs (x n : Nat) (o : SyncObj) : (s.setObj x n o).hdrs = s.hdrs := rfl
@[simp] theorem State.setObj_latches (x n : Nat) (o : SyncObj) : (s.setObj x n o).latches = s.latches := rfl
@[simp] theorem State.setObj_log (x n : Nat) (o : SyncObj) : (s.setObj x n o).log = s.log := rfl
@[simp] theorem State.setObj_logSeq (x n : Nat) (o : SyncObj) : (s.setObj x n o).logSeq = s.logSeq := rfl
@[simp] theorem State.setObj_colls (x n : Nat) (o : SyncObj) : (s.setObj x n o).colls = s.colls := rfl
@[simp] theorem State.setObj_loupes (x n : Nat) (o : SyncObj) : (s.setObj x n o).loupes = s.loupes := rfl
@[simp] theorem State.setObj_origins (x n : Nat) (o : SyncObj) : (s.setObj x n o).origins = s.origins := rfl
@[simp] theorem State.setObj_tiles (x n : Nat) (o : SyncObj) : (s.setObj x n o).tiles = s.tiles := rfl
@[simp] theorem State.setObj_keys (x n : Nat) (o : SyncObj) : (s.setObj x n o).keys = s.keys := rfl
@[simp] theorem State.setObj_spad (x n : Nat) (o : SyncObj) : (s.setObj x n o).spad = s.spad := rfl
@[simp] theorem State.setObj_spadPoison (x n : Nat) (o : SyncObj) : (s.setObj x n o).spadPoison = s.spadPoison := rfl
@[simp] theorem State.setObj_imem (x n : Nat) (o : SyncObj) : (s.setObj x n o).imem = s.imem := rfl
@[simp] theorem State.setObj_telActive (x n : Nat) (o : SyncObj) : (s.setObj x n o).telActive = s.telActive := rfl
@[simp] theorem State.setObj_telFrozen (x n : Nat) (o : SyncObj) : (s.setObj x n o).telFrozen = s.telFrozen := rfl
@[simp] theorem State.setObj_telSwap (x n : Nat) (o : SyncObj) : (s.setObj x n o).telSwap = s.telSwap := rfl
@[simp] theorem State.setObj_rtrTbl (x n : Nat) (o : SyncObj) : (s.setObj x n o).rtrTbl = s.rtrTbl := rfl
@[simp] theorem State.setObj_slotCtr (x n : Nat) (o : SyncObj) : (s.setObj x n o).slotCtr = s.slotCtr := rfl
@[simp] theorem State.setObj_inbuf (x n : Nat) (o : SyncObj) : (s.setObj x n o).inbuf = s.inbuf := rfl
@[simp] theorem State.setObj_order (x n : Nat) (o : SyncObj) : (s.setObj x n o).order = s.order := rfl
@[simp] theorem State.setObj_links (x n : Nat) (o : SyncObj) : (s.setObj x n o).links = s.links := rfl
@[simp] theorem State.setObj_maps (x n : Nat) (o : SyncObj) : (s.setObj x n o).maps = s.maps := rfl
@[simp] theorem State.setObj_chanMaps (x n : Nat) (o : SyncObj) : (s.setObj x n o).chanMaps = s.chanMaps := rfl
@[simp] theorem State.setObj_packets (x n : Nat) (o : SyncObj) : (s.setObj x n o).packets = s.packets := rfl
@[simp] theorem State.setObj_rr (x n : Nat) (o : SyncObj) : (s.setObj x n o).rr = s.rr := rfl
@[simp] theorem State.setObj_verdicts (x n : Nat) (o : SyncObj) : (s.setObj x n o).verdicts = s.verdicts := rfl
@[simp] theorem State.setObj_delivered (x n : Nat) (o : SyncObj) : (s.setObj x n o).delivered = s.delivered := rfl
@[simp] theorem State.setObj_subs (x n : Nat) (o : SyncObj) : (s.setObj x n o).subs = s.subs := rfl
@[simp] theorem State.setObj_udp (x n : Nat) (o : SyncObj) : (s.setObj x n o).udp = s.udp := rfl
@[simp] theorem State.setObj_mccs (x n : Nat) (o : SyncObj) : (s.setObj x n o).mccs = s.mccs := rfl
@[simp] theorem State.setObj_dram (x n : Nat) (o : SyncObj) : (s.setObj x n o).dram = s.dram := rfl
@[simp] theorem State.setObj_dramClean (x n : Nat) (o : SyncObj) : (s.setObj x n o).dramClean = s.dramClean := rfl
@[simp] theorem State.setObj_retireQ (x n : Nat) (o : SyncObj) : (s.setObj x n o).retireQ = s.retireQ := rfl
@[simp] theorem State.setObj_job (x n : Nat) (o : SyncObj) : (s.setObj x n o).job = s.job := rfl
@[simp] theorem State.setObj_reqs (x n : Nat) (o : SyncObj) : (s.setObj x n o).reqs = s.reqs := rfl
@[simp] theorem State.setObj_msgs (x n : Nat) (o : SyncObj) : (s.setObj x n o).msgs = s.msgs := rfl
@[simp] theorem State.setObj_tagCtr (x n : Nat) (o : SyncObj) : (s.setObj x n o).tagCtr = s.tagCtr := rfl
@[simp] theorem State.setObj_attns (x n : Nat) (o : SyncObj) : (s.setObj x n o).attns = s.attns := rfl
@[simp] theorem State.setObj_gens (x n : Nat) (o : SyncObj) : (s.setObj x n o).gens = s.gens := rfl
@[simp] theorem State.setObj_pages (x n : Nat) (o : SyncObj) : (s.setObj x n o).pages = s.pages := rfl
@[simp] theorem State.setObj_chunks (x n : Nat) (o : SyncObj) : (s.setObj x n o).chunks = s.chunks := rfl
@[simp] theorem State.setObj_oldDirs (x n : Nat) (o : SyncObj) : (s.setObj x n o).oldDirs = s.oldDirs := rfl
@[simp] theorem State.setObj_heldQ (x n : Nat) (o : SyncObj) : (s.setObj x n o).heldQ = s.heldQ := rfl
@[simp] theorem State.setObj_closes (x n : Nat) (o : SyncObj) : (s.setObj x n o).closes = s.closes := rfl
@[simp] theorem State.setObj_binds (x n : Nat) (o : SyncObj) : (s.setObj x n o).binds = s.binds := rfl
@[simp] theorem State.setObj_ports (x n : Nat) (o : SyncObj) : (s.setObj x n o).ports = s.ports := rfl
@[simp] theorem State.setObj_stepPend (x n : Nat) (o : SyncObj) : (s.setObj x n o).stepPend = s.stepPend := rfl
@[simp] theorem State.setObj_ptp (x n : Nat) (o : SyncObj) : (s.setObj x n o).ptp = s.ptp := rfl
@[simp] theorem State.setObj_regions (x n : Nat) (o : SyncObj) : (s.setObj x n o).regions = s.regions := rfl
@[simp] theorem State.setObj_reqOrder (x n : Nat) (o : SyncObj) : (s.setObj x n o).reqOrder = s.reqOrder := rfl
@[simp] theorem State.setObj_ctl (x n : Nat) (o : SyncObj) : (s.setObj x n o).ctl = s.ctl := rfl
@[simp] theorem State.setObj_mtr (x n : Nat) (o : SyncObj) : (s.setObj x n o).mtr = s.mtr := rfl
@[simp] theorem State.setObj_rcp (x n : Nat) (o : SyncObj) : (s.setObj x n o).rcp = s.rcp := rfl
@[simp] theorem State.setObj_sealLoop (x n : Nat) (o : SyncObj) : (s.setObj x n o).sealLoop = s.sealLoop := rfl
@[simp] theorem State.setObj_conns (x n : Nat) (o : SyncObj) : (s.setObj x n o).conns = s.conns := rfl
@[simp] theorem State.setObj_contents (x n : Nat) (o : SyncObj) : (s.setObj x n o).contents = s.contents := rfl
@[simp] theorem State.setObj_replies (x n : Nat) (o : SyncObj) : (s.setObj x n o).replies = s.replies := rfl
@[simp] theorem State.setObj_streamed (x n : Nat) (o : SyncObj) : (s.setObj x n o).streamed = s.streamed := rfl
@[simp] theorem State.setObj_bc (x n : Nat) (o : SyncObj) : (s.setObj x n o).bc = s.bc := rfl
@[simp] theorem State.setObj_bcast (x n : Nat) (o : SyncObj) : (s.setObj x n o).bcast = s.bcast := rfl
@[simp] theorem State.setObj_staging (x n : Nat) (o : SyncObj) : (s.setObj x n o).staging = s.staging := rfl
@[simp] theorem State.setObj_nv (x n : Nat) (o : SyncObj) : (s.setObj x n o).nv = s.nv := rfl
@[simp] theorem State.setObj_boot (x n : Nat) (o : SyncObj) : (s.setObj x n o).boot = s.boot := rfl
@[simp] theorem State.setObj_pair (x n : Nat) (o : SyncObj) : (s.setObj x n o).pair = s.pair := rfl
@[simp] theorem State.setObj_i3c (x n : Nat) (o : SyncObj) : (s.setObj x n o).i3c = s.i3c := rfl
@[simp] theorem State.setObj_accesses (x n : Nat) (o : SyncObj) : (s.setObj x n o).accesses = s.accesses := rfl
@[simp] theorem State.setObj_rsps (x n : Nat) (o : SyncObj) : (s.setObj x n o).rsps = s.rsps := rfl
@[simp] theorem State.setObj_svc (x n : Nat) (o : SyncObj) : (s.setObj x n o).svc = s.svc := rfl
@[simp] theorem State.setObj_svcWait (x n : Nat) (o : SyncObj) : (s.setObj x n o).svcWait = s.svcWait := rfl

@[simp] theorem State.setMap_pending (x : Nat) (m : RtrMap) : (s.setMap x m).pending = s.pending := rfl
@[simp] theorem State.setMap_outbox (x : Nat) (m : RtrMap) : (s.setMap x m).outbox = s.outbox := rfl
@[simp] theorem State.setMap_freeCtr (x : Nat) (m : RtrMap) : (s.setMap x m).freeCtr = s.freeCtr := rfl
@[simp] theorem State.setMap_time (x : Nat) (m : RtrMap) : (s.setMap x m).time = s.time := rfl
@[simp] theorem State.setMap_facets (x : Nat) (m : RtrMap) : (s.setMap x m).facets = s.facets := rfl
@[simp] theorem State.setMap_regs (x : Nat) (m : RtrMap) : (s.setMap x m).regs = s.regs := rfl
@[simp] theorem State.setMap_staged (x : Nat) (m : RtrMap) : (s.setMap x m).staged = s.staged := rfl
@[simp] theorem State.setMap_blks (x : Nat) (m : RtrMap) : (s.setMap x m).blks = s.blks := rfl
@[simp] theorem State.setMap_hdrs (x : Nat) (m : RtrMap) : (s.setMap x m).hdrs = s.hdrs := rfl
@[simp] theorem State.setMap_latches (x : Nat) (m : RtrMap) : (s.setMap x m).latches = s.latches := rfl
@[simp] theorem State.setMap_log (x : Nat) (m : RtrMap) : (s.setMap x m).log = s.log := rfl
@[simp] theorem State.setMap_logSeq (x : Nat) (m : RtrMap) : (s.setMap x m).logSeq = s.logSeq := rfl
@[simp] theorem State.setMap_colls (x : Nat) (m : RtrMap) : (s.setMap x m).colls = s.colls := rfl
@[simp] theorem State.setMap_loupes (x : Nat) (m : RtrMap) : (s.setMap x m).loupes = s.loupes := rfl
@[simp] theorem State.setMap_origins (x : Nat) (m : RtrMap) : (s.setMap x m).origins = s.origins := rfl
@[simp] theorem State.setMap_tiles (x : Nat) (m : RtrMap) : (s.setMap x m).tiles = s.tiles := rfl
@[simp] theorem State.setMap_sync (x : Nat) (m : RtrMap) : (s.setMap x m).sync = s.sync := rfl
@[simp] theorem State.setMap_keys (x : Nat) (m : RtrMap) : (s.setMap x m).keys = s.keys := rfl
@[simp] theorem State.setMap_spad (x : Nat) (m : RtrMap) : (s.setMap x m).spad = s.spad := rfl
@[simp] theorem State.setMap_spadPoison (x : Nat) (m : RtrMap) : (s.setMap x m).spadPoison = s.spadPoison := rfl
@[simp] theorem State.setMap_imem (x : Nat) (m : RtrMap) : (s.setMap x m).imem = s.imem := rfl
@[simp] theorem State.setMap_telActive (x : Nat) (m : RtrMap) : (s.setMap x m).telActive = s.telActive := rfl
@[simp] theorem State.setMap_telFrozen (x : Nat) (m : RtrMap) : (s.setMap x m).telFrozen = s.telFrozen := rfl
@[simp] theorem State.setMap_telSwap (x : Nat) (m : RtrMap) : (s.setMap x m).telSwap = s.telSwap := rfl
@[simp] theorem State.setMap_rtrTbl (x : Nat) (m : RtrMap) : (s.setMap x m).rtrTbl = s.rtrTbl := rfl
@[simp] theorem State.setMap_slotCtr (x : Nat) (m : RtrMap) : (s.setMap x m).slotCtr = s.slotCtr := rfl
@[simp] theorem State.setMap_inbuf (x : Nat) (m : RtrMap) : (s.setMap x m).inbuf = s.inbuf := rfl
@[simp] theorem State.setMap_order (x : Nat) (m : RtrMap) : (s.setMap x m).order = s.order := rfl
@[simp] theorem State.setMap_links (x : Nat) (m : RtrMap) : (s.setMap x m).links = s.links := rfl
@[simp] theorem State.setMap_chanMaps (x : Nat) (m : RtrMap) : (s.setMap x m).chanMaps = s.chanMaps := rfl
@[simp] theorem State.setMap_packets (x : Nat) (m : RtrMap) : (s.setMap x m).packets = s.packets := rfl
@[simp] theorem State.setMap_rr (x : Nat) (m : RtrMap) : (s.setMap x m).rr = s.rr := rfl
@[simp] theorem State.setMap_verdicts (x : Nat) (m : RtrMap) : (s.setMap x m).verdicts = s.verdicts := rfl
@[simp] theorem State.setMap_delivered (x : Nat) (m : RtrMap) : (s.setMap x m).delivered = s.delivered := rfl
@[simp] theorem State.setMap_subs (x : Nat) (m : RtrMap) : (s.setMap x m).subs = s.subs := rfl
@[simp] theorem State.setMap_udp (x : Nat) (m : RtrMap) : (s.setMap x m).udp = s.udp := rfl
@[simp] theorem State.setMap_mccs (x : Nat) (m : RtrMap) : (s.setMap x m).mccs = s.mccs := rfl
@[simp] theorem State.setMap_dram (x : Nat) (m : RtrMap) : (s.setMap x m).dram = s.dram := rfl
@[simp] theorem State.setMap_dramClean (x : Nat) (m : RtrMap) : (s.setMap x m).dramClean = s.dramClean := rfl
@[simp] theorem State.setMap_retireQ (x : Nat) (m : RtrMap) : (s.setMap x m).retireQ = s.retireQ := rfl
@[simp] theorem State.setMap_job (x : Nat) (m : RtrMap) : (s.setMap x m).job = s.job := rfl
@[simp] theorem State.setMap_reqs (x : Nat) (m : RtrMap) : (s.setMap x m).reqs = s.reqs := rfl
@[simp] theorem State.setMap_msgs (x : Nat) (m : RtrMap) : (s.setMap x m).msgs = s.msgs := rfl
@[simp] theorem State.setMap_tagCtr (x : Nat) (m : RtrMap) : (s.setMap x m).tagCtr = s.tagCtr := rfl
@[simp] theorem State.setMap_attns (x : Nat) (m : RtrMap) : (s.setMap x m).attns = s.attns := rfl
@[simp] theorem State.setMap_gens (x : Nat) (m : RtrMap) : (s.setMap x m).gens = s.gens := rfl
@[simp] theorem State.setMap_pages (x : Nat) (m : RtrMap) : (s.setMap x m).pages = s.pages := rfl
@[simp] theorem State.setMap_chunks (x : Nat) (m : RtrMap) : (s.setMap x m).chunks = s.chunks := rfl
@[simp] theorem State.setMap_oldDirs (x : Nat) (m : RtrMap) : (s.setMap x m).oldDirs = s.oldDirs := rfl
@[simp] theorem State.setMap_heldQ (x : Nat) (m : RtrMap) : (s.setMap x m).heldQ = s.heldQ := rfl
@[simp] theorem State.setMap_closes (x : Nat) (m : RtrMap) : (s.setMap x m).closes = s.closes := rfl
@[simp] theorem State.setMap_binds (x : Nat) (m : RtrMap) : (s.setMap x m).binds = s.binds := rfl
@[simp] theorem State.setMap_ports (x : Nat) (m : RtrMap) : (s.setMap x m).ports = s.ports := rfl
@[simp] theorem State.setMap_stepPend (x : Nat) (m : RtrMap) : (s.setMap x m).stepPend = s.stepPend := rfl
@[simp] theorem State.setMap_ptp (x : Nat) (m : RtrMap) : (s.setMap x m).ptp = s.ptp := rfl
@[simp] theorem State.setMap_regions (x : Nat) (m : RtrMap) : (s.setMap x m).regions = s.regions := rfl
@[simp] theorem State.setMap_reqOrder (x : Nat) (m : RtrMap) : (s.setMap x m).reqOrder = s.reqOrder := rfl
@[simp] theorem State.setMap_ctl (x : Nat) (m : RtrMap) : (s.setMap x m).ctl = s.ctl := rfl
@[simp] theorem State.setMap_mtr (x : Nat) (m : RtrMap) : (s.setMap x m).mtr = s.mtr := rfl
@[simp] theorem State.setMap_rcp (x : Nat) (m : RtrMap) : (s.setMap x m).rcp = s.rcp := rfl
@[simp] theorem State.setMap_sealLoop (x : Nat) (m : RtrMap) : (s.setMap x m).sealLoop = s.sealLoop := rfl
@[simp] theorem State.setMap_conns (x : Nat) (m : RtrMap) : (s.setMap x m).conns = s.conns := rfl
@[simp] theorem State.setMap_contents (x : Nat) (m : RtrMap) : (s.setMap x m).contents = s.contents := rfl
@[simp] theorem State.setMap_replies (x : Nat) (m : RtrMap) : (s.setMap x m).replies = s.replies := rfl
@[simp] theorem State.setMap_streamed (x : Nat) (m : RtrMap) : (s.setMap x m).streamed = s.streamed := rfl
@[simp] theorem State.setMap_bc (x : Nat) (m : RtrMap) : (s.setMap x m).bc = s.bc := rfl
@[simp] theorem State.setMap_bcast (x : Nat) (m : RtrMap) : (s.setMap x m).bcast = s.bcast := rfl
@[simp] theorem State.setMap_staging (x : Nat) (m : RtrMap) : (s.setMap x m).staging = s.staging := rfl
@[simp] theorem State.setMap_nv (x : Nat) (m : RtrMap) : (s.setMap x m).nv = s.nv := rfl
@[simp] theorem State.setMap_boot (x : Nat) (m : RtrMap) : (s.setMap x m).boot = s.boot := rfl
@[simp] theorem State.setMap_pair (x : Nat) (m : RtrMap) : (s.setMap x m).pair = s.pair := rfl
@[simp] theorem State.setMap_i3c (x : Nat) (m : RtrMap) : (s.setMap x m).i3c = s.i3c := rfl
@[simp] theorem State.setMap_accesses (x : Nat) (m : RtrMap) : (s.setMap x m).accesses = s.accesses := rfl
@[simp] theorem State.setMap_rsps (x : Nat) (m : RtrMap) : (s.setMap x m).rsps = s.rsps := rfl
@[simp] theorem State.setMap_svc (x : Nat) (m : RtrMap) : (s.setMap x m).svc = s.svc := rfl
@[simp] theorem State.setMap_svcWait (x : Nat) (m : RtrMap) : (s.setMap x m).svcWait = s.svcWait := rfl

@[simp] theorem State.setLink_pending (x d : Nat) (l : Link) : (s.setLink x d l).pending = s.pending := rfl
@[simp] theorem State.setLink_outbox (x d : Nat) (l : Link) : (s.setLink x d l).outbox = s.outbox := rfl
@[simp] theorem State.setLink_freeCtr (x d : Nat) (l : Link) : (s.setLink x d l).freeCtr = s.freeCtr := rfl
@[simp] theorem State.setLink_time (x d : Nat) (l : Link) : (s.setLink x d l).time = s.time := rfl
@[simp] theorem State.setLink_facets (x d : Nat) (l : Link) : (s.setLink x d l).facets = s.facets := rfl
@[simp] theorem State.setLink_regs (x d : Nat) (l : Link) : (s.setLink x d l).regs = s.regs := rfl
@[simp] theorem State.setLink_staged (x d : Nat) (l : Link) : (s.setLink x d l).staged = s.staged := rfl
@[simp] theorem State.setLink_blks (x d : Nat) (l : Link) : (s.setLink x d l).blks = s.blks := rfl
@[simp] theorem State.setLink_hdrs (x d : Nat) (l : Link) : (s.setLink x d l).hdrs = s.hdrs := rfl
@[simp] theorem State.setLink_latches (x d : Nat) (l : Link) : (s.setLink x d l).latches = s.latches := rfl
@[simp] theorem State.setLink_log (x d : Nat) (l : Link) : (s.setLink x d l).log = s.log := rfl
@[simp] theorem State.setLink_logSeq (x d : Nat) (l : Link) : (s.setLink x d l).logSeq = s.logSeq := rfl
@[simp] theorem State.setLink_colls (x d : Nat) (l : Link) : (s.setLink x d l).colls = s.colls := rfl
@[simp] theorem State.setLink_loupes (x d : Nat) (l : Link) : (s.setLink x d l).loupes = s.loupes := rfl
@[simp] theorem State.setLink_origins (x d : Nat) (l : Link) : (s.setLink x d l).origins = s.origins := rfl
@[simp] theorem State.setLink_tiles (x d : Nat) (l : Link) : (s.setLink x d l).tiles = s.tiles := rfl
@[simp] theorem State.setLink_sync (x d : Nat) (l : Link) : (s.setLink x d l).sync = s.sync := rfl
@[simp] theorem State.setLink_keys (x d : Nat) (l : Link) : (s.setLink x d l).keys = s.keys := rfl
@[simp] theorem State.setLink_spad (x d : Nat) (l : Link) : (s.setLink x d l).spad = s.spad := rfl
@[simp] theorem State.setLink_spadPoison (x d : Nat) (l : Link) : (s.setLink x d l).spadPoison = s.spadPoison := rfl
@[simp] theorem State.setLink_imem (x d : Nat) (l : Link) : (s.setLink x d l).imem = s.imem := rfl
@[simp] theorem State.setLink_telActive (x d : Nat) (l : Link) : (s.setLink x d l).telActive = s.telActive := rfl
@[simp] theorem State.setLink_telFrozen (x d : Nat) (l : Link) : (s.setLink x d l).telFrozen = s.telFrozen := rfl
@[simp] theorem State.setLink_telSwap (x d : Nat) (l : Link) : (s.setLink x d l).telSwap = s.telSwap := rfl
@[simp] theorem State.setLink_rtrTbl (x d : Nat) (l : Link) : (s.setLink x d l).rtrTbl = s.rtrTbl := rfl
@[simp] theorem State.setLink_slotCtr (x d : Nat) (l : Link) : (s.setLink x d l).slotCtr = s.slotCtr := rfl
@[simp] theorem State.setLink_inbuf (x d : Nat) (l : Link) : (s.setLink x d l).inbuf = s.inbuf := rfl
@[simp] theorem State.setLink_order (x d : Nat) (l : Link) : (s.setLink x d l).order = s.order := rfl
@[simp] theorem State.setLink_maps (x d : Nat) (l : Link) : (s.setLink x d l).maps = s.maps := rfl
@[simp] theorem State.setLink_chanMaps (x d : Nat) (l : Link) : (s.setLink x d l).chanMaps = s.chanMaps := rfl
@[simp] theorem State.setLink_packets (x d : Nat) (l : Link) : (s.setLink x d l).packets = s.packets := rfl
@[simp] theorem State.setLink_rr (x d : Nat) (l : Link) : (s.setLink x d l).rr = s.rr := rfl
@[simp] theorem State.setLink_verdicts (x d : Nat) (l : Link) : (s.setLink x d l).verdicts = s.verdicts := rfl
@[simp] theorem State.setLink_delivered (x d : Nat) (l : Link) : (s.setLink x d l).delivered = s.delivered := rfl
@[simp] theorem State.setLink_subs (x d : Nat) (l : Link) : (s.setLink x d l).subs = s.subs := rfl
@[simp] theorem State.setLink_udp (x d : Nat) (l : Link) : (s.setLink x d l).udp = s.udp := rfl
@[simp] theorem State.setLink_mccs (x d : Nat) (l : Link) : (s.setLink x d l).mccs = s.mccs := rfl
@[simp] theorem State.setLink_dram (x d : Nat) (l : Link) : (s.setLink x d l).dram = s.dram := rfl
@[simp] theorem State.setLink_dramClean (x d : Nat) (l : Link) : (s.setLink x d l).dramClean = s.dramClean := rfl
@[simp] theorem State.setLink_retireQ (x d : Nat) (l : Link) : (s.setLink x d l).retireQ = s.retireQ := rfl
@[simp] theorem State.setLink_job (x d : Nat) (l : Link) : (s.setLink x d l).job = s.job := rfl
@[simp] theorem State.setLink_reqs (x d : Nat) (l : Link) : (s.setLink x d l).reqs = s.reqs := rfl
@[simp] theorem State.setLink_msgs (x d : Nat) (l : Link) : (s.setLink x d l).msgs = s.msgs := rfl
@[simp] theorem State.setLink_tagCtr (x d : Nat) (l : Link) : (s.setLink x d l).tagCtr = s.tagCtr := rfl
@[simp] theorem State.setLink_attns (x d : Nat) (l : Link) : (s.setLink x d l).attns = s.attns := rfl
@[simp] theorem State.setLink_gens (x d : Nat) (l : Link) : (s.setLink x d l).gens = s.gens := rfl
@[simp] theorem State.setLink_pages (x d : Nat) (l : Link) : (s.setLink x d l).pages = s.pages := rfl
@[simp] theorem State.setLink_chunks (x d : Nat) (l : Link) : (s.setLink x d l).chunks = s.chunks := rfl
@[simp] theorem State.setLink_oldDirs (x d : Nat) (l : Link) : (s.setLink x d l).oldDirs = s.oldDirs := rfl
@[simp] theorem State.setLink_heldQ (x d : Nat) (l : Link) : (s.setLink x d l).heldQ = s.heldQ := rfl
@[simp] theorem State.setLink_closes (x d : Nat) (l : Link) : (s.setLink x d l).closes = s.closes := rfl
@[simp] theorem State.setLink_binds (x d : Nat) (l : Link) : (s.setLink x d l).binds = s.binds := rfl
@[simp] theorem State.setLink_ports (x d : Nat) (l : Link) : (s.setLink x d l).ports = s.ports := rfl
@[simp] theorem State.setLink_stepPend (x d : Nat) (l : Link) : (s.setLink x d l).stepPend = s.stepPend := rfl
@[simp] theorem State.setLink_ptp (x d : Nat) (l : Link) : (s.setLink x d l).ptp = s.ptp := rfl
@[simp] theorem State.setLink_regions (x d : Nat) (l : Link) : (s.setLink x d l).regions = s.regions := rfl
@[simp] theorem State.setLink_reqOrder (x d : Nat) (l : Link) : (s.setLink x d l).reqOrder = s.reqOrder := rfl
@[simp] theorem State.setLink_ctl (x d : Nat) (l : Link) : (s.setLink x d l).ctl = s.ctl := rfl
@[simp] theorem State.setLink_mtr (x d : Nat) (l : Link) : (s.setLink x d l).mtr = s.mtr := rfl
@[simp] theorem State.setLink_rcp (x d : Nat) (l : Link) : (s.setLink x d l).rcp = s.rcp := rfl
@[simp] theorem State.setLink_sealLoop (x d : Nat) (l : Link) : (s.setLink x d l).sealLoop = s.sealLoop := rfl
@[simp] theorem State.setLink_conns (x d : Nat) (l : Link) : (s.setLink x d l).conns = s.conns := rfl
@[simp] theorem State.setLink_contents (x d : Nat) (l : Link) : (s.setLink x d l).contents = s.contents := rfl
@[simp] theorem State.setLink_replies (x d : Nat) (l : Link) : (s.setLink x d l).replies = s.replies := rfl
@[simp] theorem State.setLink_streamed (x d : Nat) (l : Link) : (s.setLink x d l).streamed = s.streamed := rfl
@[simp] theorem State.setLink_bc (x d : Nat) (l : Link) : (s.setLink x d l).bc = s.bc := rfl
@[simp] theorem State.setLink_bcast (x d : Nat) (l : Link) : (s.setLink x d l).bcast = s.bcast := rfl
@[simp] theorem State.setLink_staging (x d : Nat) (l : Link) : (s.setLink x d l).staging = s.staging := rfl
@[simp] theorem State.setLink_nv (x d : Nat) (l : Link) : (s.setLink x d l).nv = s.nv := rfl
@[simp] theorem State.setLink_boot (x d : Nat) (l : Link) : (s.setLink x d l).boot = s.boot := rfl
@[simp] theorem State.setLink_pair (x d : Nat) (l : Link) : (s.setLink x d l).pair = s.pair := rfl
@[simp] theorem State.setLink_i3c (x d : Nat) (l : Link) : (s.setLink x d l).i3c = s.i3c := rfl
@[simp] theorem State.setLink_accesses (x d : Nat) (l : Link) : (s.setLink x d l).accesses = s.accesses := rfl
@[simp] theorem State.setLink_rsps (x d : Nat) (l : Link) : (s.setLink x d l).rsps = s.rsps := rfl
@[simp] theorem State.setLink_svc (x d : Nat) (l : Link) : (s.setLink x d l).svc = s.svc := rfl
@[simp] theorem State.setLink_svcWait (x d : Nat) (l : Link) : (s.setLink x d l).svcWait = s.svcWait := rfl

@[simp] theorem State.inject_pending (p : Packet) : (s.inject p).pending = s.pending := rfl
@[simp] theorem State.inject_outbox (p : Packet) : (s.inject p).outbox = s.outbox := rfl
@[simp] theorem State.inject_freeCtr (p : Packet) : (s.inject p).freeCtr = s.freeCtr := rfl
@[simp] theorem State.inject_time (p : Packet) : (s.inject p).time = s.time := rfl
@[simp] theorem State.inject_facets (p : Packet) : (s.inject p).facets = s.facets := rfl
@[simp] theorem State.inject_regs (p : Packet) : (s.inject p).regs = s.regs := rfl
@[simp] theorem State.inject_staged (p : Packet) : (s.inject p).staged = s.staged := rfl
@[simp] theorem State.inject_blks (p : Packet) : (s.inject p).blks = s.blks := rfl
@[simp] theorem State.inject_hdrs (p : Packet) : (s.inject p).hdrs = s.hdrs := rfl
@[simp] theorem State.inject_latches (p : Packet) : (s.inject p).latches = s.latches := rfl
@[simp] theorem State.inject_log (p : Packet) : (s.inject p).log = s.log := rfl
@[simp] theorem State.inject_logSeq (p : Packet) : (s.inject p).logSeq = s.logSeq := rfl
@[simp] theorem State.inject_colls (p : Packet) : (s.inject p).colls = s.colls := rfl
@[simp] theorem State.inject_loupes (p : Packet) : (s.inject p).loupes = s.loupes := rfl
@[simp] theorem State.inject_origins (p : Packet) : (s.inject p).origins = s.origins := rfl
@[simp] theorem State.inject_tiles (p : Packet) : (s.inject p).tiles = s.tiles := rfl
@[simp] theorem State.inject_sync (p : Packet) : (s.inject p).sync = s.sync := rfl
@[simp] theorem State.inject_keys (p : Packet) : (s.inject p).keys = s.keys := rfl
@[simp] theorem State.inject_spad (p : Packet) : (s.inject p).spad = s.spad := rfl
@[simp] theorem State.inject_spadPoison (p : Packet) : (s.inject p).spadPoison = s.spadPoison := rfl
@[simp] theorem State.inject_imem (p : Packet) : (s.inject p).imem = s.imem := rfl
@[simp] theorem State.inject_telActive (p : Packet) : (s.inject p).telActive = s.telActive := rfl
@[simp] theorem State.inject_telFrozen (p : Packet) : (s.inject p).telFrozen = s.telFrozen := rfl
@[simp] theorem State.inject_telSwap (p : Packet) : (s.inject p).telSwap = s.telSwap := rfl
@[simp] theorem State.inject_rtrTbl (p : Packet) : (s.inject p).rtrTbl = s.rtrTbl := rfl
@[simp] theorem State.inject_slotCtr (p : Packet) : (s.inject p).slotCtr = s.slotCtr := rfl
@[simp] theorem State.inject_inbuf (p : Packet) : (s.inject p).inbuf = s.inbuf := rfl
@[simp] theorem State.inject_order (p : Packet) : (s.inject p).order = s.order := rfl
@[simp] theorem State.inject_links (p : Packet) : (s.inject p).links = s.links := rfl
@[simp] theorem State.inject_maps (p : Packet) : (s.inject p).maps = s.maps := rfl
@[simp] theorem State.inject_chanMaps (p : Packet) : (s.inject p).chanMaps = s.chanMaps := rfl
@[simp] theorem State.inject_rr (p : Packet) : (s.inject p).rr = s.rr := rfl
@[simp] theorem State.inject_verdicts (p : Packet) : (s.inject p).verdicts = s.verdicts := rfl
@[simp] theorem State.inject_delivered (p : Packet) : (s.inject p).delivered = s.delivered := rfl
@[simp] theorem State.inject_subs (p : Packet) : (s.inject p).subs = s.subs := rfl
@[simp] theorem State.inject_udp (p : Packet) : (s.inject p).udp = s.udp := rfl
@[simp] theorem State.inject_mccs (p : Packet) : (s.inject p).mccs = s.mccs := rfl
@[simp] theorem State.inject_dram (p : Packet) : (s.inject p).dram = s.dram := rfl
@[simp] theorem State.inject_dramClean (p : Packet) : (s.inject p).dramClean = s.dramClean := rfl
@[simp] theorem State.inject_retireQ (p : Packet) : (s.inject p).retireQ = s.retireQ := rfl
@[simp] theorem State.inject_job (p : Packet) : (s.inject p).job = s.job := rfl
@[simp] theorem State.inject_reqs (p : Packet) : (s.inject p).reqs = s.reqs := rfl
@[simp] theorem State.inject_msgs (p : Packet) : (s.inject p).msgs = s.msgs := rfl
@[simp] theorem State.inject_tagCtr (p : Packet) : (s.inject p).tagCtr = s.tagCtr := rfl
@[simp] theorem State.inject_attns (p : Packet) : (s.inject p).attns = s.attns := rfl
@[simp] theorem State.inject_gens (p : Packet) : (s.inject p).gens = s.gens := rfl
@[simp] theorem State.inject_pages (p : Packet) : (s.inject p).pages = s.pages := rfl
@[simp] theorem State.inject_chunks (p : Packet) : (s.inject p).chunks = s.chunks := rfl
@[simp] theorem State.inject_oldDirs (p : Packet) : (s.inject p).oldDirs = s.oldDirs := rfl
@[simp] theorem State.inject_heldQ (p : Packet) : (s.inject p).heldQ = s.heldQ := rfl
@[simp] theorem State.inject_closes (p : Packet) : (s.inject p).closes = s.closes := rfl
@[simp] theorem State.inject_binds (p : Packet) : (s.inject p).binds = s.binds := rfl
@[simp] theorem State.inject_ports (p : Packet) : (s.inject p).ports = s.ports := rfl
@[simp] theorem State.inject_stepPend (p : Packet) : (s.inject p).stepPend = s.stepPend := rfl
@[simp] theorem State.inject_ptp (p : Packet) : (s.inject p).ptp = s.ptp := rfl
@[simp] theorem State.inject_regions (p : Packet) : (s.inject p).regions = s.regions := rfl
@[simp] theorem State.inject_reqOrder (p : Packet) : (s.inject p).reqOrder = s.reqOrder := rfl
@[simp] theorem State.inject_ctl (p : Packet) : (s.inject p).ctl = s.ctl := rfl
@[simp] theorem State.inject_mtr (p : Packet) : (s.inject p).mtr = s.mtr := rfl
@[simp] theorem State.inject_rcp (p : Packet) : (s.inject p).rcp = s.rcp := rfl
@[simp] theorem State.inject_sealLoop (p : Packet) : (s.inject p).sealLoop = s.sealLoop := rfl
@[simp] theorem State.inject_conns (p : Packet) : (s.inject p).conns = s.conns := rfl
@[simp] theorem State.inject_contents (p : Packet) : (s.inject p).contents = s.contents := rfl
@[simp] theorem State.inject_replies (p : Packet) : (s.inject p).replies = s.replies := rfl
@[simp] theorem State.inject_streamed (p : Packet) : (s.inject p).streamed = s.streamed := rfl
@[simp] theorem State.inject_bc (p : Packet) : (s.inject p).bc = s.bc := rfl
@[simp] theorem State.inject_bcast (p : Packet) : (s.inject p).bcast = s.bcast := rfl
@[simp] theorem State.inject_staging (p : Packet) : (s.inject p).staging = s.staging := rfl
@[simp] theorem State.inject_nv (p : Packet) : (s.inject p).nv = s.nv := rfl
@[simp] theorem State.inject_boot (p : Packet) : (s.inject p).boot = s.boot := rfl
@[simp] theorem State.inject_pair (p : Packet) : (s.inject p).pair = s.pair := rfl
@[simp] theorem State.inject_i3c (p : Packet) : (s.inject p).i3c = s.i3c := rfl
@[simp] theorem State.inject_accesses (p : Packet) : (s.inject p).accesses = s.accesses := rfl
@[simp] theorem State.inject_rsps (p : Packet) : (s.inject p).rsps = s.rsps := rfl
@[simp] theorem State.inject_svc (p : Packet) : (s.inject p).svc = s.svc := rfl
@[simp] theorem State.inject_svcWait (p : Packet) : (s.inject p).svcWait = s.svcWait := rfl

@[simp] theorem State.setLoupe_pending (f : Nat) (l : Loupe) : (s.setLoupe f l).pending = s.pending := rfl
@[simp] theorem State.setLoupe_outbox (f : Nat) (l : Loupe) : (s.setLoupe f l).outbox = s.outbox := rfl
@[simp] theorem State.setLoupe_freeCtr (f : Nat) (l : Loupe) : (s.setLoupe f l).freeCtr = s.freeCtr := rfl
@[simp] theorem State.setLoupe_time (f : Nat) (l : Loupe) : (s.setLoupe f l).time = s.time := rfl
@[simp] theorem State.setLoupe_facets (f : Nat) (l : Loupe) : (s.setLoupe f l).facets = s.facets := rfl
@[simp] theorem State.setLoupe_regs (f : Nat) (l : Loupe) : (s.setLoupe f l).regs = s.regs := rfl
@[simp] theorem State.setLoupe_staged (f : Nat) (l : Loupe) : (s.setLoupe f l).staged = s.staged := rfl
@[simp] theorem State.setLoupe_blks (f : Nat) (l : Loupe) : (s.setLoupe f l).blks = s.blks := rfl
@[simp] theorem State.setLoupe_hdrs (f : Nat) (l : Loupe) : (s.setLoupe f l).hdrs = s.hdrs := rfl
@[simp] theorem State.setLoupe_latches (f : Nat) (l : Loupe) : (s.setLoupe f l).latches = s.latches := rfl
@[simp] theorem State.setLoupe_log (f : Nat) (l : Loupe) : (s.setLoupe f l).log = s.log := rfl
@[simp] theorem State.setLoupe_logSeq (f : Nat) (l : Loupe) : (s.setLoupe f l).logSeq = s.logSeq := rfl
@[simp] theorem State.setLoupe_colls (f : Nat) (l : Loupe) : (s.setLoupe f l).colls = s.colls := rfl
@[simp] theorem State.setLoupe_origins (f : Nat) (l : Loupe) : (s.setLoupe f l).origins = s.origins := rfl
@[simp] theorem State.setLoupe_tiles (f : Nat) (l : Loupe) : (s.setLoupe f l).tiles = s.tiles := rfl
@[simp] theorem State.setLoupe_sync (f : Nat) (l : Loupe) : (s.setLoupe f l).sync = s.sync := rfl
@[simp] theorem State.setLoupe_keys (f : Nat) (l : Loupe) : (s.setLoupe f l).keys = s.keys := rfl
@[simp] theorem State.setLoupe_spad (f : Nat) (l : Loupe) : (s.setLoupe f l).spad = s.spad := rfl
@[simp] theorem State.setLoupe_spadPoison (f : Nat) (l : Loupe) : (s.setLoupe f l).spadPoison = s.spadPoison := rfl
@[simp] theorem State.setLoupe_imem (f : Nat) (l : Loupe) : (s.setLoupe f l).imem = s.imem := rfl
@[simp] theorem State.setLoupe_telActive (f : Nat) (l : Loupe) : (s.setLoupe f l).telActive = s.telActive := rfl
@[simp] theorem State.setLoupe_telFrozen (f : Nat) (l : Loupe) : (s.setLoupe f l).telFrozen = s.telFrozen := rfl
@[simp] theorem State.setLoupe_telSwap (f : Nat) (l : Loupe) : (s.setLoupe f l).telSwap = s.telSwap := rfl
@[simp] theorem State.setLoupe_rtrTbl (f : Nat) (l : Loupe) : (s.setLoupe f l).rtrTbl = s.rtrTbl := rfl
@[simp] theorem State.setLoupe_slotCtr (f : Nat) (l : Loupe) : (s.setLoupe f l).slotCtr = s.slotCtr := rfl
@[simp] theorem State.setLoupe_inbuf (f : Nat) (l : Loupe) : (s.setLoupe f l).inbuf = s.inbuf := rfl
@[simp] theorem State.setLoupe_order (f : Nat) (l : Loupe) : (s.setLoupe f l).order = s.order := rfl
@[simp] theorem State.setLoupe_links (f : Nat) (l : Loupe) : (s.setLoupe f l).links = s.links := rfl
@[simp] theorem State.setLoupe_maps (f : Nat) (l : Loupe) : (s.setLoupe f l).maps = s.maps := rfl
@[simp] theorem State.setLoupe_chanMaps (f : Nat) (l : Loupe) : (s.setLoupe f l).chanMaps = s.chanMaps := rfl
@[simp] theorem State.setLoupe_packets (f : Nat) (l : Loupe) : (s.setLoupe f l).packets = s.packets := rfl
@[simp] theorem State.setLoupe_rr (f : Nat) (l : Loupe) : (s.setLoupe f l).rr = s.rr := rfl
@[simp] theorem State.setLoupe_verdicts (f : Nat) (l : Loupe) : (s.setLoupe f l).verdicts = s.verdicts := rfl
@[simp] theorem State.setLoupe_delivered (f : Nat) (l : Loupe) : (s.setLoupe f l).delivered = s.delivered := rfl
@[simp] theorem State.setLoupe_subs (f : Nat) (l : Loupe) : (s.setLoupe f l).subs = s.subs := rfl
@[simp] theorem State.setLoupe_udp (f : Nat) (l : Loupe) : (s.setLoupe f l).udp = s.udp := rfl
@[simp] theorem State.setLoupe_mccs (f : Nat) (l : Loupe) : (s.setLoupe f l).mccs = s.mccs := rfl
@[simp] theorem State.setLoupe_dram (f : Nat) (l : Loupe) : (s.setLoupe f l).dram = s.dram := rfl
@[simp] theorem State.setLoupe_dramClean (f : Nat) (l : Loupe) : (s.setLoupe f l).dramClean = s.dramClean := rfl
@[simp] theorem State.setLoupe_retireQ (f : Nat) (l : Loupe) : (s.setLoupe f l).retireQ = s.retireQ := rfl
@[simp] theorem State.setLoupe_job (f : Nat) (l : Loupe) : (s.setLoupe f l).job = s.job := rfl
@[simp] theorem State.setLoupe_reqs (f : Nat) (l : Loupe) : (s.setLoupe f l).reqs = s.reqs := rfl
@[simp] theorem State.setLoupe_msgs (f : Nat) (l : Loupe) : (s.setLoupe f l).msgs = s.msgs := rfl
@[simp] theorem State.setLoupe_tagCtr (f : Nat) (l : Loupe) : (s.setLoupe f l).tagCtr = s.tagCtr := rfl
@[simp] theorem State.setLoupe_attns (f : Nat) (l : Loupe) : (s.setLoupe f l).attns = s.attns := rfl
@[simp] theorem State.setLoupe_gens (f : Nat) (l : Loupe) : (s.setLoupe f l).gens = s.gens := rfl
@[simp] theorem State.setLoupe_pages (f : Nat) (l : Loupe) : (s.setLoupe f l).pages = s.pages := rfl
@[simp] theorem State.setLoupe_chunks (f : Nat) (l : Loupe) : (s.setLoupe f l).chunks = s.chunks := rfl
@[simp] theorem State.setLoupe_oldDirs (f : Nat) (l : Loupe) : (s.setLoupe f l).oldDirs = s.oldDirs := rfl
@[simp] theorem State.setLoupe_heldQ (f : Nat) (l : Loupe) : (s.setLoupe f l).heldQ = s.heldQ := rfl
@[simp] theorem State.setLoupe_closes (f : Nat) (l : Loupe) : (s.setLoupe f l).closes = s.closes := rfl
@[simp] theorem State.setLoupe_binds (f : Nat) (l : Loupe) : (s.setLoupe f l).binds = s.binds := rfl
@[simp] theorem State.setLoupe_ports (f : Nat) (l : Loupe) : (s.setLoupe f l).ports = s.ports := rfl
@[simp] theorem State.setLoupe_stepPend (f : Nat) (l : Loupe) : (s.setLoupe f l).stepPend = s.stepPend := rfl
@[simp] theorem State.setLoupe_ptp (f : Nat) (l : Loupe) : (s.setLoupe f l).ptp = s.ptp := rfl
@[simp] theorem State.setLoupe_regions (f : Nat) (l : Loupe) : (s.setLoupe f l).regions = s.regions := rfl
@[simp] theorem State.setLoupe_reqOrder (f : Nat) (l : Loupe) : (s.setLoupe f l).reqOrder = s.reqOrder := rfl
@[simp] theorem State.setLoupe_ctl (f : Nat) (l : Loupe) : (s.setLoupe f l).ctl = s.ctl := rfl
@[simp] theorem State.setLoupe_mtr (f : Nat) (l : Loupe) : (s.setLoupe f l).mtr = s.mtr := rfl
@[simp] theorem State.setLoupe_rcp (f : Nat) (l : Loupe) : (s.setLoupe f l).rcp = s.rcp := rfl
@[simp] theorem State.setLoupe_sealLoop (f : Nat) (l : Loupe) : (s.setLoupe f l).sealLoop = s.sealLoop := rfl
@[simp] theorem State.setLoupe_conns (f : Nat) (l : Loupe) : (s.setLoupe f l).conns = s.conns := rfl
@[simp] theorem State.setLoupe_contents (f : Nat) (l : Loupe) : (s.setLoupe f l).contents = s.contents := rfl
@[simp] theorem State.setLoupe_replies (f : Nat) (l : Loupe) : (s.setLoupe f l).replies = s.replies := rfl
@[simp] theorem State.setLoupe_streamed (f : Nat) (l : Loupe) : (s.setLoupe f l).streamed = s.streamed := rfl
@[simp] theorem State.setLoupe_bc (f : Nat) (l : Loupe) : (s.setLoupe f l).bc = s.bc := rfl
@[simp] theorem State.setLoupe_bcast (f : Nat) (l : Loupe) : (s.setLoupe f l).bcast = s.bcast := rfl
@[simp] theorem State.setLoupe_staging (f : Nat) (l : Loupe) : (s.setLoupe f l).staging = s.staging := rfl
@[simp] theorem State.setLoupe_nv (f : Nat) (l : Loupe) : (s.setLoupe f l).nv = s.nv := rfl
@[simp] theorem State.setLoupe_boot (f : Nat) (l : Loupe) : (s.setLoupe f l).boot = s.boot := rfl
@[simp] theorem State.setLoupe_pair (f : Nat) (l : Loupe) : (s.setLoupe f l).pair = s.pair := rfl
@[simp] theorem State.setLoupe_i3c (f : Nat) (l : Loupe) : (s.setLoupe f l).i3c = s.i3c := rfl
@[simp] theorem State.setLoupe_accesses (f : Nat) (l : Loupe) : (s.setLoupe f l).accesses = s.accesses := rfl
@[simp] theorem State.setLoupe_rsps (f : Nat) (l : Loupe) : (s.setLoupe f l).rsps = s.rsps := rfl
@[simp] theorem State.setLoupe_svc (f : Nat) (l : Loupe) : (s.setLoupe f l).svc = s.svc := rfl
@[simp] theorem State.setLoupe_svcWait (f : Nat) (l : Loupe) : (s.setLoupe f l).svcWait = s.svcWait := rfl

@[simp] theorem State.setColl_pending (k : Nat) (c : Collector) : (s.setColl k c).pending = s.pending := rfl
@[simp] theorem State.setColl_outbox (k : Nat) (c : Collector) : (s.setColl k c).outbox = s.outbox := rfl
@[simp] theorem State.setColl_freeCtr (k : Nat) (c : Collector) : (s.setColl k c).freeCtr = s.freeCtr := rfl
@[simp] theorem State.setColl_time (k : Nat) (c : Collector) : (s.setColl k c).time = s.time := rfl
@[simp] theorem State.setColl_facets (k : Nat) (c : Collector) : (s.setColl k c).facets = s.facets := rfl
@[simp] theorem State.setColl_regs (k : Nat) (c : Collector) : (s.setColl k c).regs = s.regs := rfl
@[simp] theorem State.setColl_staged (k : Nat) (c : Collector) : (s.setColl k c).staged = s.staged := rfl
@[simp] theorem State.setColl_blks (k : Nat) (c : Collector) : (s.setColl k c).blks = s.blks := rfl
@[simp] theorem State.setColl_hdrs (k : Nat) (c : Collector) : (s.setColl k c).hdrs = s.hdrs := rfl
@[simp] theorem State.setColl_latches (k : Nat) (c : Collector) : (s.setColl k c).latches = s.latches := rfl
@[simp] theorem State.setColl_log (k : Nat) (c : Collector) : (s.setColl k c).log = s.log := rfl
@[simp] theorem State.setColl_logSeq (k : Nat) (c : Collector) : (s.setColl k c).logSeq = s.logSeq := rfl
@[simp] theorem State.setColl_loupes (k : Nat) (c : Collector) : (s.setColl k c).loupes = s.loupes := rfl
@[simp] theorem State.setColl_origins (k : Nat) (c : Collector) : (s.setColl k c).origins = s.origins := rfl
@[simp] theorem State.setColl_tiles (k : Nat) (c : Collector) : (s.setColl k c).tiles = s.tiles := rfl
@[simp] theorem State.setColl_sync (k : Nat) (c : Collector) : (s.setColl k c).sync = s.sync := rfl
@[simp] theorem State.setColl_keys (k : Nat) (c : Collector) : (s.setColl k c).keys = s.keys := rfl
@[simp] theorem State.setColl_spad (k : Nat) (c : Collector) : (s.setColl k c).spad = s.spad := rfl
@[simp] theorem State.setColl_spadPoison (k : Nat) (c : Collector) : (s.setColl k c).spadPoison = s.spadPoison := rfl
@[simp] theorem State.setColl_imem (k : Nat) (c : Collector) : (s.setColl k c).imem = s.imem := rfl
@[simp] theorem State.setColl_telActive (k : Nat) (c : Collector) : (s.setColl k c).telActive = s.telActive := rfl
@[simp] theorem State.setColl_telFrozen (k : Nat) (c : Collector) : (s.setColl k c).telFrozen = s.telFrozen := rfl
@[simp] theorem State.setColl_telSwap (k : Nat) (c : Collector) : (s.setColl k c).telSwap = s.telSwap := rfl
@[simp] theorem State.setColl_rtrTbl (k : Nat) (c : Collector) : (s.setColl k c).rtrTbl = s.rtrTbl := rfl
@[simp] theorem State.setColl_slotCtr (k : Nat) (c : Collector) : (s.setColl k c).slotCtr = s.slotCtr := rfl
@[simp] theorem State.setColl_inbuf (k : Nat) (c : Collector) : (s.setColl k c).inbuf = s.inbuf := rfl
@[simp] theorem State.setColl_order (k : Nat) (c : Collector) : (s.setColl k c).order = s.order := rfl
@[simp] theorem State.setColl_links (k : Nat) (c : Collector) : (s.setColl k c).links = s.links := rfl
@[simp] theorem State.setColl_maps (k : Nat) (c : Collector) : (s.setColl k c).maps = s.maps := rfl
@[simp] theorem State.setColl_chanMaps (k : Nat) (c : Collector) : (s.setColl k c).chanMaps = s.chanMaps := rfl
@[simp] theorem State.setColl_packets (k : Nat) (c : Collector) : (s.setColl k c).packets = s.packets := rfl
@[simp] theorem State.setColl_rr (k : Nat) (c : Collector) : (s.setColl k c).rr = s.rr := rfl
@[simp] theorem State.setColl_verdicts (k : Nat) (c : Collector) : (s.setColl k c).verdicts = s.verdicts := rfl
@[simp] theorem State.setColl_delivered (k : Nat) (c : Collector) : (s.setColl k c).delivered = s.delivered := rfl
@[simp] theorem State.setColl_subs (k : Nat) (c : Collector) : (s.setColl k c).subs = s.subs := rfl
@[simp] theorem State.setColl_udp (k : Nat) (c : Collector) : (s.setColl k c).udp = s.udp := rfl
@[simp] theorem State.setColl_mccs (k : Nat) (c : Collector) : (s.setColl k c).mccs = s.mccs := rfl
@[simp] theorem State.setColl_dram (k : Nat) (c : Collector) : (s.setColl k c).dram = s.dram := rfl
@[simp] theorem State.setColl_dramClean (k : Nat) (c : Collector) : (s.setColl k c).dramClean = s.dramClean := rfl
@[simp] theorem State.setColl_retireQ (k : Nat) (c : Collector) : (s.setColl k c).retireQ = s.retireQ := rfl
@[simp] theorem State.setColl_job (k : Nat) (c : Collector) : (s.setColl k c).job = s.job := rfl
@[simp] theorem State.setColl_reqs (k : Nat) (c : Collector) : (s.setColl k c).reqs = s.reqs := rfl
@[simp] theorem State.setColl_msgs (k : Nat) (c : Collector) : (s.setColl k c).msgs = s.msgs := rfl
@[simp] theorem State.setColl_tagCtr (k : Nat) (c : Collector) : (s.setColl k c).tagCtr = s.tagCtr := rfl
@[simp] theorem State.setColl_attns (k : Nat) (c : Collector) : (s.setColl k c).attns = s.attns := rfl
@[simp] theorem State.setColl_gens (k : Nat) (c : Collector) : (s.setColl k c).gens = s.gens := rfl
@[simp] theorem State.setColl_pages (k : Nat) (c : Collector) : (s.setColl k c).pages = s.pages := rfl
@[simp] theorem State.setColl_chunks (k : Nat) (c : Collector) : (s.setColl k c).chunks = s.chunks := rfl
@[simp] theorem State.setColl_oldDirs (k : Nat) (c : Collector) : (s.setColl k c).oldDirs = s.oldDirs := rfl
@[simp] theorem State.setColl_heldQ (k : Nat) (c : Collector) : (s.setColl k c).heldQ = s.heldQ := rfl
@[simp] theorem State.setColl_closes (k : Nat) (c : Collector) : (s.setColl k c).closes = s.closes := rfl
@[simp] theorem State.setColl_binds (k : Nat) (c : Collector) : (s.setColl k c).binds = s.binds := rfl
@[simp] theorem State.setColl_ports (k : Nat) (c : Collector) : (s.setColl k c).ports = s.ports := rfl
@[simp] theorem State.setColl_stepPend (k : Nat) (c : Collector) : (s.setColl k c).stepPend = s.stepPend := rfl
@[simp] theorem State.setColl_ptp (k : Nat) (c : Collector) : (s.setColl k c).ptp = s.ptp := rfl
@[simp] theorem State.setColl_regions (k : Nat) (c : Collector) : (s.setColl k c).regions = s.regions := rfl
@[simp] theorem State.setColl_reqOrder (k : Nat) (c : Collector) : (s.setColl k c).reqOrder = s.reqOrder := rfl
@[simp] theorem State.setColl_ctl (k : Nat) (c : Collector) : (s.setColl k c).ctl = s.ctl := rfl
@[simp] theorem State.setColl_mtr (k : Nat) (c : Collector) : (s.setColl k c).mtr = s.mtr := rfl
@[simp] theorem State.setColl_rcp (k : Nat) (c : Collector) : (s.setColl k c).rcp = s.rcp := rfl
@[simp] theorem State.setColl_sealLoop (k : Nat) (c : Collector) : (s.setColl k c).sealLoop = s.sealLoop := rfl
@[simp] theorem State.setColl_conns (k : Nat) (c : Collector) : (s.setColl k c).conns = s.conns := rfl
@[simp] theorem State.setColl_contents (k : Nat) (c : Collector) : (s.setColl k c).contents = s.contents := rfl
@[simp] theorem State.setColl_replies (k : Nat) (c : Collector) : (s.setColl k c).replies = s.replies := rfl
@[simp] theorem State.setColl_streamed (k : Nat) (c : Collector) : (s.setColl k c).streamed = s.streamed := rfl
@[simp] theorem State.setColl_bc (k : Nat) (c : Collector) : (s.setColl k c).bc = s.bc := rfl
@[simp] theorem State.setColl_bcast (k : Nat) (c : Collector) : (s.setColl k c).bcast = s.bcast := rfl
@[simp] theorem State.setColl_staging (k : Nat) (c : Collector) : (s.setColl k c).staging = s.staging := rfl
@[simp] theorem State.setColl_nv (k : Nat) (c : Collector) : (s.setColl k c).nv = s.nv := rfl
@[simp] theorem State.setColl_boot (k : Nat) (c : Collector) : (s.setColl k c).boot = s.boot := rfl
@[simp] theorem State.setColl_pair (k : Nat) (c : Collector) : (s.setColl k c).pair = s.pair := rfl
@[simp] theorem State.setColl_i3c (k : Nat) (c : Collector) : (s.setColl k c).i3c = s.i3c := rfl
@[simp] theorem State.setColl_accesses (k : Nat) (c : Collector) : (s.setColl k c).accesses = s.accesses := rfl
@[simp] theorem State.setColl_rsps (k : Nat) (c : Collector) : (s.setColl k c).rsps = s.rsps := rfl
@[simp] theorem State.setColl_svc (k : Nat) (c : Collector) : (s.setColl k c).svc = s.svc := rfl
@[simp] theorem State.setColl_svcWait (k : Nat) (c : Collector) : (s.setColl k c).svcWait = s.svcWait := rfl

@[simp] theorem State.setMcc_pending (n : Nat) (m : Mcc) : (s.setMcc n m).pending = s.pending := rfl
@[simp] theorem State.setMcc_outbox (n : Nat) (m : Mcc) : (s.setMcc n m).outbox = s.outbox := rfl
@[simp] theorem State.setMcc_freeCtr (n : Nat) (m : Mcc) : (s.setMcc n m).freeCtr = s.freeCtr := rfl
@[simp] theorem State.setMcc_time (n : Nat) (m : Mcc) : (s.setMcc n m).time = s.time := rfl
@[simp] theorem State.setMcc_facets (n : Nat) (m : Mcc) : (s.setMcc n m).facets = s.facets := rfl
@[simp] theorem State.setMcc_regs (n : Nat) (m : Mcc) : (s.setMcc n m).regs = s.regs := rfl
@[simp] theorem State.setMcc_staged (n : Nat) (m : Mcc) : (s.setMcc n m).staged = s.staged := rfl
@[simp] theorem State.setMcc_blks (n : Nat) (m : Mcc) : (s.setMcc n m).blks = s.blks := rfl
@[simp] theorem State.setMcc_hdrs (n : Nat) (m : Mcc) : (s.setMcc n m).hdrs = s.hdrs := rfl
@[simp] theorem State.setMcc_latches (n : Nat) (m : Mcc) : (s.setMcc n m).latches = s.latches := rfl
@[simp] theorem State.setMcc_log (n : Nat) (m : Mcc) : (s.setMcc n m).log = s.log := rfl
@[simp] theorem State.setMcc_logSeq (n : Nat) (m : Mcc) : (s.setMcc n m).logSeq = s.logSeq := rfl
@[simp] theorem State.setMcc_colls (n : Nat) (m : Mcc) : (s.setMcc n m).colls = s.colls := rfl
@[simp] theorem State.setMcc_loupes (n : Nat) (m : Mcc) : (s.setMcc n m).loupes = s.loupes := rfl
@[simp] theorem State.setMcc_origins (n : Nat) (m : Mcc) : (s.setMcc n m).origins = s.origins := rfl
@[simp] theorem State.setMcc_tiles (n : Nat) (m : Mcc) : (s.setMcc n m).tiles = s.tiles := rfl
@[simp] theorem State.setMcc_sync (n : Nat) (m : Mcc) : (s.setMcc n m).sync = s.sync := rfl
@[simp] theorem State.setMcc_keys (n : Nat) (m : Mcc) : (s.setMcc n m).keys = s.keys := rfl
@[simp] theorem State.setMcc_spad (n : Nat) (m : Mcc) : (s.setMcc n m).spad = s.spad := rfl
@[simp] theorem State.setMcc_spadPoison (n : Nat) (m : Mcc) : (s.setMcc n m).spadPoison = s.spadPoison := rfl
@[simp] theorem State.setMcc_imem (n : Nat) (m : Mcc) : (s.setMcc n m).imem = s.imem := rfl
@[simp] theorem State.setMcc_telActive (n : Nat) (m : Mcc) : (s.setMcc n m).telActive = s.telActive := rfl
@[simp] theorem State.setMcc_telFrozen (n : Nat) (m : Mcc) : (s.setMcc n m).telFrozen = s.telFrozen := rfl
@[simp] theorem State.setMcc_telSwap (n : Nat) (m : Mcc) : (s.setMcc n m).telSwap = s.telSwap := rfl
@[simp] theorem State.setMcc_rtrTbl (n : Nat) (m : Mcc) : (s.setMcc n m).rtrTbl = s.rtrTbl := rfl
@[simp] theorem State.setMcc_slotCtr (n : Nat) (m : Mcc) : (s.setMcc n m).slotCtr = s.slotCtr := rfl
@[simp] theorem State.setMcc_inbuf (n : Nat) (m : Mcc) : (s.setMcc n m).inbuf = s.inbuf := rfl
@[simp] theorem State.setMcc_order (n : Nat) (m : Mcc) : (s.setMcc n m).order = s.order := rfl
@[simp] theorem State.setMcc_links (n : Nat) (m : Mcc) : (s.setMcc n m).links = s.links := rfl
@[simp] theorem State.setMcc_maps (n : Nat) (m : Mcc) : (s.setMcc n m).maps = s.maps := rfl
@[simp] theorem State.setMcc_chanMaps (n : Nat) (m : Mcc) : (s.setMcc n m).chanMaps = s.chanMaps := rfl
@[simp] theorem State.setMcc_packets (n : Nat) (m : Mcc) : (s.setMcc n m).packets = s.packets := rfl
@[simp] theorem State.setMcc_rr (n : Nat) (m : Mcc) : (s.setMcc n m).rr = s.rr := rfl
@[simp] theorem State.setMcc_verdicts (n : Nat) (m : Mcc) : (s.setMcc n m).verdicts = s.verdicts := rfl
@[simp] theorem State.setMcc_delivered (n : Nat) (m : Mcc) : (s.setMcc n m).delivered = s.delivered := rfl
@[simp] theorem State.setMcc_subs (n : Nat) (m : Mcc) : (s.setMcc n m).subs = s.subs := rfl
@[simp] theorem State.setMcc_udp (n : Nat) (m : Mcc) : (s.setMcc n m).udp = s.udp := rfl
@[simp] theorem State.setMcc_dram (n : Nat) (m : Mcc) : (s.setMcc n m).dram = s.dram := rfl
@[simp] theorem State.setMcc_dramClean (n : Nat) (m : Mcc) : (s.setMcc n m).dramClean = s.dramClean := rfl
@[simp] theorem State.setMcc_retireQ (n : Nat) (m : Mcc) : (s.setMcc n m).retireQ = s.retireQ := rfl
@[simp] theorem State.setMcc_job (n : Nat) (m : Mcc) : (s.setMcc n m).job = s.job := rfl
@[simp] theorem State.setMcc_reqs (n : Nat) (m : Mcc) : (s.setMcc n m).reqs = s.reqs := rfl
@[simp] theorem State.setMcc_msgs (n : Nat) (m : Mcc) : (s.setMcc n m).msgs = s.msgs := rfl
@[simp] theorem State.setMcc_tagCtr (n : Nat) (m : Mcc) : (s.setMcc n m).tagCtr = s.tagCtr := rfl
@[simp] theorem State.setMcc_attns (n : Nat) (m : Mcc) : (s.setMcc n m).attns = s.attns := rfl
@[simp] theorem State.setMcc_gens (n : Nat) (m : Mcc) : (s.setMcc n m).gens = s.gens := rfl
@[simp] theorem State.setMcc_pages (n : Nat) (m : Mcc) : (s.setMcc n m).pages = s.pages := rfl
@[simp] theorem State.setMcc_chunks (n : Nat) (m : Mcc) : (s.setMcc n m).chunks = s.chunks := rfl
@[simp] theorem State.setMcc_oldDirs (n : Nat) (m : Mcc) : (s.setMcc n m).oldDirs = s.oldDirs := rfl
@[simp] theorem State.setMcc_heldQ (n : Nat) (m : Mcc) : (s.setMcc n m).heldQ = s.heldQ := rfl
@[simp] theorem State.setMcc_closes (n : Nat) (m : Mcc) : (s.setMcc n m).closes = s.closes := rfl
@[simp] theorem State.setMcc_binds (n : Nat) (m : Mcc) : (s.setMcc n m).binds = s.binds := rfl
@[simp] theorem State.setMcc_ports (n : Nat) (m : Mcc) : (s.setMcc n m).ports = s.ports := rfl
@[simp] theorem State.setMcc_stepPend (n : Nat) (m : Mcc) : (s.setMcc n m).stepPend = s.stepPend := rfl
@[simp] theorem State.setMcc_ptp (n : Nat) (m : Mcc) : (s.setMcc n m).ptp = s.ptp := rfl
@[simp] theorem State.setMcc_regions (n : Nat) (m : Mcc) : (s.setMcc n m).regions = s.regions := rfl
@[simp] theorem State.setMcc_reqOrder (n : Nat) (m : Mcc) : (s.setMcc n m).reqOrder = s.reqOrder := rfl
@[simp] theorem State.setMcc_ctl (n : Nat) (m : Mcc) : (s.setMcc n m).ctl = s.ctl := rfl
@[simp] theorem State.setMcc_mtr (n : Nat) (m : Mcc) : (s.setMcc n m).mtr = s.mtr := rfl
@[simp] theorem State.setMcc_rcp (n : Nat) (m : Mcc) : (s.setMcc n m).rcp = s.rcp := rfl
@[simp] theorem State.setMcc_sealLoop (n : Nat) (m : Mcc) : (s.setMcc n m).sealLoop = s.sealLoop := rfl
@[simp] theorem State.setMcc_conns (n : Nat) (m : Mcc) : (s.setMcc n m).conns = s.conns := rfl
@[simp] theorem State.setMcc_contents (n : Nat) (m : Mcc) : (s.setMcc n m).contents = s.contents := rfl
@[simp] theorem State.setMcc_replies (n : Nat) (m : Mcc) : (s.setMcc n m).replies = s.replies := rfl
@[simp] theorem State.setMcc_streamed (n : Nat) (m : Mcc) : (s.setMcc n m).streamed = s.streamed := rfl
@[simp] theorem State.setMcc_bc (n : Nat) (m : Mcc) : (s.setMcc n m).bc = s.bc := rfl
@[simp] theorem State.setMcc_bcast (n : Nat) (m : Mcc) : (s.setMcc n m).bcast = s.bcast := rfl
@[simp] theorem State.setMcc_staging (n : Nat) (m : Mcc) : (s.setMcc n m).staging = s.staging := rfl
@[simp] theorem State.setMcc_nv (n : Nat) (m : Mcc) : (s.setMcc n m).nv = s.nv := rfl
@[simp] theorem State.setMcc_boot (n : Nat) (m : Mcc) : (s.setMcc n m).boot = s.boot := rfl
@[simp] theorem State.setMcc_pair (n : Nat) (m : Mcc) : (s.setMcc n m).pair = s.pair := rfl
@[simp] theorem State.setMcc_i3c (n : Nat) (m : Mcc) : (s.setMcc n m).i3c = s.i3c := rfl
@[simp] theorem State.setMcc_accesses (n : Nat) (m : Mcc) : (s.setMcc n m).accesses = s.accesses := rfl
@[simp] theorem State.setMcc_rsps (n : Nat) (m : Mcc) : (s.setMcc n m).rsps = s.rsps := rfl
@[simp] theorem State.setMcc_svc (n : Nat) (m : Mcc) : (s.setMcc n m).svc = s.svc := rfl
@[simp] theorem State.setMcc_svcWait (n : Nat) (m : Mcc) : (s.setMcc n m).svcWait = s.svcWait := rfl

@[simp] theorem State.setPort_pending (p : Nat) (x : PortSt) : (s.setPort p x).pending = s.pending := rfl
@[simp] theorem State.setPort_outbox (p : Nat) (x : PortSt) : (s.setPort p x).outbox = s.outbox := rfl
@[simp] theorem State.setPort_freeCtr (p : Nat) (x : PortSt) : (s.setPort p x).freeCtr = s.freeCtr := rfl
@[simp] theorem State.setPort_time (p : Nat) (x : PortSt) : (s.setPort p x).time = s.time := rfl
@[simp] theorem State.setPort_facets (p : Nat) (x : PortSt) : (s.setPort p x).facets = s.facets := rfl
@[simp] theorem State.setPort_regs (p : Nat) (x : PortSt) : (s.setPort p x).regs = s.regs := rfl
@[simp] theorem State.setPort_staged (p : Nat) (x : PortSt) : (s.setPort p x).staged = s.staged := rfl
@[simp] theorem State.setPort_blks (p : Nat) (x : PortSt) : (s.setPort p x).blks = s.blks := rfl
@[simp] theorem State.setPort_hdrs (p : Nat) (x : PortSt) : (s.setPort p x).hdrs = s.hdrs := rfl
@[simp] theorem State.setPort_latches (p : Nat) (x : PortSt) : (s.setPort p x).latches = s.latches := rfl
@[simp] theorem State.setPort_log (p : Nat) (x : PortSt) : (s.setPort p x).log = s.log := rfl
@[simp] theorem State.setPort_logSeq (p : Nat) (x : PortSt) : (s.setPort p x).logSeq = s.logSeq := rfl
@[simp] theorem State.setPort_colls (p : Nat) (x : PortSt) : (s.setPort p x).colls = s.colls := rfl
@[simp] theorem State.setPort_loupes (p : Nat) (x : PortSt) : (s.setPort p x).loupes = s.loupes := rfl
@[simp] theorem State.setPort_origins (p : Nat) (x : PortSt) : (s.setPort p x).origins = s.origins := rfl
@[simp] theorem State.setPort_tiles (p : Nat) (x : PortSt) : (s.setPort p x).tiles = s.tiles := rfl
@[simp] theorem State.setPort_sync (p : Nat) (x : PortSt) : (s.setPort p x).sync = s.sync := rfl
@[simp] theorem State.setPort_keys (p : Nat) (x : PortSt) : (s.setPort p x).keys = s.keys := rfl
@[simp] theorem State.setPort_spad (p : Nat) (x : PortSt) : (s.setPort p x).spad = s.spad := rfl
@[simp] theorem State.setPort_spadPoison (p : Nat) (x : PortSt) : (s.setPort p x).spadPoison = s.spadPoison := rfl
@[simp] theorem State.setPort_imem (p : Nat) (x : PortSt) : (s.setPort p x).imem = s.imem := rfl
@[simp] theorem State.setPort_telActive (p : Nat) (x : PortSt) : (s.setPort p x).telActive = s.telActive := rfl
@[simp] theorem State.setPort_telFrozen (p : Nat) (x : PortSt) : (s.setPort p x).telFrozen = s.telFrozen := rfl
@[simp] theorem State.setPort_telSwap (p : Nat) (x : PortSt) : (s.setPort p x).telSwap = s.telSwap := rfl
@[simp] theorem State.setPort_rtrTbl (p : Nat) (x : PortSt) : (s.setPort p x).rtrTbl = s.rtrTbl := rfl
@[simp] theorem State.setPort_slotCtr (p : Nat) (x : PortSt) : (s.setPort p x).slotCtr = s.slotCtr := rfl
@[simp] theorem State.setPort_inbuf (p : Nat) (x : PortSt) : (s.setPort p x).inbuf = s.inbuf := rfl
@[simp] theorem State.setPort_order (p : Nat) (x : PortSt) : (s.setPort p x).order = s.order := rfl
@[simp] theorem State.setPort_links (p : Nat) (x : PortSt) : (s.setPort p x).links = s.links := rfl
@[simp] theorem State.setPort_maps (p : Nat) (x : PortSt) : (s.setPort p x).maps = s.maps := rfl
@[simp] theorem State.setPort_chanMaps (p : Nat) (x : PortSt) : (s.setPort p x).chanMaps = s.chanMaps := rfl
@[simp] theorem State.setPort_packets (p : Nat) (x : PortSt) : (s.setPort p x).packets = s.packets := rfl
@[simp] theorem State.setPort_rr (p : Nat) (x : PortSt) : (s.setPort p x).rr = s.rr := rfl
@[simp] theorem State.setPort_verdicts (p : Nat) (x : PortSt) : (s.setPort p x).verdicts = s.verdicts := rfl
@[simp] theorem State.setPort_delivered (p : Nat) (x : PortSt) : (s.setPort p x).delivered = s.delivered := rfl
@[simp] theorem State.setPort_subs (p : Nat) (x : PortSt) : (s.setPort p x).subs = s.subs := rfl
@[simp] theorem State.setPort_udp (p : Nat) (x : PortSt) : (s.setPort p x).udp = s.udp := rfl
@[simp] theorem State.setPort_mccs (p : Nat) (x : PortSt) : (s.setPort p x).mccs = s.mccs := rfl
@[simp] theorem State.setPort_dram (p : Nat) (x : PortSt) : (s.setPort p x).dram = s.dram := rfl
@[simp] theorem State.setPort_dramClean (p : Nat) (x : PortSt) : (s.setPort p x).dramClean = s.dramClean := rfl
@[simp] theorem State.setPort_retireQ (p : Nat) (x : PortSt) : (s.setPort p x).retireQ = s.retireQ := rfl
@[simp] theorem State.setPort_job (p : Nat) (x : PortSt) : (s.setPort p x).job = s.job := rfl
@[simp] theorem State.setPort_reqs (p : Nat) (x : PortSt) : (s.setPort p x).reqs = s.reqs := rfl
@[simp] theorem State.setPort_msgs (p : Nat) (x : PortSt) : (s.setPort p x).msgs = s.msgs := rfl
@[simp] theorem State.setPort_tagCtr (p : Nat) (x : PortSt) : (s.setPort p x).tagCtr = s.tagCtr := rfl
@[simp] theorem State.setPort_attns (p : Nat) (x : PortSt) : (s.setPort p x).attns = s.attns := rfl
@[simp] theorem State.setPort_gens (p : Nat) (x : PortSt) : (s.setPort p x).gens = s.gens := rfl
@[simp] theorem State.setPort_pages (p : Nat) (x : PortSt) : (s.setPort p x).pages = s.pages := rfl
@[simp] theorem State.setPort_chunks (p : Nat) (x : PortSt) : (s.setPort p x).chunks = s.chunks := rfl
@[simp] theorem State.setPort_oldDirs (p : Nat) (x : PortSt) : (s.setPort p x).oldDirs = s.oldDirs := rfl
@[simp] theorem State.setPort_heldQ (p : Nat) (x : PortSt) : (s.setPort p x).heldQ = s.heldQ := rfl
@[simp] theorem State.setPort_closes (p : Nat) (x : PortSt) : (s.setPort p x).closes = s.closes := rfl
@[simp] theorem State.setPort_binds (p : Nat) (x : PortSt) : (s.setPort p x).binds = s.binds := rfl
@[simp] theorem State.setPort_stepPend (p : Nat) (x : PortSt) : (s.setPort p x).stepPend = s.stepPend := rfl
@[simp] theorem State.setPort_ptp (p : Nat) (x : PortSt) : (s.setPort p x).ptp = s.ptp := rfl
@[simp] theorem State.setPort_regions (p : Nat) (x : PortSt) : (s.setPort p x).regions = s.regions := rfl
@[simp] theorem State.setPort_reqOrder (p : Nat) (x : PortSt) : (s.setPort p x).reqOrder = s.reqOrder := rfl
@[simp] theorem State.setPort_ctl (p : Nat) (x : PortSt) : (s.setPort p x).ctl = s.ctl := rfl
@[simp] theorem State.setPort_mtr (p : Nat) (x : PortSt) : (s.setPort p x).mtr = s.mtr := rfl
@[simp] theorem State.setPort_rcp (p : Nat) (x : PortSt) : (s.setPort p x).rcp = s.rcp := rfl
@[simp] theorem State.setPort_sealLoop (p : Nat) (x : PortSt) : (s.setPort p x).sealLoop = s.sealLoop := rfl
@[simp] theorem State.setPort_conns (p : Nat) (x : PortSt) : (s.setPort p x).conns = s.conns := rfl
@[simp] theorem State.setPort_contents (p : Nat) (x : PortSt) : (s.setPort p x).contents = s.contents := rfl
@[simp] theorem State.setPort_replies (p : Nat) (x : PortSt) : (s.setPort p x).replies = s.replies := rfl
@[simp] theorem State.setPort_streamed (p : Nat) (x : PortSt) : (s.setPort p x).streamed = s.streamed := rfl
@[simp] theorem State.setPort_bc (p : Nat) (x : PortSt) : (s.setPort p x).bc = s.bc := rfl
@[simp] theorem State.setPort_bcast (p : Nat) (x : PortSt) : (s.setPort p x).bcast = s.bcast := rfl
@[simp] theorem State.setPort_staging (p : Nat) (x : PortSt) : (s.setPort p x).staging = s.staging := rfl
@[simp] theorem State.setPort_nv (p : Nat) (x : PortSt) : (s.setPort p x).nv = s.nv := rfl
@[simp] theorem State.setPort_boot (p : Nat) (x : PortSt) : (s.setPort p x).boot = s.boot := rfl
@[simp] theorem State.setPort_pair (p : Nat) (x : PortSt) : (s.setPort p x).pair = s.pair := rfl
@[simp] theorem State.setPort_i3c (p : Nat) (x : PortSt) : (s.setPort p x).i3c = s.i3c := rfl
@[simp] theorem State.setPort_accesses (p : Nat) (x : PortSt) : (s.setPort p x).accesses = s.accesses := rfl
@[simp] theorem State.setPort_rsps (p : Nat) (x : PortSt) : (s.setPort p x).rsps = s.rsps := rfl
@[simp] theorem State.setPort_svc (p : Nat) (x : PortSt) : (s.setPort p x).svc = s.svc := rfl
@[simp] theorem State.setPort_svcWait (p : Nat) (x : PortSt) : (s.setPort p x).svcWait = s.svcWait := rfl

@[simp] theorem State.setBuf_pending (x src : Nat) (l : List Xfer) : (s.setBuf x src l).pending = s.pending := rfl
@[simp] theorem State.setBuf_outbox (x src : Nat) (l : List Xfer) : (s.setBuf x src l).outbox = s.outbox := rfl
@[simp] theorem State.setBuf_freeCtr (x src : Nat) (l : List Xfer) : (s.setBuf x src l).freeCtr = s.freeCtr := rfl
@[simp] theorem State.setBuf_time (x src : Nat) (l : List Xfer) : (s.setBuf x src l).time = s.time := rfl
@[simp] theorem State.setBuf_facets (x src : Nat) (l : List Xfer) : (s.setBuf x src l).facets = s.facets := rfl
@[simp] theorem State.setBuf_regs (x src : Nat) (l : List Xfer) : (s.setBuf x src l).regs = s.regs := rfl
@[simp] theorem State.setBuf_staged (x src : Nat) (l : List Xfer) : (s.setBuf x src l).staged = s.staged := rfl
@[simp] theorem State.setBuf_blks (x src : Nat) (l : List Xfer) : (s.setBuf x src l).blks = s.blks := rfl
@[simp] theorem State.setBuf_hdrs (x src : Nat) (l : List Xfer) : (s.setBuf x src l).hdrs = s.hdrs := rfl
@[simp] theorem State.setBuf_latches (x src : Nat) (l : List Xfer) : (s.setBuf x src l).latches = s.latches := rfl
@[simp] theorem State.setBuf_log (x src : Nat) (l : List Xfer) : (s.setBuf x src l).log = s.log := rfl
@[simp] theorem State.setBuf_logSeq (x src : Nat) (l : List Xfer) : (s.setBuf x src l).logSeq = s.logSeq := rfl
@[simp] theorem State.setBuf_colls (x src : Nat) (l : List Xfer) : (s.setBuf x src l).colls = s.colls := rfl
@[simp] theorem State.setBuf_loupes (x src : Nat) (l : List Xfer) : (s.setBuf x src l).loupes = s.loupes := rfl
@[simp] theorem State.setBuf_origins (x src : Nat) (l : List Xfer) : (s.setBuf x src l).origins = s.origins := rfl
@[simp] theorem State.setBuf_tiles (x src : Nat) (l : List Xfer) : (s.setBuf x src l).tiles = s.tiles := rfl
@[simp] theorem State.setBuf_sync (x src : Nat) (l : List Xfer) : (s.setBuf x src l).sync = s.sync := rfl
@[simp] theorem State.setBuf_keys (x src : Nat) (l : List Xfer) : (s.setBuf x src l).keys = s.keys := rfl
@[simp] theorem State.setBuf_spad (x src : Nat) (l : List Xfer) : (s.setBuf x src l).spad = s.spad := rfl
@[simp] theorem State.setBuf_spadPoison (x src : Nat) (l : List Xfer) : (s.setBuf x src l).spadPoison = s.spadPoison := rfl
@[simp] theorem State.setBuf_imem (x src : Nat) (l : List Xfer) : (s.setBuf x src l).imem = s.imem := rfl
@[simp] theorem State.setBuf_telActive (x src : Nat) (l : List Xfer) : (s.setBuf x src l).telActive = s.telActive := rfl
@[simp] theorem State.setBuf_telFrozen (x src : Nat) (l : List Xfer) : (s.setBuf x src l).telFrozen = s.telFrozen := rfl
@[simp] theorem State.setBuf_telSwap (x src : Nat) (l : List Xfer) : (s.setBuf x src l).telSwap = s.telSwap := rfl
@[simp] theorem State.setBuf_rtrTbl (x src : Nat) (l : List Xfer) : (s.setBuf x src l).rtrTbl = s.rtrTbl := rfl
@[simp] theorem State.setBuf_slotCtr (x src : Nat) (l : List Xfer) : (s.setBuf x src l).slotCtr = s.slotCtr := rfl
@[simp] theorem State.setBuf_order (x src : Nat) (l : List Xfer) : (s.setBuf x src l).order = s.order := rfl
@[simp] theorem State.setBuf_links (x src : Nat) (l : List Xfer) : (s.setBuf x src l).links = s.links := rfl
@[simp] theorem State.setBuf_maps (x src : Nat) (l : List Xfer) : (s.setBuf x src l).maps = s.maps := rfl
@[simp] theorem State.setBuf_chanMaps (x src : Nat) (l : List Xfer) : (s.setBuf x src l).chanMaps = s.chanMaps := rfl
@[simp] theorem State.setBuf_packets (x src : Nat) (l : List Xfer) : (s.setBuf x src l).packets = s.packets := rfl
@[simp] theorem State.setBuf_rr (x src : Nat) (l : List Xfer) : (s.setBuf x src l).rr = s.rr := rfl
@[simp] theorem State.setBuf_verdicts (x src : Nat) (l : List Xfer) : (s.setBuf x src l).verdicts = s.verdicts := rfl
@[simp] theorem State.setBuf_delivered (x src : Nat) (l : List Xfer) : (s.setBuf x src l).delivered = s.delivered := rfl
@[simp] theorem State.setBuf_subs (x src : Nat) (l : List Xfer) : (s.setBuf x src l).subs = s.subs := rfl
@[simp] theorem State.setBuf_udp (x src : Nat) (l : List Xfer) : (s.setBuf x src l).udp = s.udp := rfl
@[simp] theorem State.setBuf_mccs (x src : Nat) (l : List Xfer) : (s.setBuf x src l).mccs = s.mccs := rfl
@[simp] theorem State.setBuf_dram (x src : Nat) (l : List Xfer) : (s.setBuf x src l).dram = s.dram := rfl
@[simp] theorem State.setBuf_dramClean (x src : Nat) (l : List Xfer) : (s.setBuf x src l).dramClean = s.dramClean := rfl
@[simp] theorem State.setBuf_retireQ (x src : Nat) (l : List Xfer) : (s.setBuf x src l).retireQ = s.retireQ := rfl
@[simp] theorem State.setBuf_job (x src : Nat) (l : List Xfer) : (s.setBuf x src l).job = s.job := rfl
@[simp] theorem State.setBuf_reqs (x src : Nat) (l : List Xfer) : (s.setBuf x src l).reqs = s.reqs := rfl
@[simp] theorem State.setBuf_msgs (x src : Nat) (l : List Xfer) : (s.setBuf x src l).msgs = s.msgs := rfl
@[simp] theorem State.setBuf_tagCtr (x src : Nat) (l : List Xfer) : (s.setBuf x src l).tagCtr = s.tagCtr := rfl
@[simp] theorem State.setBuf_attns (x src : Nat) (l : List Xfer) : (s.setBuf x src l).attns = s.attns := rfl
@[simp] theorem State.setBuf_gens (x src : Nat) (l : List Xfer) : (s.setBuf x src l).gens = s.gens := rfl
@[simp] theorem State.setBuf_pages (x src : Nat) (l : List Xfer) : (s.setBuf x src l).pages = s.pages := rfl
@[simp] theorem State.setBuf_chunks (x src : Nat) (l : List Xfer) : (s.setBuf x src l).chunks = s.chunks := rfl
@[simp] theorem State.setBuf_oldDirs (x src : Nat) (l : List Xfer) : (s.setBuf x src l).oldDirs = s.oldDirs := rfl
@[simp] theorem State.setBuf_heldQ (x src : Nat) (l : List Xfer) : (s.setBuf x src l).heldQ = s.heldQ := rfl
@[simp] theorem State.setBuf_closes (x src : Nat) (l : List Xfer) : (s.setBuf x src l).closes = s.closes := rfl
@[simp] theorem State.setBuf_binds (x src : Nat) (l : List Xfer) : (s.setBuf x src l).binds = s.binds := rfl
@[simp] theorem State.setBuf_ports (x src : Nat) (l : List Xfer) : (s.setBuf x src l).ports = s.ports := rfl
@[simp] theorem State.setBuf_stepPend (x src : Nat) (l : List Xfer) : (s.setBuf x src l).stepPend = s.stepPend := rfl
@[simp] theorem State.setBuf_ptp (x src : Nat) (l : List Xfer) : (s.setBuf x src l).ptp = s.ptp := rfl
@[simp] theorem State.setBuf_regions (x src : Nat) (l : List Xfer) : (s.setBuf x src l).regions = s.regions := rfl
@[simp] theorem State.setBuf_reqOrder (x src : Nat) (l : List Xfer) : (s.setBuf x src l).reqOrder = s.reqOrder := rfl
@[simp] theorem State.setBuf_ctl (x src : Nat) (l : List Xfer) : (s.setBuf x src l).ctl = s.ctl := rfl
@[simp] theorem State.setBuf_mtr (x src : Nat) (l : List Xfer) : (s.setBuf x src l).mtr = s.mtr := rfl
@[simp] theorem State.setBuf_rcp (x src : Nat) (l : List Xfer) : (s.setBuf x src l).rcp = s.rcp := rfl
@[simp] theorem State.setBuf_sealLoop (x src : Nat) (l : List Xfer) : (s.setBuf x src l).sealLoop = s.sealLoop := rfl
@[simp] theorem State.setBuf_conns (x src : Nat) (l : List Xfer) : (s.setBuf x src l).conns = s.conns := rfl
@[simp] theorem State.setBuf_contents (x src : Nat) (l : List Xfer) : (s.setBuf x src l).contents = s.contents := rfl
@[simp] theorem State.setBuf_replies (x src : Nat) (l : List Xfer) : (s.setBuf x src l).replies = s.replies := rfl
@[simp] theorem State.setBuf_streamed (x src : Nat) (l : List Xfer) : (s.setBuf x src l).streamed = s.streamed := rfl
@[simp] theorem State.setBuf_bc (x src : Nat) (l : List Xfer) : (s.setBuf x src l).bc = s.bc := rfl
@[simp] theorem State.setBuf_bcast (x src : Nat) (l : List Xfer) : (s.setBuf x src l).bcast = s.bcast := rfl
@[simp] theorem State.setBuf_staging (x src : Nat) (l : List Xfer) : (s.setBuf x src l).staging = s.staging := rfl
@[simp] theorem State.setBuf_nv (x src : Nat) (l : List Xfer) : (s.setBuf x src l).nv = s.nv := rfl
@[simp] theorem State.setBuf_boot (x src : Nat) (l : List Xfer) : (s.setBuf x src l).boot = s.boot := rfl
@[simp] theorem State.setBuf_pair (x src : Nat) (l : List Xfer) : (s.setBuf x src l).pair = s.pair := rfl
@[simp] theorem State.setBuf_i3c (x src : Nat) (l : List Xfer) : (s.setBuf x src l).i3c = s.i3c := rfl
@[simp] theorem State.setBuf_accesses (x src : Nat) (l : List Xfer) : (s.setBuf x src l).accesses = s.accesses := rfl
@[simp] theorem State.setBuf_rsps (x src : Nat) (l : List Xfer) : (s.setBuf x src l).rsps = s.rsps := rfl
@[simp] theorem State.setBuf_svc (x src : Nat) (l : List Xfer) : (s.setBuf x src l).svc = s.svc := rfl
@[simp] theorem State.setBuf_svcWait (x src : Nat) (l : List Xfer) : (s.setBuf x src l).svcWait = s.svcWait := rfl

@[simp] theorem State.setOrderPos_pending (x out : Nat) (p : OrderPos) : (s.setOrderPos x out p).pending = s.pending := rfl
@[simp] theorem State.setOrderPos_outbox (x out : Nat) (p : OrderPos) : (s.setOrderPos x out p).outbox = s.outbox := rfl
@[simp] theorem State.setOrderPos_freeCtr (x out : Nat) (p : OrderPos) : (s.setOrderPos x out p).freeCtr = s.freeCtr := rfl
@[simp] theorem State.setOrderPos_time (x out : Nat) (p : OrderPos) : (s.setOrderPos x out p).time = s.time := rfl
@[simp] theorem State.setOrderPos_facets (x out : Nat) (p : OrderPos) : (s.setOrderPos x out p).facets = s.facets := rfl
@[simp] theorem State.setOrderPos_regs (x out : Nat) (p : OrderPos) : (s.setOrderPos x out p).regs = s.regs := rfl
@[simp] theorem State.setOrderPos_staged (x out : Nat) (p : OrderPos) : (s.setOrderPos x out p).staged = s.staged := rfl
@[simp] theorem State.setOrderPos_blks (x out : Nat) (p : OrderPos) : (s.setOrderPos x out p).blks = s.blks := rfl
@[simp] theorem State.setOrderPos_hdrs (x out : Nat) (p : OrderPos) : (s.setOrderPos x out p).hdrs = s.hdrs := rfl
@[simp] theorem State.setOrderPos_latches (x out : Nat) (p : OrderPos) : (s.setOrderPos x out p).latches = s.latches := rfl
@[simp] theorem State.setOrderPos_log (x out : Nat) (p : OrderPos) : (s.setOrderPos x out p).log = s.log := rfl
@[simp] theorem State.setOrderPos_logSeq (x out : Nat) (p : OrderPos) : (s.setOrderPos x out p).logSeq = s.logSeq := rfl
@[simp] theorem State.setOrderPos_colls (x out : Nat) (p : OrderPos) : (s.setOrderPos x out p).colls = s.colls := rfl
@[simp] theorem State.setOrderPos_loupes (x out : Nat) (p : OrderPos) : (s.setOrderPos x out p).loupes = s.loupes := rfl
@[simp] theorem State.setOrderPos_origins (x out : Nat) (p : OrderPos) : (s.setOrderPos x out p).origins = s.origins := rfl
@[simp] theorem State.setOrderPos_tiles (x out : Nat) (p : OrderPos) : (s.setOrderPos x out p).tiles = s.tiles := rfl
@[simp] theorem State.setOrderPos_sync (x out : Nat) (p : OrderPos) : (s.setOrderPos x out p).sync = s.sync := rfl
@[simp] theorem State.setOrderPos_keys (x out : Nat) (p : OrderPos) : (s.setOrderPos x out p).keys = s.keys := rfl
@[simp] theorem State.setOrderPos_spad (x out : Nat) (p : OrderPos) : (s.setOrderPos x out p).spad = s.spad := rfl
@[simp] theorem State.setOrderPos_spadPoison (x out : Nat) (p : OrderPos) : (s.setOrderPos x out p).spadPoison = s.spadPoison := rfl
@[simp] theorem State.setOrderPos_imem (x out : Nat) (p : OrderPos) : (s.setOrderPos x out p).imem = s.imem := rfl
@[simp] theorem State.setOrderPos_telActive (x out : Nat) (p : OrderPos) : (s.setOrderPos x out p).telActive = s.telActive := rfl
@[simp] theorem State.setOrderPos_telFrozen (x out : Nat) (p : OrderPos) : (s.setOrderPos x out p).telFrozen = s.telFrozen := rfl
@[simp] theorem State.setOrderPos_telSwap (x out : Nat) (p : OrderPos) : (s.setOrderPos x out p).telSwap = s.telSwap := rfl
@[simp] theorem State.setOrderPos_rtrTbl (x out : Nat) (p : OrderPos) : (s.setOrderPos x out p).rtrTbl = s.rtrTbl := rfl
@[simp] theorem State.setOrderPos_slotCtr (x out : Nat) (p : OrderPos) : (s.setOrderPos x out p).slotCtr = s.slotCtr := rfl
@[simp] theorem State.setOrderPos_inbuf (x out : Nat) (p : OrderPos) : (s.setOrderPos x out p).inbuf = s.inbuf := rfl
@[simp] theorem State.setOrderPos_links (x out : Nat) (p : OrderPos) : (s.setOrderPos x out p).links = s.links := rfl
@[simp] theorem State.setOrderPos_maps (x out : Nat) (p : OrderPos) : (s.setOrderPos x out p).maps = s.maps := rfl
@[simp] theorem State.setOrderPos_chanMaps (x out : Nat) (p : OrderPos) : (s.setOrderPos x out p).chanMaps = s.chanMaps := rfl
@[simp] theorem State.setOrderPos_packets (x out : Nat) (p : OrderPos) : (s.setOrderPos x out p).packets = s.packets := rfl
@[simp] theorem State.setOrderPos_rr (x out : Nat) (p : OrderPos) : (s.setOrderPos x out p).rr = s.rr := rfl
@[simp] theorem State.setOrderPos_verdicts (x out : Nat) (p : OrderPos) : (s.setOrderPos x out p).verdicts = s.verdicts := rfl
@[simp] theorem State.setOrderPos_delivered (x out : Nat) (p : OrderPos) : (s.setOrderPos x out p).delivered = s.delivered := rfl
@[simp] theorem State.setOrderPos_subs (x out : Nat) (p : OrderPos) : (s.setOrderPos x out p).subs = s.subs := rfl
@[simp] theorem State.setOrderPos_udp (x out : Nat) (p : OrderPos) : (s.setOrderPos x out p).udp = s.udp := rfl
@[simp] theorem State.setOrderPos_mccs (x out : Nat) (p : OrderPos) : (s.setOrderPos x out p).mccs = s.mccs := rfl
@[simp] theorem State.setOrderPos_dram (x out : Nat) (p : OrderPos) : (s.setOrderPos x out p).dram = s.dram := rfl
@[simp] theorem State.setOrderPos_dramClean (x out : Nat) (p : OrderPos) : (s.setOrderPos x out p).dramClean = s.dramClean := rfl
@[simp] theorem State.setOrderPos_retireQ (x out : Nat) (p : OrderPos) : (s.setOrderPos x out p).retireQ = s.retireQ := rfl
@[simp] theorem State.setOrderPos_job (x out : Nat) (p : OrderPos) : (s.setOrderPos x out p).job = s.job := rfl
@[simp] theorem State.setOrderPos_reqs (x out : Nat) (p : OrderPos) : (s.setOrderPos x out p).reqs = s.reqs := rfl
@[simp] theorem State.setOrderPos_msgs (x out : Nat) (p : OrderPos) : (s.setOrderPos x out p).msgs = s.msgs := rfl
@[simp] theorem State.setOrderPos_tagCtr (x out : Nat) (p : OrderPos) : (s.setOrderPos x out p).tagCtr = s.tagCtr := rfl
@[simp] theorem State.setOrderPos_attns (x out : Nat) (p : OrderPos) : (s.setOrderPos x out p).attns = s.attns := rfl
@[simp] theorem State.setOrderPos_gens (x out : Nat) (p : OrderPos) : (s.setOrderPos x out p).gens = s.gens := rfl
@[simp] theorem State.setOrderPos_pages (x out : Nat) (p : OrderPos) : (s.setOrderPos x out p).pages = s.pages := rfl
@[simp] theorem State.setOrderPos_chunks (x out : Nat) (p : OrderPos) : (s.setOrderPos x out p).chunks = s.chunks := rfl
@[simp] theorem State.setOrderPos_oldDirs (x out : Nat) (p : OrderPos) : (s.setOrderPos x out p).oldDirs = s.oldDirs := rfl
@[simp] theorem State.setOrderPos_heldQ (x out : Nat) (p : OrderPos) : (s.setOrderPos x out p).heldQ = s.heldQ := rfl
@[simp] theorem State.setOrderPos_closes (x out : Nat) (p : OrderPos) : (s.setOrderPos x out p).closes = s.closes := rfl
@[simp] theorem State.setOrderPos_binds (x out : Nat) (p : OrderPos) : (s.setOrderPos x out p).binds = s.binds := rfl
@[simp] theorem State.setOrderPos_ports (x out : Nat) (p : OrderPos) : (s.setOrderPos x out p).ports = s.ports := rfl
@[simp] theorem State.setOrderPos_stepPend (x out : Nat) (p : OrderPos) : (s.setOrderPos x out p).stepPend = s.stepPend := rfl
@[simp] theorem State.setOrderPos_ptp (x out : Nat) (p : OrderPos) : (s.setOrderPos x out p).ptp = s.ptp := rfl
@[simp] theorem State.setOrderPos_regions (x out : Nat) (p : OrderPos) : (s.setOrderPos x out p).regions = s.regions := rfl
@[simp] theorem State.setOrderPos_reqOrder (x out : Nat) (p : OrderPos) : (s.setOrderPos x out p).reqOrder = s.reqOrder := rfl
@[simp] theorem State.setOrderPos_ctl (x out : Nat) (p : OrderPos) : (s.setOrderPos x out p).ctl = s.ctl := rfl
@[simp] theorem State.setOrderPos_mtr (x out : Nat) (p : OrderPos) : (s.setOrderPos x out p).mtr = s.mtr := rfl
@[simp] theorem State.setOrderPos_rcp (x out : Nat) (p : OrderPos) : (s.setOrderPos x out p).rcp = s.rcp := rfl
@[simp] theorem State.setOrderPos_sealLoop (x out : Nat) (p : OrderPos) : (s.setOrderPos x out p).sealLoop = s.sealLoop := rfl
@[simp] theorem State.setOrderPos_conns (x out : Nat) (p : OrderPos) : (s.setOrderPos x out p).conns = s.conns := rfl
@[simp] theorem State.setOrderPos_contents (x out : Nat) (p : OrderPos) : (s.setOrderPos x out p).contents = s.contents := rfl
@[simp] theorem State.setOrderPos_replies (x out : Nat) (p : OrderPos) : (s.setOrderPos x out p).replies = s.replies := rfl
@[simp] theorem State.setOrderPos_streamed (x out : Nat) (p : OrderPos) : (s.setOrderPos x out p).streamed = s.streamed := rfl
@[simp] theorem State.setOrderPos_bc (x out : Nat) (p : OrderPos) : (s.setOrderPos x out p).bc = s.bc := rfl
@[simp] theorem State.setOrderPos_bcast (x out : Nat) (p : OrderPos) : (s.setOrderPos x out p).bcast = s.bcast := rfl
@[simp] theorem State.setOrderPos_staging (x out : Nat) (p : OrderPos) : (s.setOrderPos x out p).staging = s.staging := rfl
@[simp] theorem State.setOrderPos_nv (x out : Nat) (p : OrderPos) : (s.setOrderPos x out p).nv = s.nv := rfl
@[simp] theorem State.setOrderPos_boot (x out : Nat) (p : OrderPos) : (s.setOrderPos x out p).boot = s.boot := rfl
@[simp] theorem State.setOrderPos_pair (x out : Nat) (p : OrderPos) : (s.setOrderPos x out p).pair = s.pair := rfl
@[simp] theorem State.setOrderPos_i3c (x out : Nat) (p : OrderPos) : (s.setOrderPos x out p).i3c = s.i3c := rfl
@[simp] theorem State.setOrderPos_accesses (x out : Nat) (p : OrderPos) : (s.setOrderPos x out p).accesses = s.accesses := rfl
@[simp] theorem State.setOrderPos_rsps (x out : Nat) (p : OrderPos) : (s.setOrderPos x out p).rsps = s.rsps := rfl
@[simp] theorem State.setOrderPos_svc (x out : Nat) (p : OrderPos) : (s.setOrderPos x out p).svc = s.svc := rfl
@[simp] theorem State.setOrderPos_svcWait (x out : Nat) (p : OrderPos) : (s.setOrderPos x out p).svcWait = s.svcWait := rfl

@[simp] theorem State.setSlotK_pending (x sel n k : Nat) : (s.setSlotK x sel n k).pending = s.pending := rfl
@[simp] theorem State.setSlotK_outbox (x sel n k : Nat) : (s.setSlotK x sel n k).outbox = s.outbox := rfl
@[simp] theorem State.setSlotK_freeCtr (x sel n k : Nat) : (s.setSlotK x sel n k).freeCtr = s.freeCtr := rfl
@[simp] theorem State.setSlotK_time (x sel n k : Nat) : (s.setSlotK x sel n k).time = s.time := rfl
@[simp] theorem State.setSlotK_facets (x sel n k : Nat) : (s.setSlotK x sel n k).facets = s.facets := rfl
@[simp] theorem State.setSlotK_regs (x sel n k : Nat) : (s.setSlotK x sel n k).regs = s.regs := rfl
@[simp] theorem State.setSlotK_staged (x sel n k : Nat) : (s.setSlotK x sel n k).staged = s.staged := rfl
@[simp] theorem State.setSlotK_blks (x sel n k : Nat) : (s.setSlotK x sel n k).blks = s.blks := rfl
@[simp] theorem State.setSlotK_hdrs (x sel n k : Nat) : (s.setSlotK x sel n k).hdrs = s.hdrs := rfl
@[simp] theorem State.setSlotK_latches (x sel n k : Nat) : (s.setSlotK x sel n k).latches = s.latches := rfl
@[simp] theorem State.setSlotK_log (x sel n k : Nat) : (s.setSlotK x sel n k).log = s.log := rfl
@[simp] theorem State.setSlotK_logSeq (x sel n k : Nat) : (s.setSlotK x sel n k).logSeq = s.logSeq := rfl
@[simp] theorem State.setSlotK_colls (x sel n k : Nat) : (s.setSlotK x sel n k).colls = s.colls := rfl
@[simp] theorem State.setSlotK_loupes (x sel n k : Nat) : (s.setSlotK x sel n k).loupes = s.loupes := rfl
@[simp] theorem State.setSlotK_origins (x sel n k : Nat) : (s.setSlotK x sel n k).origins = s.origins := rfl
@[simp] theorem State.setSlotK_tiles (x sel n k : Nat) : (s.setSlotK x sel n k).tiles = s.tiles := rfl
@[simp] theorem State.setSlotK_sync (x sel n k : Nat) : (s.setSlotK x sel n k).sync = s.sync := rfl
@[simp] theorem State.setSlotK_keys (x sel n k : Nat) : (s.setSlotK x sel n k).keys = s.keys := rfl
@[simp] theorem State.setSlotK_spad (x sel n k : Nat) : (s.setSlotK x sel n k).spad = s.spad := rfl
@[simp] theorem State.setSlotK_spadPoison (x sel n k : Nat) : (s.setSlotK x sel n k).spadPoison = s.spadPoison := rfl
@[simp] theorem State.setSlotK_imem (x sel n k : Nat) : (s.setSlotK x sel n k).imem = s.imem := rfl
@[simp] theorem State.setSlotK_telActive (x sel n k : Nat) : (s.setSlotK x sel n k).telActive = s.telActive := rfl
@[simp] theorem State.setSlotK_telFrozen (x sel n k : Nat) : (s.setSlotK x sel n k).telFrozen = s.telFrozen := rfl
@[simp] theorem State.setSlotK_telSwap (x sel n k : Nat) : (s.setSlotK x sel n k).telSwap = s.telSwap := rfl
@[simp] theorem State.setSlotK_rtrTbl (x sel n k : Nat) : (s.setSlotK x sel n k).rtrTbl = s.rtrTbl := rfl
@[simp] theorem State.setSlotK_inbuf (x sel n k : Nat) : (s.setSlotK x sel n k).inbuf = s.inbuf := rfl
@[simp] theorem State.setSlotK_order (x sel n k : Nat) : (s.setSlotK x sel n k).order = s.order := rfl
@[simp] theorem State.setSlotK_links (x sel n k : Nat) : (s.setSlotK x sel n k).links = s.links := rfl
@[simp] theorem State.setSlotK_maps (x sel n k : Nat) : (s.setSlotK x sel n k).maps = s.maps := rfl
@[simp] theorem State.setSlotK_chanMaps (x sel n k : Nat) : (s.setSlotK x sel n k).chanMaps = s.chanMaps := rfl
@[simp] theorem State.setSlotK_packets (x sel n k : Nat) : (s.setSlotK x sel n k).packets = s.packets := rfl
@[simp] theorem State.setSlotK_rr (x sel n k : Nat) : (s.setSlotK x sel n k).rr = s.rr := rfl
@[simp] theorem State.setSlotK_verdicts (x sel n k : Nat) : (s.setSlotK x sel n k).verdicts = s.verdicts := rfl
@[simp] theorem State.setSlotK_delivered (x sel n k : Nat) : (s.setSlotK x sel n k).delivered = s.delivered := rfl
@[simp] theorem State.setSlotK_subs (x sel n k : Nat) : (s.setSlotK x sel n k).subs = s.subs := rfl
@[simp] theorem State.setSlotK_udp (x sel n k : Nat) : (s.setSlotK x sel n k).udp = s.udp := rfl
@[simp] theorem State.setSlotK_mccs (x sel n k : Nat) : (s.setSlotK x sel n k).mccs = s.mccs := rfl
@[simp] theorem State.setSlotK_dram (x sel n k : Nat) : (s.setSlotK x sel n k).dram = s.dram := rfl
@[simp] theorem State.setSlotK_dramClean (x sel n k : Nat) : (s.setSlotK x sel n k).dramClean = s.dramClean := rfl
@[simp] theorem State.setSlotK_retireQ (x sel n k : Nat) : (s.setSlotK x sel n k).retireQ = s.retireQ := rfl
@[simp] theorem State.setSlotK_job (x sel n k : Nat) : (s.setSlotK x sel n k).job = s.job := rfl
@[simp] theorem State.setSlotK_reqs (x sel n k : Nat) : (s.setSlotK x sel n k).reqs = s.reqs := rfl
@[simp] theorem State.setSlotK_msgs (x sel n k : Nat) : (s.setSlotK x sel n k).msgs = s.msgs := rfl
@[simp] theorem State.setSlotK_tagCtr (x sel n k : Nat) : (s.setSlotK x sel n k).tagCtr = s.tagCtr := rfl
@[simp] theorem State.setSlotK_attns (x sel n k : Nat) : (s.setSlotK x sel n k).attns = s.attns := rfl
@[simp] theorem State.setSlotK_gens (x sel n k : Nat) : (s.setSlotK x sel n k).gens = s.gens := rfl
@[simp] theorem State.setSlotK_pages (x sel n k : Nat) : (s.setSlotK x sel n k).pages = s.pages := rfl
@[simp] theorem State.setSlotK_chunks (x sel n k : Nat) : (s.setSlotK x sel n k).chunks = s.chunks := rfl
@[simp] theorem State.setSlotK_oldDirs (x sel n k : Nat) : (s.setSlotK x sel n k).oldDirs = s.oldDirs := rfl
@[simp] theorem State.setSlotK_heldQ (x sel n k : Nat) : (s.setSlotK x sel n k).heldQ = s.heldQ := rfl
@[simp] theorem State.setSlotK_closes (x sel n k : Nat) : (s.setSlotK x sel n k).closes = s.closes := rfl
@[simp] theorem State.setSlotK_binds (x sel n k : Nat) : (s.setSlotK x sel n k).binds = s.binds := rfl
@[simp] theorem State.setSlotK_ports (x sel n k : Nat) : (s.setSlotK x sel n k).ports = s.ports := rfl
@[simp] theorem State.setSlotK_stepPend (x sel n k : Nat) : (s.setSlotK x sel n k).stepPend = s.stepPend := rfl
@[simp] theorem State.setSlotK_ptp (x sel n k : Nat) : (s.setSlotK x sel n k).ptp = s.ptp := rfl
@[simp] theorem State.setSlotK_regions (x sel n k : Nat) : (s.setSlotK x sel n k).regions = s.regions := rfl
@[simp] theorem State.setSlotK_reqOrder (x sel n k : Nat) : (s.setSlotK x sel n k).reqOrder = s.reqOrder := rfl
@[simp] theorem State.setSlotK_ctl (x sel n k : Nat) : (s.setSlotK x sel n k).ctl = s.ctl := rfl
@[simp] theorem State.setSlotK_mtr (x sel n k : Nat) : (s.setSlotK x sel n k).mtr = s.mtr := rfl
@[simp] theorem State.setSlotK_rcp (x sel n k : Nat) : (s.setSlotK x sel n k).rcp = s.rcp := rfl
@[simp] theorem State.setSlotK_sealLoop (x sel n k : Nat) : (s.setSlotK x sel n k).sealLoop = s.sealLoop := rfl
@[simp] theorem State.setSlotK_conns (x sel n k : Nat) : (s.setSlotK x sel n k).conns = s.conns := rfl
@[simp] theorem State.setSlotK_contents (x sel n k : Nat) : (s.setSlotK x sel n k).contents = s.contents := rfl
@[simp] theorem State.setSlotK_replies (x sel n k : Nat) : (s.setSlotK x sel n k).replies = s.replies := rfl
@[simp] theorem State.setSlotK_streamed (x sel n k : Nat) : (s.setSlotK x sel n k).streamed = s.streamed := rfl
@[simp] theorem State.setSlotK_bc (x sel n k : Nat) : (s.setSlotK x sel n k).bc = s.bc := rfl
@[simp] theorem State.setSlotK_bcast (x sel n k : Nat) : (s.setSlotK x sel n k).bcast = s.bcast := rfl
@[simp] theorem State.setSlotK_staging (x sel n k : Nat) : (s.setSlotK x sel n k).staging = s.staging := rfl
@[simp] theorem State.setSlotK_nv (x sel n k : Nat) : (s.setSlotK x sel n k).nv = s.nv := rfl
@[simp] theorem State.setSlotK_boot (x sel n k : Nat) : (s.setSlotK x sel n k).boot = s.boot := rfl
@[simp] theorem State.setSlotK_pair (x sel n k : Nat) : (s.setSlotK x sel n k).pair = s.pair := rfl
@[simp] theorem State.setSlotK_i3c (x sel n k : Nat) : (s.setSlotK x sel n k).i3c = s.i3c := rfl
@[simp] theorem State.setSlotK_accesses (x sel n k : Nat) : (s.setSlotK x sel n k).accesses = s.accesses := rfl
@[simp] theorem State.setSlotK_rsps (x sel n k : Nat) : (s.setSlotK x sel n k).rsps = s.rsps := rfl
@[simp] theorem State.setSlotK_svc (x sel n k : Nat) : (s.setSlotK x sel n k).svc = s.svc := rfl
@[simp] theorem State.setSlotK_svcWait (x sel n k : Nat) : (s.setSlotK x sel n k).svcWait = s.svcWait := rfl

@[simp] theorem State.mapCtl_pending (f : Ctl → Ctl) : (s.mapCtl f).pending = s.pending := rfl
@[simp] theorem State.mapCtl_outbox (f : Ctl → Ctl) : (s.mapCtl f).outbox = s.outbox := rfl
@[simp] theorem State.mapCtl_freeCtr (f : Ctl → Ctl) : (s.mapCtl f).freeCtr = s.freeCtr := rfl
@[simp] theorem State.mapCtl_time (f : Ctl → Ctl) : (s.mapCtl f).time = s.time := rfl
@[simp] theorem State.mapCtl_facets (f : Ctl → Ctl) : (s.mapCtl f).facets = s.facets := rfl
@[simp] theorem State.mapCtl_regs (f : Ctl → Ctl) : (s.mapCtl f).regs = s.regs := rfl
@[simp] theorem State.mapCtl_staged (f : Ctl → Ctl) : (s.mapCtl f).staged = s.staged := rfl
@[simp] theorem State.mapCtl_blks (f : Ctl → Ctl) : (s.mapCtl f).blks = s.blks := rfl
@[simp] theorem State.mapCtl_hdrs (f : Ctl → Ctl) : (s.mapCtl f).hdrs = s.hdrs := rfl
@[simp] theorem State.mapCtl_latches (f : Ctl → Ctl) : (s.mapCtl f).latches = s.latches := rfl
@[simp] theorem State.mapCtl_log (f : Ctl → Ctl) : (s.mapCtl f).log = s.log := rfl
@[simp] theorem State.mapCtl_logSeq (f : Ctl → Ctl) : (s.mapCtl f).logSeq = s.logSeq := rfl
@[simp] theorem State.mapCtl_colls (f : Ctl → Ctl) : (s.mapCtl f).colls = s.colls := rfl
@[simp] theorem State.mapCtl_loupes (f : Ctl → Ctl) : (s.mapCtl f).loupes = s.loupes := rfl
@[simp] theorem State.mapCtl_origins (f : Ctl → Ctl) : (s.mapCtl f).origins = s.origins := rfl
@[simp] theorem State.mapCtl_tiles (f : Ctl → Ctl) : (s.mapCtl f).tiles = s.tiles := rfl
@[simp] theorem State.mapCtl_sync (f : Ctl → Ctl) : (s.mapCtl f).sync = s.sync := rfl
@[simp] theorem State.mapCtl_keys (f : Ctl → Ctl) : (s.mapCtl f).keys = s.keys := rfl
@[simp] theorem State.mapCtl_spad (f : Ctl → Ctl) : (s.mapCtl f).spad = s.spad := rfl
@[simp] theorem State.mapCtl_spadPoison (f : Ctl → Ctl) : (s.mapCtl f).spadPoison = s.spadPoison := rfl
@[simp] theorem State.mapCtl_imem (f : Ctl → Ctl) : (s.mapCtl f).imem = s.imem := rfl
@[simp] theorem State.mapCtl_telActive (f : Ctl → Ctl) : (s.mapCtl f).telActive = s.telActive := rfl
@[simp] theorem State.mapCtl_telFrozen (f : Ctl → Ctl) : (s.mapCtl f).telFrozen = s.telFrozen := rfl
@[simp] theorem State.mapCtl_telSwap (f : Ctl → Ctl) : (s.mapCtl f).telSwap = s.telSwap := rfl
@[simp] theorem State.mapCtl_rtrTbl (f : Ctl → Ctl) : (s.mapCtl f).rtrTbl = s.rtrTbl := rfl
@[simp] theorem State.mapCtl_slotCtr (f : Ctl → Ctl) : (s.mapCtl f).slotCtr = s.slotCtr := rfl
@[simp] theorem State.mapCtl_inbuf (f : Ctl → Ctl) : (s.mapCtl f).inbuf = s.inbuf := rfl
@[simp] theorem State.mapCtl_order (f : Ctl → Ctl) : (s.mapCtl f).order = s.order := rfl
@[simp] theorem State.mapCtl_links (f : Ctl → Ctl) : (s.mapCtl f).links = s.links := rfl
@[simp] theorem State.mapCtl_maps (f : Ctl → Ctl) : (s.mapCtl f).maps = s.maps := rfl
@[simp] theorem State.mapCtl_chanMaps (f : Ctl → Ctl) : (s.mapCtl f).chanMaps = s.chanMaps := rfl
@[simp] theorem State.mapCtl_packets (f : Ctl → Ctl) : (s.mapCtl f).packets = s.packets := rfl
@[simp] theorem State.mapCtl_rr (f : Ctl → Ctl) : (s.mapCtl f).rr = s.rr := rfl
@[simp] theorem State.mapCtl_verdicts (f : Ctl → Ctl) : (s.mapCtl f).verdicts = s.verdicts := rfl
@[simp] theorem State.mapCtl_delivered (f : Ctl → Ctl) : (s.mapCtl f).delivered = s.delivered := rfl
@[simp] theorem State.mapCtl_subs (f : Ctl → Ctl) : (s.mapCtl f).subs = s.subs := rfl
@[simp] theorem State.mapCtl_udp (f : Ctl → Ctl) : (s.mapCtl f).udp = s.udp := rfl
@[simp] theorem State.mapCtl_mccs (f : Ctl → Ctl) : (s.mapCtl f).mccs = s.mccs := rfl
@[simp] theorem State.mapCtl_dram (f : Ctl → Ctl) : (s.mapCtl f).dram = s.dram := rfl
@[simp] theorem State.mapCtl_dramClean (f : Ctl → Ctl) : (s.mapCtl f).dramClean = s.dramClean := rfl
@[simp] theorem State.mapCtl_retireQ (f : Ctl → Ctl) : (s.mapCtl f).retireQ = s.retireQ := rfl
@[simp] theorem State.mapCtl_job (f : Ctl → Ctl) : (s.mapCtl f).job = s.job := rfl
@[simp] theorem State.mapCtl_reqs (f : Ctl → Ctl) : (s.mapCtl f).reqs = s.reqs := rfl
@[simp] theorem State.mapCtl_msgs (f : Ctl → Ctl) : (s.mapCtl f).msgs = s.msgs := rfl
@[simp] theorem State.mapCtl_tagCtr (f : Ctl → Ctl) : (s.mapCtl f).tagCtr = s.tagCtr := rfl
@[simp] theorem State.mapCtl_attns (f : Ctl → Ctl) : (s.mapCtl f).attns = s.attns := rfl
@[simp] theorem State.mapCtl_gens (f : Ctl → Ctl) : (s.mapCtl f).gens = s.gens := rfl
@[simp] theorem State.mapCtl_pages (f : Ctl → Ctl) : (s.mapCtl f).pages = s.pages := rfl
@[simp] theorem State.mapCtl_chunks (f : Ctl → Ctl) : (s.mapCtl f).chunks = s.chunks := rfl
@[simp] theorem State.mapCtl_oldDirs (f : Ctl → Ctl) : (s.mapCtl f).oldDirs = s.oldDirs := rfl
@[simp] theorem State.mapCtl_heldQ (f : Ctl → Ctl) : (s.mapCtl f).heldQ = s.heldQ := rfl
@[simp] theorem State.mapCtl_closes (f : Ctl → Ctl) : (s.mapCtl f).closes = s.closes := rfl
@[simp] theorem State.mapCtl_binds (f : Ctl → Ctl) : (s.mapCtl f).binds = s.binds := rfl
@[simp] theorem State.mapCtl_ports (f : Ctl → Ctl) : (s.mapCtl f).ports = s.ports := rfl
@[simp] theorem State.mapCtl_stepPend (f : Ctl → Ctl) : (s.mapCtl f).stepPend = s.stepPend := rfl
@[simp] theorem State.mapCtl_ptp (f : Ctl → Ctl) : (s.mapCtl f).ptp = s.ptp := rfl
@[simp] theorem State.mapCtl_regions (f : Ctl → Ctl) : (s.mapCtl f).regions = s.regions := rfl
@[simp] theorem State.mapCtl_reqOrder (f : Ctl → Ctl) : (s.mapCtl f).reqOrder = s.reqOrder := rfl
@[simp] theorem State.mapCtl_mtr (f : Ctl → Ctl) : (s.mapCtl f).mtr = s.mtr := rfl
@[simp] theorem State.mapCtl_rcp (f : Ctl → Ctl) : (s.mapCtl f).rcp = s.rcp := rfl
@[simp] theorem State.mapCtl_sealLoop (f : Ctl → Ctl) : (s.mapCtl f).sealLoop = s.sealLoop := rfl
@[simp] theorem State.mapCtl_conns (f : Ctl → Ctl) : (s.mapCtl f).conns = s.conns := rfl
@[simp] theorem State.mapCtl_contents (f : Ctl → Ctl) : (s.mapCtl f).contents = s.contents := rfl
@[simp] theorem State.mapCtl_replies (f : Ctl → Ctl) : (s.mapCtl f).replies = s.replies := rfl
@[simp] theorem State.mapCtl_streamed (f : Ctl → Ctl) : (s.mapCtl f).streamed = s.streamed := rfl
@[simp] theorem State.mapCtl_bc (f : Ctl → Ctl) : (s.mapCtl f).bc = s.bc := rfl
@[simp] theorem State.mapCtl_bcast (f : Ctl → Ctl) : (s.mapCtl f).bcast = s.bcast := rfl
@[simp] theorem State.mapCtl_staging (f : Ctl → Ctl) : (s.mapCtl f).staging = s.staging := rfl
@[simp] theorem State.mapCtl_nv (f : Ctl → Ctl) : (s.mapCtl f).nv = s.nv := rfl
@[simp] theorem State.mapCtl_boot (f : Ctl → Ctl) : (s.mapCtl f).boot = s.boot := rfl
@[simp] theorem State.mapCtl_pair (f : Ctl → Ctl) : (s.mapCtl f).pair = s.pair := rfl
@[simp] theorem State.mapCtl_i3c (f : Ctl → Ctl) : (s.mapCtl f).i3c = s.i3c := rfl
@[simp] theorem State.mapCtl_accesses (f : Ctl → Ctl) : (s.mapCtl f).accesses = s.accesses := rfl
@[simp] theorem State.mapCtl_rsps (f : Ctl → Ctl) : (s.mapCtl f).rsps = s.rsps := rfl
@[simp] theorem State.mapCtl_svc (f : Ctl → Ctl) : (s.mapCtl f).svc = s.svc := rfl
@[simp] theorem State.mapCtl_svcWait (f : Ctl → Ctl) : (s.mapCtl f).svcWait = s.svcWait := rfl

@[simp] theorem State.mapMtr_pending (f : Mtr → Mtr) : (s.mapMtr f).pending = s.pending := rfl
@[simp] theorem State.mapMtr_outbox (f : Mtr → Mtr) : (s.mapMtr f).outbox = s.outbox := rfl
@[simp] theorem State.mapMtr_freeCtr (f : Mtr → Mtr) : (s.mapMtr f).freeCtr = s.freeCtr := rfl
@[simp] theorem State.mapMtr_time (f : Mtr → Mtr) : (s.mapMtr f).time = s.time := rfl
@[simp] theorem State.mapMtr_facets (f : Mtr → Mtr) : (s.mapMtr f).facets = s.facets := rfl
@[simp] theorem State.mapMtr_regs (f : Mtr → Mtr) : (s.mapMtr f).regs = s.regs := rfl
@[simp] theorem State.mapMtr_staged (f : Mtr → Mtr) : (s.mapMtr f).staged = s.staged := rfl
@[simp] theorem State.mapMtr_blks (f : Mtr → Mtr) : (s.mapMtr f).blks = s.blks := rfl
@[simp] theorem State.mapMtr_hdrs (f : Mtr → Mtr) : (s.mapMtr f).hdrs = s.hdrs := rfl
@[simp] theorem State.mapMtr_latches (f : Mtr → Mtr) : (s.mapMtr f).latches = s.latches := rfl
@[simp] theorem State.mapMtr_log (f : Mtr → Mtr) : (s.mapMtr f).log = s.log := rfl
@[simp] theorem State.mapMtr_logSeq (f : Mtr → Mtr) : (s.mapMtr f).logSeq = s.logSeq := rfl
@[simp] theorem State.mapMtr_colls (f : Mtr → Mtr) : (s.mapMtr f).colls = s.colls := rfl
@[simp] theorem State.mapMtr_loupes (f : Mtr → Mtr) : (s.mapMtr f).loupes = s.loupes := rfl
@[simp] theorem State.mapMtr_origins (f : Mtr → Mtr) : (s.mapMtr f).origins = s.origins := rfl
@[simp] theorem State.mapMtr_tiles (f : Mtr → Mtr) : (s.mapMtr f).tiles = s.tiles := rfl
@[simp] theorem State.mapMtr_sync (f : Mtr → Mtr) : (s.mapMtr f).sync = s.sync := rfl
@[simp] theorem State.mapMtr_keys (f : Mtr → Mtr) : (s.mapMtr f).keys = s.keys := rfl
@[simp] theorem State.mapMtr_spad (f : Mtr → Mtr) : (s.mapMtr f).spad = s.spad := rfl
@[simp] theorem State.mapMtr_spadPoison (f : Mtr → Mtr) : (s.mapMtr f).spadPoison = s.spadPoison := rfl
@[simp] theorem State.mapMtr_imem (f : Mtr → Mtr) : (s.mapMtr f).imem = s.imem := rfl
@[simp] theorem State.mapMtr_telActive (f : Mtr → Mtr) : (s.mapMtr f).telActive = s.telActive := rfl
@[simp] theorem State.mapMtr_telFrozen (f : Mtr → Mtr) : (s.mapMtr f).telFrozen = s.telFrozen := rfl
@[simp] theorem State.mapMtr_telSwap (f : Mtr → Mtr) : (s.mapMtr f).telSwap = s.telSwap := rfl
@[simp] theorem State.mapMtr_rtrTbl (f : Mtr → Mtr) : (s.mapMtr f).rtrTbl = s.rtrTbl := rfl
@[simp] theorem State.mapMtr_slotCtr (f : Mtr → Mtr) : (s.mapMtr f).slotCtr = s.slotCtr := rfl
@[simp] theorem State.mapMtr_inbuf (f : Mtr → Mtr) : (s.mapMtr f).inbuf = s.inbuf := rfl
@[simp] theorem State.mapMtr_order (f : Mtr → Mtr) : (s.mapMtr f).order = s.order := rfl
@[simp] theorem State.mapMtr_links (f : Mtr → Mtr) : (s.mapMtr f).links = s.links := rfl
@[simp] theorem State.mapMtr_maps (f : Mtr → Mtr) : (s.mapMtr f).maps = s.maps := rfl
@[simp] theorem State.mapMtr_chanMaps (f : Mtr → Mtr) : (s.mapMtr f).chanMaps = s.chanMaps := rfl
@[simp] theorem State.mapMtr_packets (f : Mtr → Mtr) : (s.mapMtr f).packets = s.packets := rfl
@[simp] theorem State.mapMtr_rr (f : Mtr → Mtr) : (s.mapMtr f).rr = s.rr := rfl
@[simp] theorem State.mapMtr_verdicts (f : Mtr → Mtr) : (s.mapMtr f).verdicts = s.verdicts := rfl
@[simp] theorem State.mapMtr_delivered (f : Mtr → Mtr) : (s.mapMtr f).delivered = s.delivered := rfl
@[simp] theorem State.mapMtr_subs (f : Mtr → Mtr) : (s.mapMtr f).subs = s.subs := rfl
@[simp] theorem State.mapMtr_udp (f : Mtr → Mtr) : (s.mapMtr f).udp = s.udp := rfl
@[simp] theorem State.mapMtr_mccs (f : Mtr → Mtr) : (s.mapMtr f).mccs = s.mccs := rfl
@[simp] theorem State.mapMtr_dram (f : Mtr → Mtr) : (s.mapMtr f).dram = s.dram := rfl
@[simp] theorem State.mapMtr_dramClean (f : Mtr → Mtr) : (s.mapMtr f).dramClean = s.dramClean := rfl
@[simp] theorem State.mapMtr_retireQ (f : Mtr → Mtr) : (s.mapMtr f).retireQ = s.retireQ := rfl
@[simp] theorem State.mapMtr_job (f : Mtr → Mtr) : (s.mapMtr f).job = s.job := rfl
@[simp] theorem State.mapMtr_reqs (f : Mtr → Mtr) : (s.mapMtr f).reqs = s.reqs := rfl
@[simp] theorem State.mapMtr_msgs (f : Mtr → Mtr) : (s.mapMtr f).msgs = s.msgs := rfl
@[simp] theorem State.mapMtr_tagCtr (f : Mtr → Mtr) : (s.mapMtr f).tagCtr = s.tagCtr := rfl
@[simp] theorem State.mapMtr_attns (f : Mtr → Mtr) : (s.mapMtr f).attns = s.attns := rfl
@[simp] theorem State.mapMtr_gens (f : Mtr → Mtr) : (s.mapMtr f).gens = s.gens := rfl
@[simp] theorem State.mapMtr_pages (f : Mtr → Mtr) : (s.mapMtr f).pages = s.pages := rfl
@[simp] theorem State.mapMtr_chunks (f : Mtr → Mtr) : (s.mapMtr f).chunks = s.chunks := rfl
@[simp] theorem State.mapMtr_oldDirs (f : Mtr → Mtr) : (s.mapMtr f).oldDirs = s.oldDirs := rfl
@[simp] theorem State.mapMtr_heldQ (f : Mtr → Mtr) : (s.mapMtr f).heldQ = s.heldQ := rfl
@[simp] theorem State.mapMtr_closes (f : Mtr → Mtr) : (s.mapMtr f).closes = s.closes := rfl
@[simp] theorem State.mapMtr_binds (f : Mtr → Mtr) : (s.mapMtr f).binds = s.binds := rfl
@[simp] theorem State.mapMtr_ports (f : Mtr → Mtr) : (s.mapMtr f).ports = s.ports := rfl
@[simp] theorem State.mapMtr_stepPend (f : Mtr → Mtr) : (s.mapMtr f).stepPend = s.stepPend := rfl
@[simp] theorem State.mapMtr_ptp (f : Mtr → Mtr) : (s.mapMtr f).ptp = s.ptp := rfl
@[simp] theorem State.mapMtr_regions (f : Mtr → Mtr) : (s.mapMtr f).regions = s.regions := rfl
@[simp] theorem State.mapMtr_reqOrder (f : Mtr → Mtr) : (s.mapMtr f).reqOrder = s.reqOrder := rfl
@[simp] theorem State.mapMtr_ctl (f : Mtr → Mtr) : (s.mapMtr f).ctl = s.ctl := rfl
@[simp] theorem State.mapMtr_rcp (f : Mtr → Mtr) : (s.mapMtr f).rcp = s.rcp := rfl
@[simp] theorem State.mapMtr_sealLoop (f : Mtr → Mtr) : (s.mapMtr f).sealLoop = s.sealLoop := rfl
@[simp] theorem State.mapMtr_conns (f : Mtr → Mtr) : (s.mapMtr f).conns = s.conns := rfl
@[simp] theorem State.mapMtr_contents (f : Mtr → Mtr) : (s.mapMtr f).contents = s.contents := rfl
@[simp] theorem State.mapMtr_replies (f : Mtr → Mtr) : (s.mapMtr f).replies = s.replies := rfl
@[simp] theorem State.mapMtr_streamed (f : Mtr → Mtr) : (s.mapMtr f).streamed = s.streamed := rfl
@[simp] theorem State.mapMtr_bc (f : Mtr → Mtr) : (s.mapMtr f).bc = s.bc := rfl
@[simp] theorem State.mapMtr_bcast (f : Mtr → Mtr) : (s.mapMtr f).bcast = s.bcast := rfl
@[simp] theorem State.mapMtr_staging (f : Mtr → Mtr) : (s.mapMtr f).staging = s.staging := rfl
@[simp] theorem State.mapMtr_nv (f : Mtr → Mtr) : (s.mapMtr f).nv = s.nv := rfl
@[simp] theorem State.mapMtr_boot (f : Mtr → Mtr) : (s.mapMtr f).boot = s.boot := rfl
@[simp] theorem State.mapMtr_pair (f : Mtr → Mtr) : (s.mapMtr f).pair = s.pair := rfl
@[simp] theorem State.mapMtr_i3c (f : Mtr → Mtr) : (s.mapMtr f).i3c = s.i3c := rfl
@[simp] theorem State.mapMtr_accesses (f : Mtr → Mtr) : (s.mapMtr f).accesses = s.accesses := rfl
@[simp] theorem State.mapMtr_rsps (f : Mtr → Mtr) : (s.mapMtr f).rsps = s.rsps := rfl
@[simp] theorem State.mapMtr_svc (f : Mtr → Mtr) : (s.mapMtr f).svc = s.svc := rfl
@[simp] theorem State.mapMtr_svcWait (f : Mtr → Mtr) : (s.mapMtr f).svcWait = s.svcWait := rfl

@[simp] theorem State.mapRcp_pending (f : Rcp → Rcp) : (s.mapRcp f).pending = s.pending := rfl
@[simp] theorem State.mapRcp_outbox (f : Rcp → Rcp) : (s.mapRcp f).outbox = s.outbox := rfl
@[simp] theorem State.mapRcp_freeCtr (f : Rcp → Rcp) : (s.mapRcp f).freeCtr = s.freeCtr := rfl
@[simp] theorem State.mapRcp_time (f : Rcp → Rcp) : (s.mapRcp f).time = s.time := rfl
@[simp] theorem State.mapRcp_facets (f : Rcp → Rcp) : (s.mapRcp f).facets = s.facets := rfl
@[simp] theorem State.mapRcp_regs (f : Rcp → Rcp) : (s.mapRcp f).regs = s.regs := rfl
@[simp] theorem State.mapRcp_staged (f : Rcp → Rcp) : (s.mapRcp f).staged = s.staged := rfl
@[simp] theorem State.mapRcp_blks (f : Rcp → Rcp) : (s.mapRcp f).blks = s.blks := rfl
@[simp] theorem State.mapRcp_hdrs (f : Rcp → Rcp) : (s.mapRcp f).hdrs = s.hdrs := rfl
@[simp] theorem State.mapRcp_latches (f : Rcp → Rcp) : (s.mapRcp f).latches = s.latches := rfl
@[simp] theorem State.mapRcp_log (f : Rcp → Rcp) : (s.mapRcp f).log = s.log := rfl
@[simp] theorem State.mapRcp_logSeq (f : Rcp → Rcp) : (s.mapRcp f).logSeq = s.logSeq := rfl
@[simp] theorem State.mapRcp_colls (f : Rcp → Rcp) : (s.mapRcp f).colls = s.colls := rfl
@[simp] theorem State.mapRcp_loupes (f : Rcp → Rcp) : (s.mapRcp f).loupes = s.loupes := rfl
@[simp] theorem State.mapRcp_origins (f : Rcp → Rcp) : (s.mapRcp f).origins = s.origins := rfl
@[simp] theorem State.mapRcp_tiles (f : Rcp → Rcp) : (s.mapRcp f).tiles = s.tiles := rfl
@[simp] theorem State.mapRcp_sync (f : Rcp → Rcp) : (s.mapRcp f).sync = s.sync := rfl
@[simp] theorem State.mapRcp_keys (f : Rcp → Rcp) : (s.mapRcp f).keys = s.keys := rfl
@[simp] theorem State.mapRcp_spad (f : Rcp → Rcp) : (s.mapRcp f).spad = s.spad := rfl
@[simp] theorem State.mapRcp_spadPoison (f : Rcp → Rcp) : (s.mapRcp f).spadPoison = s.spadPoison := rfl
@[simp] theorem State.mapRcp_imem (f : Rcp → Rcp) : (s.mapRcp f).imem = s.imem := rfl
@[simp] theorem State.mapRcp_telActive (f : Rcp → Rcp) : (s.mapRcp f).telActive = s.telActive := rfl
@[simp] theorem State.mapRcp_telFrozen (f : Rcp → Rcp) : (s.mapRcp f).telFrozen = s.telFrozen := rfl
@[simp] theorem State.mapRcp_telSwap (f : Rcp → Rcp) : (s.mapRcp f).telSwap = s.telSwap := rfl
@[simp] theorem State.mapRcp_rtrTbl (f : Rcp → Rcp) : (s.mapRcp f).rtrTbl = s.rtrTbl := rfl
@[simp] theorem State.mapRcp_slotCtr (f : Rcp → Rcp) : (s.mapRcp f).slotCtr = s.slotCtr := rfl
@[simp] theorem State.mapRcp_inbuf (f : Rcp → Rcp) : (s.mapRcp f).inbuf = s.inbuf := rfl
@[simp] theorem State.mapRcp_order (f : Rcp → Rcp) : (s.mapRcp f).order = s.order := rfl
@[simp] theorem State.mapRcp_links (f : Rcp → Rcp) : (s.mapRcp f).links = s.links := rfl
@[simp] theorem State.mapRcp_maps (f : Rcp → Rcp) : (s.mapRcp f).maps = s.maps := rfl
@[simp] theorem State.mapRcp_chanMaps (f : Rcp → Rcp) : (s.mapRcp f).chanMaps = s.chanMaps := rfl
@[simp] theorem State.mapRcp_packets (f : Rcp → Rcp) : (s.mapRcp f).packets = s.packets := rfl
@[simp] theorem State.mapRcp_rr (f : Rcp → Rcp) : (s.mapRcp f).rr = s.rr := rfl
@[simp] theorem State.mapRcp_verdicts (f : Rcp → Rcp) : (s.mapRcp f).verdicts = s.verdicts := rfl
@[simp] theorem State.mapRcp_delivered (f : Rcp → Rcp) : (s.mapRcp f).delivered = s.delivered := rfl
@[simp] theorem State.mapRcp_subs (f : Rcp → Rcp) : (s.mapRcp f).subs = s.subs := rfl
@[simp] theorem State.mapRcp_udp (f : Rcp → Rcp) : (s.mapRcp f).udp = s.udp := rfl
@[simp] theorem State.mapRcp_mccs (f : Rcp → Rcp) : (s.mapRcp f).mccs = s.mccs := rfl
@[simp] theorem State.mapRcp_dram (f : Rcp → Rcp) : (s.mapRcp f).dram = s.dram := rfl
@[simp] theorem State.mapRcp_dramClean (f : Rcp → Rcp) : (s.mapRcp f).dramClean = s.dramClean := rfl
@[simp] theorem State.mapRcp_retireQ (f : Rcp → Rcp) : (s.mapRcp f).retireQ = s.retireQ := rfl
@[simp] theorem State.mapRcp_job (f : Rcp → Rcp) : (s.mapRcp f).job = s.job := rfl
@[simp] theorem State.mapRcp_reqs (f : Rcp → Rcp) : (s.mapRcp f).reqs = s.reqs := rfl
@[simp] theorem State.mapRcp_msgs (f : Rcp → Rcp) : (s.mapRcp f).msgs = s.msgs := rfl
@[simp] theorem State.mapRcp_tagCtr (f : Rcp → Rcp) : (s.mapRcp f).tagCtr = s.tagCtr := rfl
@[simp] theorem State.mapRcp_attns (f : Rcp → Rcp) : (s.mapRcp f).attns = s.attns := rfl
@[simp] theorem State.mapRcp_gens (f : Rcp → Rcp) : (s.mapRcp f).gens = s.gens := rfl
@[simp] theorem State.mapRcp_pages (f : Rcp → Rcp) : (s.mapRcp f).pages = s.pages := rfl
@[simp] theorem State.mapRcp_chunks (f : Rcp → Rcp) : (s.mapRcp f).chunks = s.chunks := rfl
@[simp] theorem State.mapRcp_oldDirs (f : Rcp → Rcp) : (s.mapRcp f).oldDirs = s.oldDirs := rfl
@[simp] theorem State.mapRcp_heldQ (f : Rcp → Rcp) : (s.mapRcp f).heldQ = s.heldQ := rfl
@[simp] theorem State.mapRcp_closes (f : Rcp → Rcp) : (s.mapRcp f).closes = s.closes := rfl
@[simp] theorem State.mapRcp_binds (f : Rcp → Rcp) : (s.mapRcp f).binds = s.binds := rfl
@[simp] theorem State.mapRcp_ports (f : Rcp → Rcp) : (s.mapRcp f).ports = s.ports := rfl
@[simp] theorem State.mapRcp_stepPend (f : Rcp → Rcp) : (s.mapRcp f).stepPend = s.stepPend := rfl
@[simp] theorem State.mapRcp_ptp (f : Rcp → Rcp) : (s.mapRcp f).ptp = s.ptp := rfl
@[simp] theorem State.mapRcp_regions (f : Rcp → Rcp) : (s.mapRcp f).regions = s.regions := rfl
@[simp] theorem State.mapRcp_reqOrder (f : Rcp → Rcp) : (s.mapRcp f).reqOrder = s.reqOrder := rfl
@[simp] theorem State.mapRcp_ctl (f : Rcp → Rcp) : (s.mapRcp f).ctl = s.ctl := rfl
@[simp] theorem State.mapRcp_mtr (f : Rcp → Rcp) : (s.mapRcp f).mtr = s.mtr := rfl
@[simp] theorem State.mapRcp_sealLoop (f : Rcp → Rcp) : (s.mapRcp f).sealLoop = s.sealLoop := rfl
@[simp] theorem State.mapRcp_conns (f : Rcp → Rcp) : (s.mapRcp f).conns = s.conns := rfl
@[simp] theorem State.mapRcp_contents (f : Rcp → Rcp) : (s.mapRcp f).contents = s.contents := rfl
@[simp] theorem State.mapRcp_replies (f : Rcp → Rcp) : (s.mapRcp f).replies = s.replies := rfl
@[simp] theorem State.mapRcp_streamed (f : Rcp → Rcp) : (s.mapRcp f).streamed = s.streamed := rfl
@[simp] theorem State.mapRcp_bc (f : Rcp → Rcp) : (s.mapRcp f).bc = s.bc := rfl
@[simp] theorem State.mapRcp_bcast (f : Rcp → Rcp) : (s.mapRcp f).bcast = s.bcast := rfl
@[simp] theorem State.mapRcp_staging (f : Rcp → Rcp) : (s.mapRcp f).staging = s.staging := rfl
@[simp] theorem State.mapRcp_nv (f : Rcp → Rcp) : (s.mapRcp f).nv = s.nv := rfl
@[simp] theorem State.mapRcp_boot (f : Rcp → Rcp) : (s.mapRcp f).boot = s.boot := rfl
@[simp] theorem State.mapRcp_pair (f : Rcp → Rcp) : (s.mapRcp f).pair = s.pair := rfl
@[simp] theorem State.mapRcp_i3c (f : Rcp → Rcp) : (s.mapRcp f).i3c = s.i3c := rfl
@[simp] theorem State.mapRcp_accesses (f : Rcp → Rcp) : (s.mapRcp f).accesses = s.accesses := rfl
@[simp] theorem State.mapRcp_rsps (f : Rcp → Rcp) : (s.mapRcp f).rsps = s.rsps := rfl
@[simp] theorem State.mapRcp_svc (f : Rcp → Rcp) : (s.mapRcp f).svc = s.svc := rfl
@[simp] theorem State.mapRcp_svcWait (f : Rcp → Rcp) : (s.mapRcp f).svcWait = s.svcWait := rfl

@[simp] theorem State.mapPair_pending (f : Pair → Pair) : (s.mapPair f).pending = s.pending := rfl
@[simp] theorem State.mapPair_outbox (f : Pair → Pair) : (s.mapPair f).outbox = s.outbox := rfl
@[simp] theorem State.mapPair_freeCtr (f : Pair → Pair) : (s.mapPair f).freeCtr = s.freeCtr := rfl
@[simp] theorem State.mapPair_time (f : Pair → Pair) : (s.mapPair f).time = s.time := rfl
@[simp] theorem State.mapPair_facets (f : Pair → Pair) : (s.mapPair f).facets = s.facets := rfl
@[simp] theorem State.mapPair_regs (f : Pair → Pair) : (s.mapPair f).regs = s.regs := rfl
@[simp] theorem State.mapPair_staged (f : Pair → Pair) : (s.mapPair f).staged = s.staged := rfl
@[simp] theorem State.mapPair_blks (f : Pair → Pair) : (s.mapPair f).blks = s.blks := rfl
@[simp] theorem State.mapPair_hdrs (f : Pair → Pair) : (s.mapPair f).hdrs = s.hdrs := rfl
@[simp] theorem State.mapPair_latches (f : Pair → Pair) : (s.mapPair f).latches = s.latches := rfl
@[simp] theorem State.mapPair_log (f : Pair → Pair) : (s.mapPair f).log = s.log := rfl
@[simp] theorem State.mapPair_logSeq (f : Pair → Pair) : (s.mapPair f).logSeq = s.logSeq := rfl
@[simp] theorem State.mapPair_colls (f : Pair → Pair) : (s.mapPair f).colls = s.colls := rfl
@[simp] theorem State.mapPair_loupes (f : Pair → Pair) : (s.mapPair f).loupes = s.loupes := rfl
@[simp] theorem State.mapPair_origins (f : Pair → Pair) : (s.mapPair f).origins = s.origins := rfl
@[simp] theorem State.mapPair_tiles (f : Pair → Pair) : (s.mapPair f).tiles = s.tiles := rfl
@[simp] theorem State.mapPair_sync (f : Pair → Pair) : (s.mapPair f).sync = s.sync := rfl
@[simp] theorem State.mapPair_keys (f : Pair → Pair) : (s.mapPair f).keys = s.keys := rfl
@[simp] theorem State.mapPair_spad (f : Pair → Pair) : (s.mapPair f).spad = s.spad := rfl
@[simp] theorem State.mapPair_spadPoison (f : Pair → Pair) : (s.mapPair f).spadPoison = s.spadPoison := rfl
@[simp] theorem State.mapPair_imem (f : Pair → Pair) : (s.mapPair f).imem = s.imem := rfl
@[simp] theorem State.mapPair_telActive (f : Pair → Pair) : (s.mapPair f).telActive = s.telActive := rfl
@[simp] theorem State.mapPair_telFrozen (f : Pair → Pair) : (s.mapPair f).telFrozen = s.telFrozen := rfl
@[simp] theorem State.mapPair_telSwap (f : Pair → Pair) : (s.mapPair f).telSwap = s.telSwap := rfl
@[simp] theorem State.mapPair_rtrTbl (f : Pair → Pair) : (s.mapPair f).rtrTbl = s.rtrTbl := rfl
@[simp] theorem State.mapPair_slotCtr (f : Pair → Pair) : (s.mapPair f).slotCtr = s.slotCtr := rfl
@[simp] theorem State.mapPair_inbuf (f : Pair → Pair) : (s.mapPair f).inbuf = s.inbuf := rfl
@[simp] theorem State.mapPair_order (f : Pair → Pair) : (s.mapPair f).order = s.order := rfl
@[simp] theorem State.mapPair_links (f : Pair → Pair) : (s.mapPair f).links = s.links := rfl
@[simp] theorem State.mapPair_maps (f : Pair → Pair) : (s.mapPair f).maps = s.maps := rfl
@[simp] theorem State.mapPair_chanMaps (f : Pair → Pair) : (s.mapPair f).chanMaps = s.chanMaps := rfl
@[simp] theorem State.mapPair_packets (f : Pair → Pair) : (s.mapPair f).packets = s.packets := rfl
@[simp] theorem State.mapPair_rr (f : Pair → Pair) : (s.mapPair f).rr = s.rr := rfl
@[simp] theorem State.mapPair_verdicts (f : Pair → Pair) : (s.mapPair f).verdicts = s.verdicts := rfl
@[simp] theorem State.mapPair_delivered (f : Pair → Pair) : (s.mapPair f).delivered = s.delivered := rfl
@[simp] theorem State.mapPair_subs (f : Pair → Pair) : (s.mapPair f).subs = s.subs := rfl
@[simp] theorem State.mapPair_udp (f : Pair → Pair) : (s.mapPair f).udp = s.udp := rfl
@[simp] theorem State.mapPair_mccs (f : Pair → Pair) : (s.mapPair f).mccs = s.mccs := rfl
@[simp] theorem State.mapPair_dram (f : Pair → Pair) : (s.mapPair f).dram = s.dram := rfl
@[simp] theorem State.mapPair_dramClean (f : Pair → Pair) : (s.mapPair f).dramClean = s.dramClean := rfl
@[simp] theorem State.mapPair_retireQ (f : Pair → Pair) : (s.mapPair f).retireQ = s.retireQ := rfl
@[simp] theorem State.mapPair_job (f : Pair → Pair) : (s.mapPair f).job = s.job := rfl
@[simp] theorem State.mapPair_reqs (f : Pair → Pair) : (s.mapPair f).reqs = s.reqs := rfl
@[simp] theorem State.mapPair_msgs (f : Pair → Pair) : (s.mapPair f).msgs = s.msgs := rfl
@[simp] theorem State.mapPair_tagCtr (f : Pair → Pair) : (s.mapPair f).tagCtr = s.tagCtr := rfl
@[simp] theorem State.mapPair_attns (f : Pair → Pair) : (s.mapPair f).attns = s.attns := rfl
@[simp] theorem State.mapPair_gens (f : Pair → Pair) : (s.mapPair f).gens = s.gens := rfl
@[simp] theorem State.mapPair_pages (f : Pair → Pair) : (s.mapPair f).pages = s.pages := rfl
@[simp] theorem State.mapPair_chunks (f : Pair → Pair) : (s.mapPair f).chunks = s.chunks := rfl
@[simp] theorem State.mapPair_oldDirs (f : Pair → Pair) : (s.mapPair f).oldDirs = s.oldDirs := rfl
@[simp] theorem State.mapPair_heldQ (f : Pair → Pair) : (s.mapPair f).heldQ = s.heldQ := rfl
@[simp] theorem State.mapPair_closes (f : Pair → Pair) : (s.mapPair f).closes = s.closes := rfl
@[simp] theorem State.mapPair_binds (f : Pair → Pair) : (s.mapPair f).binds = s.binds := rfl
@[simp] theorem State.mapPair_ports (f : Pair → Pair) : (s.mapPair f).ports = s.ports := rfl
@[simp] theorem State.mapPair_stepPend (f : Pair → Pair) : (s.mapPair f).stepPend = s.stepPend := rfl
@[simp] theorem State.mapPair_ptp (f : Pair → Pair) : (s.mapPair f).ptp = s.ptp := rfl
@[simp] theorem State.mapPair_regions (f : Pair → Pair) : (s.mapPair f).regions = s.regions := rfl
@[simp] theorem State.mapPair_reqOrder (f : Pair → Pair) : (s.mapPair f).reqOrder = s.reqOrder := rfl
@[simp] theorem State.mapPair_ctl (f : Pair → Pair) : (s.mapPair f).ctl = s.ctl := rfl
@[simp] theorem State.mapPair_mtr (f : Pair → Pair) : (s.mapPair f).mtr = s.mtr := rfl
@[simp] theorem State.mapPair_rcp (f : Pair → Pair) : (s.mapPair f).rcp = s.rcp := rfl
@[simp] theorem State.mapPair_sealLoop (f : Pair → Pair) : (s.mapPair f).sealLoop = s.sealLoop := rfl
@[simp] theorem State.mapPair_conns (f : Pair → Pair) : (s.mapPair f).conns = s.conns := rfl
@[simp] theorem State.mapPair_contents (f : Pair → Pair) : (s.mapPair f).contents = s.contents := rfl
@[simp] theorem State.mapPair_replies (f : Pair → Pair) : (s.mapPair f).replies = s.replies := rfl
@[simp] theorem State.mapPair_streamed (f : Pair → Pair) : (s.mapPair f).streamed = s.streamed := rfl
@[simp] theorem State.mapPair_bc (f : Pair → Pair) : (s.mapPair f).bc = s.bc := rfl
@[simp] theorem State.mapPair_bcast (f : Pair → Pair) : (s.mapPair f).bcast = s.bcast := rfl
@[simp] theorem State.mapPair_staging (f : Pair → Pair) : (s.mapPair f).staging = s.staging := rfl
@[simp] theorem State.mapPair_nv (f : Pair → Pair) : (s.mapPair f).nv = s.nv := rfl
@[simp] theorem State.mapPair_boot (f : Pair → Pair) : (s.mapPair f).boot = s.boot := rfl
@[simp] theorem State.mapPair_i3c (f : Pair → Pair) : (s.mapPair f).i3c = s.i3c := rfl
@[simp] theorem State.mapPair_accesses (f : Pair → Pair) : (s.mapPair f).accesses = s.accesses := rfl
@[simp] theorem State.mapPair_rsps (f : Pair → Pair) : (s.mapPair f).rsps = s.rsps := rfl
@[simp] theorem State.mapPair_svc (f : Pair → Pair) : (s.mapPair f).svc = s.svc := rfl
@[simp] theorem State.mapPair_svcWait (f : Pair → Pair) : (s.mapPair f).svcWait = s.svcWait := rfl

@[simp] theorem State.mapJob_pending (f : Job → Job) : (s.mapJob f).pending = s.pending := rfl
@[simp] theorem State.mapJob_outbox (f : Job → Job) : (s.mapJob f).outbox = s.outbox := rfl
@[simp] theorem State.mapJob_freeCtr (f : Job → Job) : (s.mapJob f).freeCtr = s.freeCtr := rfl
@[simp] theorem State.mapJob_time (f : Job → Job) : (s.mapJob f).time = s.time := rfl
@[simp] theorem State.mapJob_facets (f : Job → Job) : (s.mapJob f).facets = s.facets := rfl
@[simp] theorem State.mapJob_regs (f : Job → Job) : (s.mapJob f).regs = s.regs := rfl
@[simp] theorem State.mapJob_staged (f : Job → Job) : (s.mapJob f).staged = s.staged := rfl
@[simp] theorem State.mapJob_blks (f : Job → Job) : (s.mapJob f).blks = s.blks := rfl
@[simp] theorem State.mapJob_hdrs (f : Job → Job) : (s.mapJob f).hdrs = s.hdrs := rfl
@[simp] theorem State.mapJob_latches (f : Job → Job) : (s.mapJob f).latches = s.latches := rfl
@[simp] theorem State.mapJob_log (f : Job → Job) : (s.mapJob f).log = s.log := rfl
@[simp] theorem State.mapJob_logSeq (f : Job → Job) : (s.mapJob f).logSeq = s.logSeq := rfl
@[simp] theorem State.mapJob_colls (f : Job → Job) : (s.mapJob f).colls = s.colls := rfl
@[simp] theorem State.mapJob_loupes (f : Job → Job) : (s.mapJob f).loupes = s.loupes := rfl
@[simp] theorem State.mapJob_origins (f : Job → Job) : (s.mapJob f).origins = s.origins := rfl
@[simp] theorem State.mapJob_tiles (f : Job → Job) : (s.mapJob f).tiles = s.tiles := rfl
@[simp] theorem State.mapJob_sync (f : Job → Job) : (s.mapJob f).sync = s.sync := rfl
@[simp] theorem State.mapJob_keys (f : Job → Job) : (s.mapJob f).keys = s.keys := rfl
@[simp] theorem State.mapJob_spad (f : Job → Job) : (s.mapJob f).spad = s.spad := rfl
@[simp] theorem State.mapJob_spadPoison (f : Job → Job) : (s.mapJob f).spadPoison = s.spadPoison := rfl
@[simp] theorem State.mapJob_imem (f : Job → Job) : (s.mapJob f).imem = s.imem := rfl
@[simp] theorem State.mapJob_telActive (f : Job → Job) : (s.mapJob f).telActive = s.telActive := rfl
@[simp] theorem State.mapJob_telFrozen (f : Job → Job) : (s.mapJob f).telFrozen = s.telFrozen := rfl
@[simp] theorem State.mapJob_telSwap (f : Job → Job) : (s.mapJob f).telSwap = s.telSwap := rfl
@[simp] theorem State.mapJob_rtrTbl (f : Job → Job) : (s.mapJob f).rtrTbl = s.rtrTbl := rfl
@[simp] theorem State.mapJob_slotCtr (f : Job → Job) : (s.mapJob f).slotCtr = s.slotCtr := rfl
@[simp] theorem State.mapJob_inbuf (f : Job → Job) : (s.mapJob f).inbuf = s.inbuf := rfl
@[simp] theorem State.mapJob_order (f : Job → Job) : (s.mapJob f).order = s.order := rfl
@[simp] theorem State.mapJob_links (f : Job → Job) : (s.mapJob f).links = s.links := rfl
@[simp] theorem State.mapJob_maps (f : Job → Job) : (s.mapJob f).maps = s.maps := rfl
@[simp] theorem State.mapJob_chanMaps (f : Job → Job) : (s.mapJob f).chanMaps = s.chanMaps := rfl
@[simp] theorem State.mapJob_packets (f : Job → Job) : (s.mapJob f).packets = s.packets := rfl
@[simp] theorem State.mapJob_rr (f : Job → Job) : (s.mapJob f).rr = s.rr := rfl
@[simp] theorem State.mapJob_verdicts (f : Job → Job) : (s.mapJob f).verdicts = s.verdicts := rfl
@[simp] theorem State.mapJob_delivered (f : Job → Job) : (s.mapJob f).delivered = s.delivered := rfl
@[simp] theorem State.mapJob_subs (f : Job → Job) : (s.mapJob f).subs = s.subs := rfl
@[simp] theorem State.mapJob_udp (f : Job → Job) : (s.mapJob f).udp = s.udp := rfl
@[simp] theorem State.mapJob_mccs (f : Job → Job) : (s.mapJob f).mccs = s.mccs := rfl
@[simp] theorem State.mapJob_dram (f : Job → Job) : (s.mapJob f).dram = s.dram := rfl
@[simp] theorem State.mapJob_dramClean (f : Job → Job) : (s.mapJob f).dramClean = s.dramClean := rfl
@[simp] theorem State.mapJob_retireQ (f : Job → Job) : (s.mapJob f).retireQ = s.retireQ := rfl
@[simp] theorem State.mapJob_reqs (f : Job → Job) : (s.mapJob f).reqs = s.reqs := rfl
@[simp] theorem State.mapJob_msgs (f : Job → Job) : (s.mapJob f).msgs = s.msgs := rfl
@[simp] theorem State.mapJob_tagCtr (f : Job → Job) : (s.mapJob f).tagCtr = s.tagCtr := rfl
@[simp] theorem State.mapJob_attns (f : Job → Job) : (s.mapJob f).attns = s.attns := rfl
@[simp] theorem State.mapJob_gens (f : Job → Job) : (s.mapJob f).gens = s.gens := rfl
@[simp] theorem State.mapJob_pages (f : Job → Job) : (s.mapJob f).pages = s.pages := rfl
@[simp] theorem State.mapJob_chunks (f : Job → Job) : (s.mapJob f).chunks = s.chunks := rfl
@[simp] theorem State.mapJob_oldDirs (f : Job → Job) : (s.mapJob f).oldDirs = s.oldDirs := rfl
@[simp] theorem State.mapJob_heldQ (f : Job → Job) : (s.mapJob f).heldQ = s.heldQ := rfl
@[simp] theorem State.mapJob_closes (f : Job → Job) : (s.mapJob f).closes = s.closes := rfl
@[simp] theorem State.mapJob_binds (f : Job → Job) : (s.mapJob f).binds = s.binds := rfl
@[simp] theorem State.mapJob_ports (f : Job → Job) : (s.mapJob f).ports = s.ports := rfl
@[simp] theorem State.mapJob_stepPend (f : Job → Job) : (s.mapJob f).stepPend = s.stepPend := rfl
@[simp] theorem State.mapJob_ptp (f : Job → Job) : (s.mapJob f).ptp = s.ptp := rfl
@[simp] theorem State.mapJob_regions (f : Job → Job) : (s.mapJob f).regions = s.regions := rfl
@[simp] theorem State.mapJob_reqOrder (f : Job → Job) : (s.mapJob f).reqOrder = s.reqOrder := rfl
@[simp] theorem State.mapJob_ctl (f : Job → Job) : (s.mapJob f).ctl = s.ctl := rfl
@[simp] theorem State.mapJob_mtr (f : Job → Job) : (s.mapJob f).mtr = s.mtr := rfl
@[simp] theorem State.mapJob_rcp (f : Job → Job) : (s.mapJob f).rcp = s.rcp := rfl
@[simp] theorem State.mapJob_sealLoop (f : Job → Job) : (s.mapJob f).sealLoop = s.sealLoop := rfl
@[simp] theorem State.mapJob_conns (f : Job → Job) : (s.mapJob f).conns = s.conns := rfl
@[simp] theorem State.mapJob_contents (f : Job → Job) : (s.mapJob f).contents = s.contents := rfl
@[simp] theorem State.mapJob_replies (f : Job → Job) : (s.mapJob f).replies = s.replies := rfl
@[simp] theorem State.mapJob_streamed (f : Job → Job) : (s.mapJob f).streamed = s.streamed := rfl
@[simp] theorem State.mapJob_bc (f : Job → Job) : (s.mapJob f).bc = s.bc := rfl
@[simp] theorem State.mapJob_bcast (f : Job → Job) : (s.mapJob f).bcast = s.bcast := rfl
@[simp] theorem State.mapJob_staging (f : Job → Job) : (s.mapJob f).staging = s.staging := rfl
@[simp] theorem State.mapJob_nv (f : Job → Job) : (s.mapJob f).nv = s.nv := rfl
@[simp] theorem State.mapJob_boot (f : Job → Job) : (s.mapJob f).boot = s.boot := rfl
@[simp] theorem State.mapJob_pair (f : Job → Job) : (s.mapJob f).pair = s.pair := rfl
@[simp] theorem State.mapJob_i3c (f : Job → Job) : (s.mapJob f).i3c = s.i3c := rfl
@[simp] theorem State.mapJob_accesses (f : Job → Job) : (s.mapJob f).accesses = s.accesses := rfl
@[simp] theorem State.mapJob_rsps (f : Job → Job) : (s.mapJob f).rsps = s.rsps := rfl
@[simp] theorem State.mapJob_svc (f : Job → Job) : (s.mapJob f).svc = s.svc := rfl
@[simp] theorem State.mapJob_svcWait (f : Job → Job) : (s.mapJob f).svcWait = s.svcWait := rfl

@[simp] theorem State.setBcSite_pending (x : Nat) (b : BcSite) : (s.setBcSite x b).pending = s.pending := rfl
@[simp] theorem State.setBcSite_outbox (x : Nat) (b : BcSite) : (s.setBcSite x b).outbox = s.outbox := rfl
@[simp] theorem State.setBcSite_freeCtr (x : Nat) (b : BcSite) : (s.setBcSite x b).freeCtr = s.freeCtr := rfl
@[simp] theorem State.setBcSite_time (x : Nat) (b : BcSite) : (s.setBcSite x b).time = s.time := rfl
@[simp] theorem State.setBcSite_facets (x : Nat) (b : BcSite) : (s.setBcSite x b).facets = s.facets := rfl
@[simp] theorem State.setBcSite_regs (x : Nat) (b : BcSite) : (s.setBcSite x b).regs = s.regs := rfl
@[simp] theorem State.setBcSite_staged (x : Nat) (b : BcSite) : (s.setBcSite x b).staged = s.staged := rfl
@[simp] theorem State.setBcSite_blks (x : Nat) (b : BcSite) : (s.setBcSite x b).blks = s.blks := rfl
@[simp] theorem State.setBcSite_hdrs (x : Nat) (b : BcSite) : (s.setBcSite x b).hdrs = s.hdrs := rfl
@[simp] theorem State.setBcSite_latches (x : Nat) (b : BcSite) : (s.setBcSite x b).latches = s.latches := rfl
@[simp] theorem State.setBcSite_log (x : Nat) (b : BcSite) : (s.setBcSite x b).log = s.log := rfl
@[simp] theorem State.setBcSite_logSeq (x : Nat) (b : BcSite) : (s.setBcSite x b).logSeq = s.logSeq := rfl
@[simp] theorem State.setBcSite_colls (x : Nat) (b : BcSite) : (s.setBcSite x b).colls = s.colls := rfl
@[simp] theorem State.setBcSite_loupes (x : Nat) (b : BcSite) : (s.setBcSite x b).loupes = s.loupes := rfl
@[simp] theorem State.setBcSite_origins (x : Nat) (b : BcSite) : (s.setBcSite x b).origins = s.origins := rfl
@[simp] theorem State.setBcSite_tiles (x : Nat) (b : BcSite) : (s.setBcSite x b).tiles = s.tiles := rfl
@[simp] theorem State.setBcSite_sync (x : Nat) (b : BcSite) : (s.setBcSite x b).sync = s.sync := rfl
@[simp] theorem State.setBcSite_keys (x : Nat) (b : BcSite) : (s.setBcSite x b).keys = s.keys := rfl
@[simp] theorem State.setBcSite_spad (x : Nat) (b : BcSite) : (s.setBcSite x b).spad = s.spad := rfl
@[simp] theorem State.setBcSite_spadPoison (x : Nat) (b : BcSite) : (s.setBcSite x b).spadPoison = s.spadPoison := rfl
@[simp] theorem State.setBcSite_imem (x : Nat) (b : BcSite) : (s.setBcSite x b).imem = s.imem := rfl
@[simp] theorem State.setBcSite_telActive (x : Nat) (b : BcSite) : (s.setBcSite x b).telActive = s.telActive := rfl
@[simp] theorem State.setBcSite_telFrozen (x : Nat) (b : BcSite) : (s.setBcSite x b).telFrozen = s.telFrozen := rfl
@[simp] theorem State.setBcSite_telSwap (x : Nat) (b : BcSite) : (s.setBcSite x b).telSwap = s.telSwap := rfl
@[simp] theorem State.setBcSite_rtrTbl (x : Nat) (b : BcSite) : (s.setBcSite x b).rtrTbl = s.rtrTbl := rfl
@[simp] theorem State.setBcSite_slotCtr (x : Nat) (b : BcSite) : (s.setBcSite x b).slotCtr = s.slotCtr := rfl
@[simp] theorem State.setBcSite_inbuf (x : Nat) (b : BcSite) : (s.setBcSite x b).inbuf = s.inbuf := rfl
@[simp] theorem State.setBcSite_order (x : Nat) (b : BcSite) : (s.setBcSite x b).order = s.order := rfl
@[simp] theorem State.setBcSite_links (x : Nat) (b : BcSite) : (s.setBcSite x b).links = s.links := rfl
@[simp] theorem State.setBcSite_maps (x : Nat) (b : BcSite) : (s.setBcSite x b).maps = s.maps := rfl
@[simp] theorem State.setBcSite_chanMaps (x : Nat) (b : BcSite) : (s.setBcSite x b).chanMaps = s.chanMaps := rfl
@[simp] theorem State.setBcSite_packets (x : Nat) (b : BcSite) : (s.setBcSite x b).packets = s.packets := rfl
@[simp] theorem State.setBcSite_rr (x : Nat) (b : BcSite) : (s.setBcSite x b).rr = s.rr := rfl
@[simp] theorem State.setBcSite_verdicts (x : Nat) (b : BcSite) : (s.setBcSite x b).verdicts = s.verdicts := rfl
@[simp] theorem State.setBcSite_delivered (x : Nat) (b : BcSite) : (s.setBcSite x b).delivered = s.delivered := rfl
@[simp] theorem State.setBcSite_subs (x : Nat) (b : BcSite) : (s.setBcSite x b).subs = s.subs := rfl
@[simp] theorem State.setBcSite_udp (x : Nat) (b : BcSite) : (s.setBcSite x b).udp = s.udp := rfl
@[simp] theorem State.setBcSite_mccs (x : Nat) (b : BcSite) : (s.setBcSite x b).mccs = s.mccs := rfl
@[simp] theorem State.setBcSite_dram (x : Nat) (b : BcSite) : (s.setBcSite x b).dram = s.dram := rfl
@[simp] theorem State.setBcSite_dramClean (x : Nat) (b : BcSite) : (s.setBcSite x b).dramClean = s.dramClean := rfl
@[simp] theorem State.setBcSite_retireQ (x : Nat) (b : BcSite) : (s.setBcSite x b).retireQ = s.retireQ := rfl
@[simp] theorem State.setBcSite_job (x : Nat) (b : BcSite) : (s.setBcSite x b).job = s.job := rfl
@[simp] theorem State.setBcSite_reqs (x : Nat) (b : BcSite) : (s.setBcSite x b).reqs = s.reqs := rfl
@[simp] theorem State.setBcSite_msgs (x : Nat) (b : BcSite) : (s.setBcSite x b).msgs = s.msgs := rfl
@[simp] theorem State.setBcSite_tagCtr (x : Nat) (b : BcSite) : (s.setBcSite x b).tagCtr = s.tagCtr := rfl
@[simp] theorem State.setBcSite_attns (x : Nat) (b : BcSite) : (s.setBcSite x b).attns = s.attns := rfl
@[simp] theorem State.setBcSite_gens (x : Nat) (b : BcSite) : (s.setBcSite x b).gens = s.gens := rfl
@[simp] theorem State.setBcSite_pages (x : Nat) (b : BcSite) : (s.setBcSite x b).pages = s.pages := rfl
@[simp] theorem State.setBcSite_chunks (x : Nat) (b : BcSite) : (s.setBcSite x b).chunks = s.chunks := rfl
@[simp] theorem State.setBcSite_oldDirs (x : Nat) (b : BcSite) : (s.setBcSite x b).oldDirs = s.oldDirs := rfl
@[simp] theorem State.setBcSite_heldQ (x : Nat) (b : BcSite) : (s.setBcSite x b).heldQ = s.heldQ := rfl
@[simp] theorem State.setBcSite_closes (x : Nat) (b : BcSite) : (s.setBcSite x b).closes = s.closes := rfl
@[simp] theorem State.setBcSite_binds (x : Nat) (b : BcSite) : (s.setBcSite x b).binds = s.binds := rfl
@[simp] theorem State.setBcSite_ports (x : Nat) (b : BcSite) : (s.setBcSite x b).ports = s.ports := rfl
@[simp] theorem State.setBcSite_stepPend (x : Nat) (b : BcSite) : (s.setBcSite x b).stepPend = s.stepPend := rfl
@[simp] theorem State.setBcSite_ptp (x : Nat) (b : BcSite) : (s.setBcSite x b).ptp = s.ptp := rfl
@[simp] theorem State.setBcSite_regions (x : Nat) (b : BcSite) : (s.setBcSite x b).regions = s.regions := rfl
@[simp] theorem State.setBcSite_reqOrder (x : Nat) (b : BcSite) : (s.setBcSite x b).reqOrder = s.reqOrder := rfl
@[simp] theorem State.setBcSite_ctl (x : Nat) (b : BcSite) : (s.setBcSite x b).ctl = s.ctl := rfl
@[simp] theorem State.setBcSite_mtr (x : Nat) (b : BcSite) : (s.setBcSite x b).mtr = s.mtr := rfl
@[simp] theorem State.setBcSite_rcp (x : Nat) (b : BcSite) : (s.setBcSite x b).rcp = s.rcp := rfl
@[simp] theorem State.setBcSite_sealLoop (x : Nat) (b : BcSite) : (s.setBcSite x b).sealLoop = s.sealLoop := rfl
@[simp] theorem State.setBcSite_conns (x : Nat) (b : BcSite) : (s.setBcSite x b).conns = s.conns := rfl
@[simp] theorem State.setBcSite_contents (x : Nat) (b : BcSite) : (s.setBcSite x b).contents = s.contents := rfl
@[simp] theorem State.setBcSite_replies (x : Nat) (b : BcSite) : (s.setBcSite x b).replies = s.replies := rfl
@[simp] theorem State.setBcSite_streamed (x : Nat) (b : BcSite) : (s.setBcSite x b).streamed = s.streamed := rfl
@[simp] theorem State.setBcSite_bcast (x : Nat) (b : BcSite) : (s.setBcSite x b).bcast = s.bcast := rfl
@[simp] theorem State.setBcSite_staging (x : Nat) (b : BcSite) : (s.setBcSite x b).staging = s.staging := rfl
@[simp] theorem State.setBcSite_nv (x : Nat) (b : BcSite) : (s.setBcSite x b).nv = s.nv := rfl
@[simp] theorem State.setBcSite_boot (x : Nat) (b : BcSite) : (s.setBcSite x b).boot = s.boot := rfl
@[simp] theorem State.setBcSite_pair (x : Nat) (b : BcSite) : (s.setBcSite x b).pair = s.pair := rfl
@[simp] theorem State.setBcSite_i3c (x : Nat) (b : BcSite) : (s.setBcSite x b).i3c = s.i3c := rfl
@[simp] theorem State.setBcSite_accesses (x : Nat) (b : BcSite) : (s.setBcSite x b).accesses = s.accesses := rfl
@[simp] theorem State.setBcSite_rsps (x : Nat) (b : BcSite) : (s.setBcSite x b).rsps = s.rsps := rfl
@[simp] theorem State.setBcSite_svc (x : Nat) (b : BcSite) : (s.setBcSite x b).svc = s.svc := rfl
@[simp] theorem State.setBcSite_svcWait (x : Nat) (b : BcSite) : (s.setBcSite x b).svcWait = s.svcWait := rfl

@[simp] theorem State.setReq_pending (slot : Nat) (f : Req → Req) : (s.setReq slot f).pending = s.pending := rfl
@[simp] theorem State.setReq_outbox (slot : Nat) (f : Req → Req) : (s.setReq slot f).outbox = s.outbox := rfl
@[simp] theorem State.setReq_freeCtr (slot : Nat) (f : Req → Req) : (s.setReq slot f).freeCtr = s.freeCtr := rfl
@[simp] theorem State.setReq_time (slot : Nat) (f : Req → Req) : (s.setReq slot f).time = s.time := rfl
@[simp] theorem State.setReq_facets (slot : Nat) (f : Req → Req) : (s.setReq slot f).facets = s.facets := rfl
@[simp] theorem State.setReq_regs (slot : Nat) (f : Req → Req) : (s.setReq slot f).regs = s.regs := rfl
@[simp] theorem State.setReq_staged (slot : Nat) (f : Req → Req) : (s.setReq slot f).staged = s.staged := rfl
@[simp] theorem State.setReq_blks (slot : Nat) (f : Req → Req) : (s.setReq slot f).blks = s.blks := rfl
@[simp] theorem State.setReq_hdrs (slot : Nat) (f : Req → Req) : (s.setReq slot f).hdrs = s.hdrs := rfl
@[simp] theorem State.setReq_latches (slot : Nat) (f : Req → Req) : (s.setReq slot f).latches = s.latches := rfl
@[simp] theorem State.setReq_log (slot : Nat) (f : Req → Req) : (s.setReq slot f).log = s.log := rfl
@[simp] theorem State.setReq_logSeq (slot : Nat) (f : Req → Req) : (s.setReq slot f).logSeq = s.logSeq := rfl
@[simp] theorem State.setReq_colls (slot : Nat) (f : Req → Req) : (s.setReq slot f).colls = s.colls := rfl
@[simp] theorem State.setReq_loupes (slot : Nat) (f : Req → Req) : (s.setReq slot f).loupes = s.loupes := rfl
@[simp] theorem State.setReq_origins (slot : Nat) (f : Req → Req) : (s.setReq slot f).origins = s.origins := rfl
@[simp] theorem State.setReq_tiles (slot : Nat) (f : Req → Req) : (s.setReq slot f).tiles = s.tiles := rfl
@[simp] theorem State.setReq_sync (slot : Nat) (f : Req → Req) : (s.setReq slot f).sync = s.sync := rfl
@[simp] theorem State.setReq_keys (slot : Nat) (f : Req → Req) : (s.setReq slot f).keys = s.keys := rfl
@[simp] theorem State.setReq_spad (slot : Nat) (f : Req → Req) : (s.setReq slot f).spad = s.spad := rfl
@[simp] theorem State.setReq_spadPoison (slot : Nat) (f : Req → Req) : (s.setReq slot f).spadPoison = s.spadPoison := rfl
@[simp] theorem State.setReq_imem (slot : Nat) (f : Req → Req) : (s.setReq slot f).imem = s.imem := rfl
@[simp] theorem State.setReq_telActive (slot : Nat) (f : Req → Req) : (s.setReq slot f).telActive = s.telActive := rfl
@[simp] theorem State.setReq_telFrozen (slot : Nat) (f : Req → Req) : (s.setReq slot f).telFrozen = s.telFrozen := rfl
@[simp] theorem State.setReq_telSwap (slot : Nat) (f : Req → Req) : (s.setReq slot f).telSwap = s.telSwap := rfl
@[simp] theorem State.setReq_rtrTbl (slot : Nat) (f : Req → Req) : (s.setReq slot f).rtrTbl = s.rtrTbl := rfl
@[simp] theorem State.setReq_slotCtr (slot : Nat) (f : Req → Req) : (s.setReq slot f).slotCtr = s.slotCtr := rfl
@[simp] theorem State.setReq_inbuf (slot : Nat) (f : Req → Req) : (s.setReq slot f).inbuf = s.inbuf := rfl
@[simp] theorem State.setReq_order (slot : Nat) (f : Req → Req) : (s.setReq slot f).order = s.order := rfl
@[simp] theorem State.setReq_links (slot : Nat) (f : Req → Req) : (s.setReq slot f).links = s.links := rfl
@[simp] theorem State.setReq_maps (slot : Nat) (f : Req → Req) : (s.setReq slot f).maps = s.maps := rfl
@[simp] theorem State.setReq_chanMaps (slot : Nat) (f : Req → Req) : (s.setReq slot f).chanMaps = s.chanMaps := rfl
@[simp] theorem State.setReq_packets (slot : Nat) (f : Req → Req) : (s.setReq slot f).packets = s.packets := rfl
@[simp] theorem State.setReq_rr (slot : Nat) (f : Req → Req) : (s.setReq slot f).rr = s.rr := rfl
@[simp] theorem State.setReq_verdicts (slot : Nat) (f : Req → Req) : (s.setReq slot f).verdicts = s.verdicts := rfl
@[simp] theorem State.setReq_delivered (slot : Nat) (f : Req → Req) : (s.setReq slot f).delivered = s.delivered := rfl
@[simp] theorem State.setReq_subs (slot : Nat) (f : Req → Req) : (s.setReq slot f).subs = s.subs := rfl
@[simp] theorem State.setReq_udp (slot : Nat) (f : Req → Req) : (s.setReq slot f).udp = s.udp := rfl
@[simp] theorem State.setReq_mccs (slot : Nat) (f : Req → Req) : (s.setReq slot f).mccs = s.mccs := rfl
@[simp] theorem State.setReq_dram (slot : Nat) (f : Req → Req) : (s.setReq slot f).dram = s.dram := rfl
@[simp] theorem State.setReq_dramClean (slot : Nat) (f : Req → Req) : (s.setReq slot f).dramClean = s.dramClean := rfl
@[simp] theorem State.setReq_retireQ (slot : Nat) (f : Req → Req) : (s.setReq slot f).retireQ = s.retireQ := rfl
@[simp] theorem State.setReq_job (slot : Nat) (f : Req → Req) : (s.setReq slot f).job = s.job := rfl
@[simp] theorem State.setReq_msgs (slot : Nat) (f : Req → Req) : (s.setReq slot f).msgs = s.msgs := rfl
@[simp] theorem State.setReq_tagCtr (slot : Nat) (f : Req → Req) : (s.setReq slot f).tagCtr = s.tagCtr := rfl
@[simp] theorem State.setReq_attns (slot : Nat) (f : Req → Req) : (s.setReq slot f).attns = s.attns := rfl
@[simp] theorem State.setReq_gens (slot : Nat) (f : Req → Req) : (s.setReq slot f).gens = s.gens := rfl
@[simp] theorem State.setReq_pages (slot : Nat) (f : Req → Req) : (s.setReq slot f).pages = s.pages := rfl
@[simp] theorem State.setReq_chunks (slot : Nat) (f : Req → Req) : (s.setReq slot f).chunks = s.chunks := rfl
@[simp] theorem State.setReq_oldDirs (slot : Nat) (f : Req → Req) : (s.setReq slot f).oldDirs = s.oldDirs := rfl
@[simp] theorem State.setReq_heldQ (slot : Nat) (f : Req → Req) : (s.setReq slot f).heldQ = s.heldQ := rfl
@[simp] theorem State.setReq_closes (slot : Nat) (f : Req → Req) : (s.setReq slot f).closes = s.closes := rfl
@[simp] theorem State.setReq_binds (slot : Nat) (f : Req → Req) : (s.setReq slot f).binds = s.binds := rfl
@[simp] theorem State.setReq_ports (slot : Nat) (f : Req → Req) : (s.setReq slot f).ports = s.ports := rfl
@[simp] theorem State.setReq_stepPend (slot : Nat) (f : Req → Req) : (s.setReq slot f).stepPend = s.stepPend := rfl
@[simp] theorem State.setReq_ptp (slot : Nat) (f : Req → Req) : (s.setReq slot f).ptp = s.ptp := rfl
@[simp] theorem State.setReq_regions (slot : Nat) (f : Req → Req) : (s.setReq slot f).regions = s.regions := rfl
@[simp] theorem State.setReq_reqOrder (slot : Nat) (f : Req → Req) : (s.setReq slot f).reqOrder = s.reqOrder := rfl
@[simp] theorem State.setReq_ctl (slot : Nat) (f : Req → Req) : (s.setReq slot f).ctl = s.ctl := rfl
@[simp] theorem State.setReq_mtr (slot : Nat) (f : Req → Req) : (s.setReq slot f).mtr = s.mtr := rfl
@[simp] theorem State.setReq_rcp (slot : Nat) (f : Req → Req) : (s.setReq slot f).rcp = s.rcp := rfl
@[simp] theorem State.setReq_sealLoop (slot : Nat) (f : Req → Req) : (s.setReq slot f).sealLoop = s.sealLoop := rfl
@[simp] theorem State.setReq_conns (slot : Nat) (f : Req → Req) : (s.setReq slot f).conns = s.conns := rfl
@[simp] theorem State.setReq_contents (slot : Nat) (f : Req → Req) : (s.setReq slot f).contents = s.contents := rfl
@[simp] theorem State.setReq_replies (slot : Nat) (f : Req → Req) : (s.setReq slot f).replies = s.replies := rfl
@[simp] theorem State.setReq_streamed (slot : Nat) (f : Req → Req) : (s.setReq slot f).streamed = s.streamed := rfl
@[simp] theorem State.setReq_bc (slot : Nat) (f : Req → Req) : (s.setReq slot f).bc = s.bc := rfl
@[simp] theorem State.setReq_bcast (slot : Nat) (f : Req → Req) : (s.setReq slot f).bcast = s.bcast := rfl
@[simp] theorem State.setReq_staging (slot : Nat) (f : Req → Req) : (s.setReq slot f).staging = s.staging := rfl
@[simp] theorem State.setReq_nv (slot : Nat) (f : Req → Req) : (s.setReq slot f).nv = s.nv := rfl
@[simp] theorem State.setReq_boot (slot : Nat) (f : Req → Req) : (s.setReq slot f).boot = s.boot := rfl
@[simp] theorem State.setReq_pair (slot : Nat) (f : Req → Req) : (s.setReq slot f).pair = s.pair := rfl
@[simp] theorem State.setReq_i3c (slot : Nat) (f : Req → Req) : (s.setReq slot f).i3c = s.i3c := rfl
@[simp] theorem State.setReq_accesses (slot : Nat) (f : Req → Req) : (s.setReq slot f).accesses = s.accesses := rfl
@[simp] theorem State.setReq_rsps (slot : Nat) (f : Req → Req) : (s.setReq slot f).rsps = s.rsps := rfl
@[simp] theorem State.setReq_svc (slot : Nat) (f : Req → Req) : (s.setReq slot f).svc = s.svc := rfl
@[simp] theorem State.setReq_svcWait (slot : Nat) (f : Req → Req) : (s.setReq slot f).svcWait = s.svcWait := rfl

end Sys2Proof.Machine
end

