-- ==== Sys2Proof/Laws/Table.lean ====
section
/-! SUPPORT. Laws of sparse tables and of bit fields: a read after a write, and the canonical form. -/

namespace Sys2Proof.Machine

variable {α : Type}

theorem tblFind_tblPut_same (t : Tbl α) (a : Nat) (v : α) : tblFind (tblPut t a v) a = some v := by
  induction t with
  | nil => simp [tblPut, tblFind]
  | cons e t ih =>
    obtain ⟨k, w⟩ := e
    simp only [tblPut]
    split
    · simp [tblFind]
    · split
      · simp [tblFind]
      · simp [tblFind, *]

theorem tblFind_tblPut_other (t : Tbl α) {a b : Nat} (v : α) (h : b ≠ a) :
    tblFind (tblPut t a v) b = tblFind t b := by
  induction t with
  | nil => simp [tblPut, tblFind, h.symm]
  | cons e t ih =>
    obtain ⟨k, w⟩ := e
    simp only [tblPut]
    split
    · simp [tblFind, h.symm]
    · split
      · subst_vars; simp [tblFind, h.symm]
      · simp [tblFind, ih]

theorem tblFind_filter (p : Nat → Bool) (t : Tbl α) (a : Nat) :
    tblFind (t.filter fun e => p e.1) a = if p a then tblFind t a else none := by
  induction t with
  | nil => simp [tblFind]
  | cons e t ih =>
    obtain ⟨k, w⟩ := e
    by_cases hk : p k = true <;> by_cases ha : k = a <;> simp_all [tblFind]

theorem tblFind_tblDel (t : Tbl α) (a b : Nat) :
    tblFind (tblDel t a) b = if b = a then none else tblFind t b := by
  have h := tblFind_filter (fun k => decide (k ≠ a)) t b
  simp only [tblDel]
  rw [h]
  by_cases hb : b = a <;> simp [hb]

theorem tblFind_tblDelRange (t : Tbl α) (lo hi a : Nat) :
    tblFind (tblDelRange t lo hi) a = if a < lo ∨ hi ≤ a then tblFind t a else none := by
  have h := tblFind_filter (fun k => decide (k < lo ∨ hi ≤ k)) t a
  simp only [tblDelRange]
  rw [h]
  simp

variable [DecidableEq α]

@[simp] theorem tblGet_tblSet_same (d : Nat → α) (t : Tbl α) (a : Nat) (v : α) :
    tblGet d (tblSet d t a v) a = v := by
  unfold tblGet tblSet
  split
  · simp [tblFind_tblDel, *]
  · simp [tblFind_tblPut_same]

theorem tblGet_tblSet_other (d : Nat → α) (t : Tbl α) {a b : Nat} (v : α) (h : b ≠ a) :
    tblGet d (tblSet d t a v) b = tblGet d t b := by
  unfold tblGet tblSet
  split
  · simp [tblFind_tblDel, h]
  · simp [tblFind_tblPut_other _ _ h]

theorem tblGet_tblSet (d : Nat → α) (t : Tbl α) (a b : Nat) (v : α) :
    tblGet d (tblSet d t a v) b = if b = a then v else tblGet d t b := by
  split
  · subst_vars; simp
  · exact tblGet_tblSet_other d t v ‹_›

omit [DecidableEq α] in
theorem tblGet_tblDelRange (d : Nat → α) (t : Tbl α) (lo hi a : Nat) :
    tblGet d (tblDelRange t lo hi) a = if a < lo ∨ hi ≤ a then tblGet d t a else d a := by
  unfold tblGet
  rw [tblFind_tblDelRange]
  split <;> simp

omit [DecidableEq α] in
theorem tblSorted_filter (p : Nat × α → Bool) (t : Tbl α) (h : tblSorted t = true) :
    tblSorted (t.filter p) = true := by
  simp only [tblSorted, decide_eq_true_eq] at *
  exact h.filter p

theorem tblWf_filter (d : Nat → α) (p : Nat × α → Bool) (t : Tbl α) (h : tblWf d t = true) :
    tblWf d (t.filter p) = true := by
  simp only [tblWf, Bool.and_eq_true, List.all_eq_true] at *
  exact ⟨tblSorted_filter p t h.1, fun e he => h.2 e (List.mem_of_mem_filter he)⟩

theorem tblWf_tblDel (d : Nat → α) (t : Tbl α) (a : Nat) (h : tblWf d t = true) : tblWf d (tblDel t a) = true :=
  tblWf_filter d _ t h

theorem tblWf_tblDelRange (d : Nat → α) (t : Tbl α) (lo hi : Nat) (h : tblWf d t = true) :
    tblWf d (tblDelRange t lo hi) = true :=
  tblWf_filter d _ t h

omit [DecidableEq α] in
theorem mem_tblPut (t : Tbl α) (a : Nat) (v : α) (e : Nat × α) (h : e ∈ tblPut t a v) : e = (a, v) ∨ e ∈ t := by
  induction t with
  | nil => simp_all [tblPut]
  | cons x t ih =>
    obtain ⟨k, w⟩ := x
    simp only [tblPut] at h
    split at h
    · simp_all
    · split at h
      · rcases List.mem_cons.1 h with h | h
        · exact .inl h
        · exact .inr (List.mem_cons_of_mem _ h)
      · rcases List.mem_cons.1 h with h | h
        · exact .inr (h ▸ List.mem_cons_self)
        · exact (ih h).imp id (List.mem_cons_of_mem _)

omit [DecidableEq α] in
theorem tblSorted_tblPut (t : Tbl α) (a : Nat) (v : α) (h : tblSorted t = true) : tblSorted (tblPut t a v) = true := by
  simp only [tblSorted, decide_eq_true_eq] at *
  induction t with
  | nil => simp [tblPut]
  | cons x t ih =>
    obtain ⟨k, w⟩ := x
    rw [List.pairwise_cons] at h
    simp only [tblPut]
    split
    · rw [List.pairwise_cons]
      refine ⟨fun e he => ?_, List.pairwise_cons.2 h⟩
      rcases List.mem_cons.1 he with rfl | he
      · assumption
      · have := h.1 e he; simp only at this ⊢; omega
    · split
      · subst_vars; exact List.pairwise_cons.2 h
      · refine List.pairwise_cons.2 ⟨fun e he => ?_, ih h.2⟩
        rcases mem_tblPut t a v e he with rfl | he
        · simp only; omega
        · exact h.1 e he

/-- Setting a key keeps the canonical form. -/
theorem tblWf_tblSet (d : Nat → α) (t : Tbl α) (a : Nat) (v : α) (h : tblWf d t = true) :
    tblWf d (tblSet d t a v) = true := by
  unfold tblSet
  split
  · exact tblWf_tblDel d t a h
  · next hv =>
    simp only [tblWf, Bool.and_eq_true, List.all_eq_true] at *
    refine ⟨tblSorted_tblPut t a v h.1, fun e he => ?_⟩
    rcases mem_tblPut t a v e he with rfl | he
    · simpa using hv
    · exact h.2 e he

/-- Two tables in canonical form that read alike are equal. -/
theorem tbl_ext (d : Nat → α) (t u : Tbl α) (ht : tblWf d t = true) (hu : tblWf d u = true)
    (h : ∀ a, tblGet d t a = tblGet d u a) : t = u := by
  induction t generalizing u with
  | nil =>
    cases u with
    | nil => rfl
    | cons y u =>
      obtain ⟨k, w⟩ := y
      have := h k
      simp [tblGet, tblFind] at this
      simp [tblWf, this] at hu
  | cons x t ih =>
    obtain ⟨j, v⟩ := x
    cases u with
    | nil =>
      have := h j
      simp [tblGet, tblFind] at this
      simp [tblWf, this] at ht
    | cons y u =>
      obtain ⟨k, w⟩ := y
      have absent : ∀ (l : Tbl α) (n : Nat), (∀ e ∈ l, n < e.1) → tblFind l n = none := by
        intro l
        induction l with
        | nil => intros; rfl
        | cons e l ihl =>
          intro n hn
          obtain ⟨m, z⟩ := e
          have h1 := hn (m, z) List.mem_cons_self
          simp only [tblFind]
          rw [if_neg (by simp only at h1; omega), ihl n fun e he => hn e (List.mem_cons_of_mem _ he)]
      simp only [tblWf, tblSorted, Bool.and_eq_true, decide_eq_true_eq, List.pairwise_cons, List.all_cons,
        ne_eq] at ht hu
      obtain ⟨⟨htj, hts⟩, htv, htd⟩ := ht
      obtain ⟨⟨huk, hus⟩, huw, hud⟩ := hu
      have hjk : j = k := by
        rcases Nat.lt_trichotomy j k with hlt | heq | hgt
        · have := h j
          simp only [tblGet, tblFind, if_true] at this
          rw [if_neg (by omega), absent u j fun e he => by have := huk e he; omega] at this
          simp at this
          exact absurd this htv
        · exact heq
        · have := h k
          simp only [tblGet, tblFind, if_true] at this
          rw [if_neg (by omega), absent t k fun e he => by have := htj e he; omega] at this
          simp at this
          exact absurd this.symm huw
      subst hjk
      have hvw : v = w := by simpa [tblGet, tblFind] using h j
      subst hvw
      congr 1
      refine ih u ?_ ?_ fun a => ?_
      · simp only [tblWf, tblSorted, Bool.and_eq_true, decide_eq_true_eq]; exact ⟨hts, htd⟩
      · simp only [tblWf, tblSorted, Bool.and_eq_true, decide_eq_true_eq]; exact ⟨hus, hud⟩
      · by_cases ha : j = a
        · subst ha
          rw [show tblGet d t j = d j by simp [tblGet, absent t j htj],
            show tblGet d u j = d j by simp [tblGet, absent u j huk]]
        · have := h a
          simpa [tblGet, tblFind, ha] using this

/-! ### Bit fields -/

theorem bitsOf_lt (v lo w : Nat) : bitsOf v lo w < 2 ^ w := Nat.mod_lt _ (Nat.two_pow_pos w)

/-- A field reads as what was put into it. -/
theorem bitsOf_putBits_same (v lo w x : Nat) : bitsOf (putBits v lo w x) lo w = x % 2 ^ w := by
  unfold putBits bitsOf
  have hl : 0 < 2 ^ lo := Nat.two_pow_pos lo
  have e : v = v % 2 ^ lo + 2 ^ lo * (v / 2 ^ lo % 2 ^ w + 2 ^ w * (v / 2 ^ lo / 2 ^ w)) := by
    rw [Nat.mod_add_div, Nat.mod_add_div]
  generalize hy : v / 2 ^ lo % 2 ^ w = y at *
  generalize hz : v / 2 ^ lo / 2 ^ w = z at *
  generalize hr : v % 2 ^ lo = r at *
  have hr' : r < 2 ^ lo := hr ▸ Nat.mod_lt _ hl
  have : v - y * 2 ^ lo + x % 2 ^ w * 2 ^ lo = r + 2 ^ lo * (x % 2 ^ w + 2 ^ w * z) := by
    rw [e]; ring_nf; omega
  rw [this, Nat.add_mul_div_left _ _ hl, Nat.div_eq_of_lt hr', Nat.zero_add, Nat.add_mul_mod_self_left, Nat.mod_mod]

/-- The value of a word with a field replaced. -/
theorem putBits_eq (v lo w x : Nat) :
    putBits v lo w x = v % 2 ^ lo + 2 ^ lo * (x % 2 ^ w + 2 ^ w * (v / 2 ^ (lo + w))) := by
  unfold putBits bitsOf
  have e : v = v % 2 ^ lo + 2 ^ lo * (v / 2 ^ lo % 2 ^ w + 2 ^ w * (v / 2 ^ lo / 2 ^ w)) := by
    rw [Nat.mod_add_div, Nat.mod_add_div]
  rw [pow_add, ← Nat.div_div_eq_div_mul]
  generalize v / 2 ^ lo % 2 ^ w = y at *
  generalize v / 2 ^ lo / 2 ^ w = z at *
  generalize v % 2 ^ lo = r at *
  rw [e]; ring_nf; omega

/-- A field above the one replaced is unchanged. -/
theorem bitsOf_putBits_above (v lo w x lo' w' : Nat) (h : lo + w ≤ lo') :
    bitsOf (putBits v lo w x) lo' w' = bitsOf v lo' w' := by
  unfold bitsOf
  congr 1
  obtain ⟨d, rfl⟩ := Nat.exists_eq_add_of_le h
  rw [putBits_eq, pow_add 2 (lo + w) d, ← Nat.div_div_eq_div_mul, ← Nat.div_div_eq_div_mul]
  congr 1
  have h1 : v % 2 ^ lo < 2 ^ lo := Nat.mod_lt _ (Nat.two_pow_pos lo)
  have h2 : x % 2 ^ w < 2 ^ w := Nat.mod_lt _ (Nat.two_pow_pos w)
  rw [pow_add 2 lo w, ← Nat.div_div_eq_div_mul, Nat.add_mul_div_left _ _ (Nat.two_pow_pos lo), Nat.div_eq_of_lt h1,
    Nat.zero_add, Nat.add_mul_div_left _ _ (Nat.two_pow_pos w), Nat.div_eq_of_lt h2, Nat.zero_add]

/-- A field below the one replaced is unchanged. -/
theorem bitsOf_putBits_below (v lo w x lo' w' : Nat) (h : lo' + w' ≤ lo) :
    bitsOf (putBits v lo w x) lo' w' = bitsOf v lo' w' := by
  obtain ⟨d, rfl⟩ := Nat.exists_eq_add_of_le h
  have key : ∀ n, n / 2 ^ lo' % 2 ^ w' = n % 2 ^ (lo' + w' + d) / 2 ^ lo' % 2 ^ w' := by
    intro n
    rw [add_assoc, pow_add 2 lo' (w' + d), Nat.mod_mul_right_div_self, pow_add 2 w' d, Nat.mod_mul_right_mod]
  unfold bitsOf
  rw [key, key v, putBits_eq, Nat.add_mul_mod_self_left, Nat.mod_mod]

/-- Replacing a field of a 32-bit word leaves a 32-bit word. -/
theorem putBits_lt (v lo w x n : Nat) (hv : v < 2 ^ n) (h : lo + w ≤ n) : putBits v lo w x < 2 ^ n := by
  obtain ⟨d, rfl⟩ := Nat.exists_eq_add_of_le h
  rw [putBits_eq]
  have h1 : v % 2 ^ lo < 2 ^ lo := Nat.mod_lt _ (Nat.two_pow_pos lo)
  have h2 : x % 2 ^ w < 2 ^ w := Nat.mod_lt _ (Nat.two_pow_pos w)
  have h3 : v / 2 ^ (lo + w) < 2 ^ d := by
    rw [Nat.div_lt_iff_lt_mul (Nat.two_pow_pos _), ← pow_add, add_comm d]; exact hv
  have h4 : x % 2 ^ w + 2 ^ w * (v / 2 ^ (lo + w)) < 2 ^ (w + d) := by
    have h5 : 2 ^ w * (v / 2 ^ (lo + w) + 1) ≤ 2 ^ w * 2 ^ d := Nat.mul_le_mul_left _ h3
    rw [Nat.mul_add, Nat.mul_one] at h5
    rw [pow_add 2 w d]
    exact Nat.lt_of_lt_of_le (by omega) h5
  generalize x % 2 ^ w + 2 ^ w * (v / 2 ^ (lo + w)) = y at *
  have h6 : 2 ^ lo * (y + 1) ≤ 2 ^ lo * 2 ^ (w + d) := Nat.mul_le_mul_left _ h4
  rw [Nat.mul_add, Nat.mul_one] at h6
  rw [add_assoc, pow_add 2 lo (w + d)]
  omega

end Sys2Proof.Machine
end

