-- ==== Sys2Proof/Laws/Flags.lean ====
section
/-! SUPPORT. Registers read back what is put into them; what an error report can touch; what time can touch. -/

namespace Sys2Proof.Machine

open Sys2Proof

/-! ### Registers -/

theorem reg_setReg_same (s : State) (pg off v : Nat) : (s.setReg pg off v).reg pg off = v % 2 ^ 32 := by
  simp [State.reg, State.setReg]

theorem reg_setReg_other (s : State) {pg off pg' off' : Nat} (v : Nat) (h : regKey pg' off' ≠ regKey pg off) :
    (s.setReg pg off v).reg pg' off' = s.reg pg' off' := by
  simp [State.reg, State.setReg, tblGet_tblSet_other _ _ _ h]

theorem regKey_inj {pg off pg' off' : Nat} (h : off < 0x1000) (h' : off' < 0x1000) :
    regKey pg off = regKey pg' off' ↔ pg = pg' ∧ off = off' := by
  unfold regKey; omega

theorem reg_lt (s : State) (pg off : Nat) : s.reg pg off < 2 ^ 32 := (tblGet regReset s.regs (regKey pg off)).isLt

theorem fld_setFld_same (s : State) (pg off lo w v : Nat) (h : lo + w ≤ 32) :
    (s.setFld pg off lo w v).fld pg off lo w = v % 2 ^ w := by
  unfold State.fld State.setFld
  rw [reg_setReg_same, Nat.mod_eq_of_lt (putBits_lt _ _ _ _ 32 (reg_lt s pg off) h), bitsOf_putBits_same]

theorem fld_setFld_disjoint (s : State) (pg off lo w v lo' w' : Nat) (h : lo + w ≤ 32)
    (hd : lo + w ≤ lo' ∨ lo' + w' ≤ lo) : (s.setFld pg off lo w v).fld pg off lo' w' = s.fld pg off lo' w' := by
  unfold State.fld State.setFld
  rw [reg_setReg_same, Nat.mod_eq_of_lt (putBits_lt _ _ _ _ 32 (reg_lt s pg off) h)]
  rcases hd with hd | hd
  · exact bitsOf_putBits_above _ _ _ _ _ _ hd
  · exact bitsOf_putBits_below _ _ _ _ _ _ hd

theorem reg_setFld_other (s : State) {pg off pg' off' : Nat} (lo w v : Nat) (h : regKey pg' off' ≠ regKey pg off) :
    (s.setFld pg off lo w v).reg pg' off' = s.reg pg' off' := reg_setReg_other s _ h

theorem fld_setReg_other (s : State) {pg off pg' off' : Nat} (v lo w : Nat) (h : regKey pg' off' ≠ regKey pg off) :
    (s.setReg pg off v).fld pg' off' lo w = s.fld pg' off' lo w := by
  unfold State.fld; rw [reg_setReg_other s v h]

@[simp] theorem blk_setBlk_same (s : State) (b : Nat) (c : BlkCtl) : (s.setBlk b c).blk b = c := by
  simp [State.blk, State.setBlk]

theorem blk_setBlk_other (s : State) {b b' : Nat} (c : BlkCtl) (h : b' ≠ b) : (s.setBlk b c).blk b' = s.blk b' := by
  simp [State.blk, State.setBlk, tblGet_tblSet_other _ _ _ h]

@[simp] theorem hdr_setHdr_same (s : State) (pg : Nat) (h : PageHdr) : (s.setHdr pg h).hdr pg = h := by
  simp [State.hdr, State.setHdr]

theorem hdr_setHdr_other (s : State) {pg pg' : Nat} (h : PageHdr) (hp : pg' ≠ pg) :
    (s.setHdr pg h).hdr pg' = s.hdr pg' := by
  simp [State.hdr, State.setHdr, tblGet_tblSet_other _ _ _ hp]

@[simp] theorem tile_setTile_same (s : State) (x : Nat) (t : Tile) : (s.setTile x t).tile x = t := by
  simp [State.tile, State.setTile]

theorem tile_setTile_other (s : State) {x x' : Nat} (t : Tile) (h : x' ≠ x) : (s.setTile x t).tile x' = s.tile x' := by
  simp [State.tile, State.setTile, tblGet_tblSet_other _ _ _ h]

@[simp] theorem obj_setObj_same (s : State) (x n : Nat) (o : SyncObj) : (s.setObj x n o).obj x n = o := by
  simp [State.obj, State.setObj]

theorem obj_setObj_other (s : State) {x n x' n' : Nat} (o : SyncObj) (h : x' * 128 + n' ≠ x * 128 + n) :
    (s.setObj x n o).obj x' n' = s.obj x' n' := by
  simp [State.obj, State.setObj, tblGet_tblSet_other _ _ _ h]

@[simp] theorem key_setKey_same (s : State) (x k : Nat) (e : KeyEntry) : (s.setKey x k e).key x k = e := by
  simp [State.key, State.setKey]

theorem key_setKey_other (s : State) {x k x' k' : Nat} (e : KeyEntry) (h : x' * 8192 + k' ≠ x * 8192 + k) :
    (s.setKey x k e).key x' k' = s.key x' k' := by
  simp [State.key, State.setKey, tblGet_tblSet_other _ _ _ h]

@[simp] theorem map_setMap_same (s : State) (x : Nat) (m : RtrMap) : (s.setMap x m).map x = m := by
  simp [State.map, State.setMap]

@[simp] theorem port_setPort_same (s : State) (p : Nat) (x : PortSt) : (s.setPort p x).port p = x := by
  simp [State.port, State.setPort]

@[simp] theorem mcc_setMcc_same (s : State) (n : Nat) (m : Mcc) : (s.setMcc n m).mcc n = m := by
  simp [State.mcc, State.setMcc]

@[simp] theorem rgn_setRgn_same (s : State) (r : Nat) (x : RegionSt) : (s.setRgn r x).rgn r = x := by
  simp [State.rgn, State.setRgn]

@[simp] theorem facet_setFacet_same (s : State) (f : Nat) (c : FacetClk) : (s.setFacet f c).facet f = c := by
  simp [State.facet, State.setFacet]

theorem facet_setFacet_other (s : State) {f f' : Nat} (c : FacetClk) (h : f' ≠ f) :
    (s.setFacet f c).facet f' = s.facet f' := by
  simp [State.facet, State.setFacet, tblGet_tblSet_other _ _ _ h]

@[simp] theorem coll_setColl_same (s : State) (k : Nat) (c : Collector) : (s.setColl k c).coll k = c := by
  simp [State.coll, State.setColl]

@[simp] theorem loupeOf_setLoupe_same (s : State) (f : Nat) (l : Loupe) : (s.setLoupe f l).loupeOf f = l := by
  simp [State.loupeOf, State.setLoupe]

/-! ### What a fold keeps -/

theorem foldl_keeps {α σ : Type} (P : σ → Prop) (g : σ → α → σ) (h : ∀ t a, P t → P (g t a)) (l : List α) (s : σ) (hs : P s) :
    P (l.foldl g s) := by
  induction l generalizing s with
  | nil => exact hs
  | cons a l ih => exact ih _ (h s a hs)

theorem foldl_keeps_mem {α σ : Type} (P : σ → Prop) (g : σ → α → σ) (l : List α) (h : ∀ t, ∀ a ∈ l, P t → P (g t a)) (s : σ)
    (hs : P s) : P (l.foldl g s) := by
  induction l generalizing s with
  | nil => exact hs
  | cons a l ih =>
    exact ih (fun t b hb => h t b (List.mem_cons_of_mem _ hb)) _ (h s a List.mem_cons_self hs)

/-! ### What an error report can touch -/

theorem LogFrame.refl (s : State) : LogFrame s s := rfl

theorem LogFrame.trans {s t u : State} (h : LogFrame s t) (k : LogFrame t u) : LogFrame s u := Eq.trans k h

theorem LogFrame.setReg {s t : State} (h : LogFrame s t) (pg off v : Nat) : LogFrame s (t.setReg pg off v) := h.trans rfl
theorem LogFrame.setHdr {s t : State} (h : LogFrame s t) (pg : Nat) (x : PageHdr) : LogFrame s (t.setHdr pg x) := h.trans rfl
theorem LogFrame.setBlk {s t : State} (h : LogFrame s t) (b : Nat) (c : BlkCtl) : LogFrame s (t.setBlk b c) := h.trans rfl
theorem LogFrame.setColl {s t : State} (h : LogFrame s t) (k : Nat) (c : Collector) : LogFrame s (t.setColl k c) := h.trans rfl
theorem LogFrame.setLoupe {s t : State} (h : LogFrame s t) (f : Nat) (l : Loupe) : LogFrame s (t.setLoupe f l) := h.trans rfl
theorem LogFrame.send {s t : State} (h : LogFrame s t) (ch : Chan) (k : String) (ws : List Nat) :
    LogFrame s (t.send ch k ws) := h.trans rfl
theorem LogFrame.bump {s t : State} (h : LogFrame s t) (pg off n : Nat) : LogFrame s (t.bump pg off n) :=
  LogFrame.setReg (LogFrame.setReg h _ _ _) _ _ _
theorem LogFrame.bumpSat {s t : State} (h : LogFrame s t) (pg off n : Nat) : LogFrame s (t.bumpSat pg off n) :=
  LogFrame.setReg h _ _ _

theorem LogFrame.event {s t : State} (h : LogFrame s t) (code : Nat) (body : List Nat) : LogFrame s (t.event code body) := by
  unfold State.event
  have := foldl_keeps (LogFrame s) (fun (u : State) (x : Sub) => u.send (.mgmt x.conn) "EVENT" (code :: t.time :: body))
    (fun u x hu => hu.send _ _ _) (t.subs.filter fun x => x.flags % 2 == 1) t h
  split
  · exact this.send _ _ _
  · exact this

theorem LogFrame.logWrite {s t : State} (h : LogFrame s t) (r : LogRec) : LogFrame s (t.logWrite r) := by
  unfold State.logWrite
  have h1 : LogFrame s { t with log := t.log ++ [{ r with seqno := t.logSeq % 2 ^ 32 }], logSeq := (t.logSeq + 1) % 2 ^ 32 } :=
    h.trans rfl
  dsimp only
  split
  · split
    · exact ((h1.bump _ _ _).bump _ _ _).event _ _
    · exact (h1.bump _ _ _).event _ _
  · split
    · exact (h1.bump _ _ _).bump _ _ _
    · exact h1.bump _ _ _

theorem LogFrame.collectAs {s t : State} (h : LogFrame s t) (k : Nat) (r : LogRec) : LogFrame s (t.collectAs k r) := by
  unfold State.collectAs
  have h1 : LogFrame s (t.bump (pgFLT 0) 0x050 r.count) := h.bump _ _ _
  dsimp only
  repeat' split
  · exact (h1.setColl _ _).logWrite _
  all_goals exact h1.setColl _ _

theorem LogFrame.collect {s t : State} (h : LogFrame s t) (pg bit cls flags : Nat) (d : List Nat) :
    LogFrame s (t.collect pg bit cls flags d) := h.collectAs _ _

theorem LogFrame.setErr {s t : State} (h : LogFrame s t) (pg bit : Nat) : LogFrame s (t.setErr pg bit) := h.setHdr _ _

theorem LogFrame.takeInj {s t u : State} (h : LogFrame s t) {pg bit : Nat} (e : t.takeInj pg bit = some u) : LogFrame s u := by
  unfold State.takeInj at e
  dsimp only at e
  split at e
  · injection e with e
    rw [← e]
    exact h.setHdr _ _
  · cases e

/-- Taking an injection touches a page header at most. -/
theorem LogFrame.injected {s t : State} (h : LogFrame s t) (pg bit : Nat) : LogFrame s (t.injected pg bit).2 := by
  unfold State.injected
  split
  · rename_i u e
    exact h.takeInj e
  · exact h

theorem LogFrame.report {s t : State} (n : Nat) (h : LogFrame s t) (pg bit cls flags : Nat) (d : List Nat) :
    LogFrame s (State.report n t pg bit cls flags d) := by
  induction n generalizing s t pg bit cls flags d with
  | zero => exact h.collect _ _ _ _ _
  | succ n ih =>
    unfold State.report
    refine foldl_keeps (LogFrame s) _ (fun u e hu => ?_) _ _ (h.collect _ _ _ _ _)
    dsimp only
    split
    · split
      · exact (hu.injected _ _).setErr _ _
      · exact ih ((hu.injected _ _).setErr _ _) _ _ _ _ _
    · exact hu

theorem LogFrame.loupeStop {s t : State} (h : LogFrame s t) (f : Nat) : LogFrame s (t.loupeStop f) :=
  (h.setLoupe _ _).setBlk _ _

theorem LogFrame.loupe {s t : State} (h : LogFrame s t) (site cls ctx bit : Nat) (p : List Nat) :
    LogFrame s (t.loupe site cls ctx bit p) := by
  unfold State.loupe
  extract_lets f pg l
  split
  · rename_i v _
    have hv : LogFrame s v := by
      show LogFrame s (if _ then _ else _)
      split
      · exact (h.setLoupe _ _).bumpSat _ _ _
      · exact h.setLoupe _ _
    split
    · exact hv.loupeStop _
    · exact hv
  · exact h

/-- An error event touches nothing but the log, the loupe, registers, headers and messages sent. -/
theorem LogFrame.raise {s t : State} (h : LogFrame s t) (pg bit cls : Nat) (c : Cnt) (inj : Bool) (info : List Nat) :
    LogFrame s (t.raise pg bit cls c inj info) := by
  unfold State.raise
  have h0 := (h.injected pg bit).setErr pg bit
  revert h0
  rcases t.injected pg bit with ⟨was, u0⟩
  intro h0
  dsimp only at h0 ⊢
  cases c <;> dsimp only <;> split
  · exact h0
  · split
    · apply LogFrame.loupe; apply LogFrame.report; exact h0
    · apply LogFrame.report; exact h0
  · apply LogFrame.setHdr; exact h0
  · split
    · apply LogFrame.loupe; apply LogFrame.report; apply LogFrame.setHdr; exact h0
    · apply LogFrame.report; apply LogFrame.setHdr; exact h0
  · apply LogFrame.setHdr; exact h0
  · split
    · apply LogFrame.loupe; apply LogFrame.report; apply LogFrame.setHdr; exact h0
    · apply LogFrame.report; apply LogFrame.setHdr; exact h0

/-- The same for an error that arises on a condition. -/
theorem LogFrame.raiseIf {s t : State} (h : LogFrame s t) (pg bit cls : Nat) (c : Cnt) (cond : Bool) (info : List Nat) :
    LogFrame s (t.raiseIf pg bit cls c cond info) := by
  unfold State.raiseIf
  split
  · exact h.raise _ _ _ _ _ _
  · exact h

/-- Whether an error arises: its state differs at most in a page header. -/
theorem LogFrame.arises {s t : State} (h : LogFrame s t) (pg bit : Nat) (cond : Bool) : LogFrame s (t.arises pg bit cond).2.2 := by
  unfold State.arises
  split
  · rename_i u e
    exact h.takeInj e
  · exact h

/-! ### What time can touch -/

theorem TimeFrame.refl (s : State) : TimeFrame s s := rfl

theorem TimeFrame.trans {s t u : State} (h : TimeFrame s t) (k : TimeFrame t u) : TimeFrame s u := Eq.trans k h

/-- Passing time advances device time and moves facet clocks, and nothing else. -/
theorem elapse_frame (s : State) (n : Nat) : TimeFrame s (s.elapse n) := by
  unfold State.elapse
  refine foldl_keeps (TimeFrame s) _ (fun u f hu => ?_) _ _ rfl
  exact TimeFrame.trans hu rfl

@[simp] theorem elapse_time (s : State) (n : Nat) : (s.elapse n).time = s.time + n := by
  unfold State.elapse
  refine foldl_keeps (fun (t : State) => t.time = s.time + n) _ (fun u f hu => ?_) _ _ rfl
  simpa using hu

theorem waitTime_frame (s : State) (n : Nat) : TimeFrame s (s.waitTime n) := by
  unfold State.waitTime
  split
  · exact elapse_frame _ _
  · exact TimeFrame.refl s

@[simp] theorem waitTime_time (s : State) (n : Nat) : (s.waitTime n).time = max s.time n := by
  unfold State.waitTime
  split
  · rw [elapse_time]; omega
  · omega

theorem waitCyc_frame (s : State) (site c : Nat) : TimeFrame s (s.waitCyc site c) := by
  unfold State.waitCyc
  dsimp only
  split
  · exact elapse_frame _ _
  · exact TimeFrame.refl s

theorem unskip_frame (s : State) (site : Nat) : TimeFrame s (s.unskip site) := by
  unfold State.unskip
  dsimp only
  split
  · exact waitCyc_frame _ _ _
  · exact TimeFrame.refl s

theorem TimeFrame.reg {s t : State} (h : TimeFrame s t) (pg off : Nat) : t.reg pg off = s.reg pg off := by
  have h' : t.butTime.regs = s.butTime.regs := congrArg State.regs h
  have : t.regs = s.regs := h'
  simp [State.reg, this]

end Sys2Proof.Machine
end

