-- ==== Sys2Proof/Laws/Memory.lean ====
section
/-! SUPPORT. Laws of the block's memories: every operation that writes one keeps its canonical form, and a read after a write
gives what was written there and what stood elsewhere before. -/

namespace Sys2Proof.Machine

open Sys2Proof

/-! ### Bytes and words -/

theorem memSetByte_wf (m : List Host.Cell) (a v : Nat) (h : Memory.wf m = true) : Memory.wf (memSetByte m a v) = true :=
  tblWf_tblSet _ _ _ _ h

theorem memSetWord_wf (m : List Host.Cell) (a v : Nat) (h : Memory.wf m = true) : Memory.wf (memSetWord m a v) = true :=
  memSetByte_wf _ _ _ (memSetByte_wf _ _ _ (memSetByte_wf _ _ _ (memSetByte_wf _ _ _ h)))

theorem memSetBytes_wf (l : List Nat) (m : List Host.Cell) (a : Nat) (h : Memory.wf m = true) :
    Memory.wf (memSetBytes m a l) = true := by
  induction l generalizing m a with
  | nil => exact h
  | cons v t ih => exact ih _ _ (memSetByte_wf _ _ _ h)

theorem memClear_wf (m : List Host.Cell) (lo hi : Nat) (h : Memory.wf m = true) : Memory.wf (memClear m lo hi) = true :=
  tblWf_tblDelRange _ _ _ _ h

/-- A byte reads as what was written to it, and every other byte as before. -/
theorem memByte_memSetByte (m : List Host.Cell) (a b v : Nat) :
    memByte (memSetByte m a v) b = if b = a then v % 2 ^ 8 else memByte m b := by
  unfold memByte memSetByte
  rw [tblGet_tblSet]
  split <;> simp

theorem memByte_lt (m : List Host.Cell) (a : Nat) : memByte m a < 2 ^ 8 := (tblGet memDefault m a).isLt

/-- The bytes of a memory after a word is written. -/
theorem memByte_memSetWord (m : List Host.Cell) (a b v : Nat) :
    memByte (memSetWord m a v) b = if a ≤ b ∧ b < a + 4 then bitsOf v (8 * (b - a)) 8 else memByte m b := by
  unfold memSetWord
  simp only [memByte_memSetByte]
  by_cases h : a ≤ b ∧ b < a + 4
  · rw [if_pos h]
    obtain ⟨d, rfl⟩ := Nat.exists_eq_add_of_le h.1
    have hd : d < 4 := by omega
    rw [show a + d - a = d by omega]
    interval_cases d <;> simp [bitsOf]
  · rw [if_neg h, if_neg (by omega), if_neg (by omega), if_neg (by omega), if_neg (by omega)]

/-- A word outside the four bytes written reads as before. -/
theorem memWord_memSetWord_other (m : List Host.Cell) (a b v : Nat) (h : b + 4 ≤ a ∨ a + 4 ≤ b) :
    memWord (memSetWord m a v) b = memWord m b := by
  unfold memWord
  simp only [memByte_memSetWord]
  rw [if_neg (by omega), if_neg (by omega), if_neg (by omega), if_neg (by omega)]

/-- A word reads as the low 32 bits of what was written to it. -/
theorem memWord_memSetWord_same (m : List Host.Cell) (a v : Nat) : memWord (memSetWord m a v) a = v % 2 ^ 32 := by
  unfold memWord
  simp only [memByte_memSetWord]
  rw [if_pos (by omega), if_pos (by omega), if_pos (by omega), if_pos (by omega)]
  simp only [bitsOf, Nat.sub_self, show a + 1 - a = 1 by omega, show a + 2 - a = 2 by omega, show a + 3 - a = 3 by omega]
  omega

theorem memByte_memClear (m : List Host.Cell) (lo hi a : Nat) :
    memByte (memClear m lo hi) a = if a < lo ∨ hi ≤ a then memByte m a else 0 := by
  unfold memByte memClear
  rw [tblGet_tblDelRange]
  split <;> simp [memDefault]

/-! ### Whole banks -/

/-- A table followed by one whose keys are all greater is in canonical form. -/
theorem tblWf_append {α : Type} [DecidableEq α] (d : Nat → α) (t u : Tbl α) (ht : tblWf d t = true) (hu : tblWf d u = true)
    (h : ∀ x ∈ t, ∀ y ∈ u, x.1 < y.1) : tblWf d (t ++ u) = true := by
  simp only [tblWf, tblSorted, Bool.and_eq_true, decide_eq_true_eq, List.all_eq_true] at *
  refine ⟨List.pairwise_append.2 ⟨ht.1, hu.1, h⟩, fun e he => ?_⟩
  rcases List.mem_append.1 he with he | he
  · exact ht.2 e he
  · exact hu.2 e he

/-- A table whose keys all move by one amount stays in canonical form under a default that no key changes. -/
theorem tblWf_shift {α : Type} [DecidableEq α] (v : α) (t : Tbl α) (a b : Nat) (ha : ∀ e ∈ t, a ≤ e.1)
    (h : tblWf (fun _ => v) t = true) : tblWf (fun _ => v) (t.map fun e => (e.1 - a + b, e.2)) = true := by
  simp only [tblWf, tblSorted, Bool.and_eq_true, decide_eq_true_eq, List.all_eq_true] at *
  refine ⟨?_, fun e he => ?_⟩
  · rw [List.pairwise_map]
    refine h.1.imp_of_mem fun hx hy hlt => ?_
    have := ha _ hx
    simp only
    omega
  · obtain ⟨x, hx, rfl⟩ := List.mem_map.1 he
    exact h.2 x hx

theorem copyTbl_wf {α : Type} [DecidableEq α] (v : α) (t : Tbl α) (src dst w : Nat) (h : tblWf (fun _ => v) t = true) :
    tblWf (fun _ => v) (copyTbl t src dst w) = true := by
  unfold copyTbl
  have part : ∀ e ∈ ((t.filter fun e => src * w ≤ e.1 ∧ e.1 < (src + 1) * w).map fun e => (e.1 - src * w + dst * w, e.2)),
      dst * w ≤ e.1 ∧ e.1 < (dst + 1) * w := by
    intro e he
    obtain ⟨x, hx, rfl⟩ := List.mem_map.1 he
    have := (List.mem_filter.1 hx).2
    simp only [decide_eq_true_eq] at this
    rw [Nat.succ_mul] at this ⊢
    simp only
    omega
  refine tblWf_append _ _ _ (tblWf_append _ _ _ (tblWf_filter _ _ _ h) (tblWf_shift v _ _ _ (fun e he => ?_)
    (tblWf_filter _ _ _ h)) fun x hx y hy => ?_) (tblWf_filter _ _ _ h) fun x hx y hy => ?_
  · have := (List.mem_filter.1 he).2
    simp only [decide_eq_true_eq] at this
    exact this.1
  · have h1 := (List.mem_filter.1 hx).2
    have h2 := part y hy
    simp only [decide_eq_true_eq] at h1
    omega
  · have h2 := (List.mem_filter.1 hy).2
    simp only [decide_eq_true_eq] at h2
    rcases List.mem_append.1 hx with hx | hx
    · have h1 := (List.mem_filter.1 hx).2
      simp only [decide_eq_true_eq] at h1
      rw [Nat.succ_mul] at h2
      omega
    · have h1 := part x hx
      omega

theorem spliceTbl_wf {α : Type} [DecidableEq α] (d : Nat → α) (t u : Tbl α) (lo hi : Nat) (ht : tblWf d t = true)
    (hu : tblWf d u = true) (h : lo ≤ hi) : tblWf d (spliceTbl t u lo hi) = true := by
  unfold spliceTbl
  refine tblWf_append _ _ _ (tblWf_append _ _ _ (tblWf_filter _ _ _ ht) (tblWf_filter _ _ _ hu) fun x hx y hy => ?_)
    (tblWf_filter _ _ _ ht) fun x hx y hy => ?_
  · have h1 := (List.mem_filter.1 hx).2
    have h2 := (List.mem_filter.1 hy).2
    simp only [Bool.and_eq_true, decide_eq_true_eq] at h1 h2
    omega
  · have h2 := (List.mem_filter.1 hy).2
    simp only [decide_eq_true_eq] at h2
    rcases List.mem_append.1 hx with hx | hx <;> have h1 := (List.mem_filter.1 hx).2 <;>
      simp only [Bool.and_eq_true, decide_eq_true_eq] at h1 <;> omega

/-! ### The state's memories -/

theorem memOk_iff (s : State) : s.memOk = true ↔
    Memory.wf s.spad = true ∧ Memory.wf s.imem = true ∧ Memory.wf s.dram = true ∧ Memory.wf s.staging = true := by
  simp [State.memOk, and_assoc]

/-- The memories after reset are in canonical form. -/
theorem reset_memOk : State.reset.memOk = true := rfl

/-- What changes none of the four memories keeps them canonical. -/
theorem memOk_of_same {s t : State} (h : s.memOk = true) (h1 : t.spad = s.spad) (h2 : t.imem = s.imem) (h3 : t.dram = s.dram)
    (h4 : t.staging = s.staging) : t.memOk = true := by
  unfold State.memOk at *; rw [h1, h2, h3, h4]; exact h

/-- What only touches the error reports keeps the memories canonical. -/
theorem LogFrame.memOk {s t : State} (h : LogFrame s t) (hs : s.memOk = true) : t.memOk = true :=
  memOk_of_same hs h.spad h.imem h.dram h.staging

/-- What only passes time keeps the memories canonical. -/
theorem TimeFrame.memOk {s t : State} (h : TimeFrame s t) (hs : s.memOk = true) : t.memOk = true :=
  memOk_of_same hs h.spad h.imem h.dram h.staging

theorem spadStore_memOk {s : State} (site w : Nat) (x : PWord) (h : s.memOk = true) : (s.spadStore site w x).memOk = true := by
  rw [memOk_iff] at *
  exact ⟨memSetWord_wf _ _ _ h.1, h.2⟩

theorem spadFill_memOk {s : State} (site : Nat) (p : Bool) (h : s.memOk = true) : (s.spadFill site p).memOk = true := by
  rw [memOk_iff] at *
  exact ⟨memClear_wf _ _ _ h.1, h.2⟩

theorem installImage_memOk {s : State} (site : Nat) (ws : List Nat) (h : s.memOk = true) :
    (s.installImage site ws).memOk = true := by
  rw [memOk_iff] at *
  exact ⟨h.1, memSetBytes_wf _ _ _ (memClear_wf _ _ _ h.2.1), h.2.2⟩

theorem storeBurst_memOk {s : State} (n b : Nat) (ws : List PWord) (h : s.memOk = true) : (s.storeBurst n b ws).memOk = true := by
  rw [memOk_iff] at *
  exact ⟨h.1, h.2.1, foldl_keeps (fun m => Memory.wf m = true) _ (fun _ _ hm => memSetWord_wf _ _ _ hm) _ _ h.2.2.1, h.2.2.2⟩

theorem blankDram_memOk {s : State} (n : Nat) (h : s.memOk = true) : (s.blankDram n).memOk = true := by
  rw [memOk_iff] at *
  exact ⟨h.1, h.2.1, memClear_wf _ _ _ h.2.2.1, h.2.2.2⟩

theorem clearStaging_memOk {s : State} (x : Nat) (h : s.memOk = true) : (s.clearStaging x).memOk = true := by
  rw [memOk_iff] at *
  exact ⟨h.1, h.2.1, h.2.2.1, memClear_wf _ _ _ h.2.2.2⟩

/-- The word a scratchpad store leaves (R212). -/
theorem spadWord_spadStore_same (s : State) (site w : Nat) (x : PWord) :
    (s.spadStore site w x).spadWord site w = ⟨x.v % 2 ^ 32, x.p⟩ := by
  simp only [State.spadWord, State.spadPois, State.spadStore, State.spd, State.tile, memWord_memSetWord_same]
  rw [tblGet_tblSet_same]

/-- Every other word of every scratchpad stands as it was. -/
theorem spadWord_spadStore_other (s : State) {site w site' w' : Nat} (x : PWord) (hw : w < spadWords) (hw' : w' < spadWords)
    (h : site' ≠ site ∨ w' ≠ w) : (s.spadStore site w x).spadWord site' w' = s.spadWord site' w' := by
  have e : (s.spadStore site w x).spadPois site' w' = s.spadPois site' w' := by
    simp only [State.spadPois, State.spadStore, State.spd, State.tile]
    unfold tblGet
    rw [show tblFind (tblSet _ s.spadPoison (site * 2 ^ 21 + w) x.p) (site' * 2 ^ 21 + w') =
      tblFind s.spadPoison (site' * 2 ^ 21 + w') from ?_]
    have hne : site' * 2 ^ 21 + w' ≠ site * 2 ^ 21 + w := by simp only [spadWords] at *; omega
    unfold tblSet
    split
    · rw [tblFind_tblDel, if_neg hne]
    · rw [tblFind_tblPut_other _ _ hne]
  simp only [State.spadWord, e]
  congr 1
  refine memWord_memSetWord_other _ _ _ _ ?_
  simp only [spadKey, spadWords] at *
  omega

end Sys2Proof.Machine
end

