-- ==== Sys2Proof/WellFormed.lean ====
section
/-! DEFINITION. Well-formed commands: the ranges of operands that their types leave open. The machine gives every command a
meaning, well-formed or not; these are the ranges of the fields that carry the operands. -/

namespace Sys2Proof

open Sys2Proof.Machine

/-- A device address (R30). -/
def wfAddr (a : Nat) : Bool := decide (a < 2 ^ 48)

/-- A requester number and a request tag (R200). -/
def wfReq (req tag : Nat) : Bool := decide (req < 2048) && decide (tag < 256)

/-- A word with its poison bit, or a list of them. -/
def wfWord (w : PWord) : Bool := decide (w.v < 2 ^ 32)
def wfWords (ws : List PWord) : Bool := ws.all wfWord

/-- A word of a scratchpad, and an LTN field (Tables 07.4, 09.4). -/
def wfSpad (dltn word : Nat) : Bool := decide (dltn < 2048) && decide (word < 1572864)

/-- A 64-bit value. -/
def wf64 (v : Nat) : Bool := decide (v < 2 ^ 64)

/-- A message header's fields that are 64 bits wide, and a slot or tag of 32. -/
def wfMsg (long short : List Nat) : Bool := long.all wf64 && short.all fun v => decide (v < 2 ^ 32)

/-- The length of a control message's payload (R547). -/
def wfLen (len : Nat) : Bool := decide (len ≤ 4194304)

/-- A DATA frame (Table 13.4). -/
def wfFrame (f : Frame) : Bool := decide (f.vc < 4) && decide (f.seq < 2 ^ 20) && f.words.length == 64 && wfWords f.words

/-- Width of a service core's access in bytes. -/
def wfWidth (n : Nat) : Bool := n == 1 || n == 2 || n == 4 || n == 8

/-- Whether the operands of a command are in range. -/
def Instr.wf : Instr → Bool
  | .registerAccessWrite req addr width _ _ => decide (req < 2048) && wfAddr addr && wfWidth width
  | .latchedRead req addr width => decide (req < 2048) && wfAddr addr && wfWidth width
  | .regAccessTimeout req addr _ _ => decide (req < 2048) && wfAddr addr
  | .enable pg _ => pageExists pg
  | .haltReq pg _ => pageExists pg
  | .safePointHalt pg => pageExists pg
  | .reset pg => pageExists pg
  | .commit pg => pageExists pg
  | .commitApply pg => pageExists pg
  | .commitStall pg => pageExists pg
  | .pgErrInj pg _ => pageExists pg
  | .errReport pg _ => pageExists pg
  | .rdReq _ req _ tag dltn word count => wfReq req tag && wfSpad dltn word && decide (1 ≤ count) && decide (count ≤ 32)
  | .wrReq _ req _ tag dltn word ws =>
    wfReq req tag && wfSpad dltn word && decide (1 ≤ ws.length) && decide (ws.length ≤ 32) && wfWords ws
  | .amoReq _ req _ tag dltn word _ _ => wfReq req tag && wfSpad dltn word
  | .casReq _ req _ tag dltn word _ _ => wfReq req tag && wfSpad dltn word
  | .rcRel _ req _ tag => wfReq req tag
  | .rdRsp _ req _ tag ws _ => wfReq req tag && decide (ws.length ≤ 32) && wfWords ws
  | .wrAck _ req _ tag => wfReq req tag
  | .amoRsp _ req _ tag old => wfReq req tag && wfWord old
  | .loss _ req _ tag _ _ => wfReq req tag
  | .remoteRequestTimeout _ tag => decide (tag < 256)
  | .regRd req addr tag _ => wfReq req tag && wfAddr addr
  | .regWr req addr _ tag _ => wfReq req tag && wfAddr addr
  | .regRsp req tag => wfReq req tag
  | .mapStage _ _ pairs _ => pairs.all fun e => decide (e.1 < 1152) && decide (e.2 < 1296)
  | .mapCommit _ _ t => wf64 t
  | .memReq _ req _ tag offset lch words =>
    wfReq req tag && decide (offset < 2 ^ 33) && offset % 4 == 0 && decide (lch < 512) && decide (1 ≤ words) && decide (words ≤ 64)
  | .open src seq hash j ns mtag => wfMsg [src, seq, hash] [mtag] && decide (j < 16) && decide (ns ≤ 16)
  | .openAck mtag status cslot => wfMsg [] [mtag, status, cslot]
  | .close src seq cslot mtag j ns => wfMsg [src, seq] [cslot, mtag] && decide (j < 16) && decide (ns ≤ 16)
  | .closeAck mtag => wfMsg [] [mtag]
  | .page src seq span slot layer hg fmt nh ptag len ws =>
    wfMsg [src, seq] [span, slot, layer, hg, fmt, nh, ptag, len] && wfWords ws
  | .pageAck ptag status => wfMsg [] [ptag, status]
  | .partial_ mtag status _ => wfMsg [] [mtag, status]
  | .echo _ _ trip hold => wfMsg [] [trip, hold]
  | .dataFrame _ f _ _ _ _ _ => wfFrame f
  | .controlUpdate p10 vin iin _ => wfMsg [] [p10, vin, iin]
  | .emerg p10 => wfMsg [] [p10]
  | .thermalThreshold source _ => decide (source < 1312)
  | .thermalTrip source _ => decide (source < 1312)
  | .submit _ _ len _ => wfLen len
  | .bind _ _ len _ => wfLen len
  | .prompt _ _ len _ => wfLen len
  | .registerRead _ _ addr count _ => wfAddr addr && decide (1 ≤ count) && decide (count ≤ 64)
  | .registerWrite _ _ addr values _ => wfAddr addr && decide (1 ≤ values.length) && decide (values.length ≤ 1048576)
  | .begin _ _ _ _ hash => hash.length == 32
  | .data _ _ _ _ bytes => decide (bytes.length ≤ 2 ^ 20)
  | .pairAdmit slot _ => wfMsg [] [slot]
  | .delta step slot _ _ _ => wfMsg [step] [slot]
  | .pairStep number _ => wf64 number
  | .pairCommit number => wf64 number
  | .release slot _ => wfMsg [] [slot]
  | .pairAck number => wf64 number
  | _ => true

end Sys2Proof
end

