-- ==== Sys2Proof/Tests/Slice0.lean ====
section
/-! SUPPORT. The model's own tests: ill-formed commands are refused by their check; and for each clause of each obligation a
concrete state and operands that meet its hypotheses, with what the command then leaves. -/

namespace Sys2Proof.Tests

set_option Elab.async false

open Sys2Proof Sys2Proof.Machine

/-- The command completes and `p` holds of the state it leaves. -/
def leaves (c : Instr) (s : State) (p : State → Bool) : Bool :=
  match exec c s with
  | .next t => p t
  | .fault _ => false
  | .refused _ => false

/-- The block of a page enabled and running. -/
def go (s : State) (pg : Nat) : State := s.setBlk (blkOf pg) { s.blk (blkOf pg) with enable := true, run := true }

/-- An injection of one bit pending in a page. -/
def injd (s : State) (pg b : Nat) : State := s.setHdr pg { s.hdr pg with inj := 2 ^ b }

/-- Region 0, and with it site 0, ON. -/
def on : State := State.reset.setRegion 0 2

/-! ### Well-formed commands -/

theorem test_wf_addresses : (Instr.registerAccessWrite 0 (2 ^ 48) 4 .store 0).wf = false ∧ (Instr.registerAccessWrite 0 0 3 .store 0).wf = false ∧
    (Instr.registerAccessWrite 2048 0 4 .store 0).wf = false ∧ (Instr.registerAccessWrite 8 (2 ^ 48 - 1) 8 .store 0).wf = true ∧
    (Instr.latchedRead 0 (2 ^ 48) 4).wf = false ∧ (Instr.latchedRead 0 0 3).wf = false ∧ (Instr.regAccessTimeout 2048 0 true 0).wf = false ∧
    (Instr.regRd 0 (2 ^ 48) 0 false).wf = false ∧ (Instr.regWr 0 0 0 256 false).wf = false ∧ (Instr.regRsp 2048 0).wf = false := by decide +kernel

theorem test_wf_pages : ∀ pg ∈ [pgId 0x7FF 0 0, pgMXA 1296 0, pgPRG 72],
    ∀ i ∈ [Instr.enable pg true, .haltReq pg true, .safePointHalt pg, .reset pg, .commit pg, .commitApply pg, .commitStall pg, .pgErrInj pg 0,
      .errReport pg 0], i.wf = false := by decide +kernel

theorem test_wf_remote : ∀ i ∈ [Instr.rdReq 0 0 false 256 0 0 1, .rdReq 0 0 false 0 2048 0 1, .rdReq 0 0 false 0 0 1572864 1,
    .rdReq 0 0 false 0 0 0 0, .rdReq 0 0 false 0 0 0 33, .wrReq 0 0 false 0 0 0 [], .wrReq 0 0 false 0 0 0 [⟨2 ^ 32, false⟩],
    .wrReq 0 0 false 0 0 0 (List.replicate 33 ⟨0, false⟩), .amoReq 0 2048 false 0 0 0 0 0, .casReq 0 0 false 0 0 1572864 0 0,
    .rcRel 0 0 false 256, .rdRsp 0 0 false 0 (List.replicate 33 ⟨0, false⟩) [], .wrAck 0 2048 false 0, .amoRsp 0 0 false 0 ⟨2 ^ 32, true⟩,
    .loss 0 0 false 256 0 [], .remoteRequestTimeout 0 256], i.wf = false := by decide +kernel

theorem test_wf_network_and_memory : ∀ i ∈ [Instr.mapStage 0 0 [(1152, 0)] 0, .mapStage 0 0 [(0, 1296)] 0, .mapCommit 0 0 (2 ^ 64),
    .memReq 0 0 false 0 (2 ^ 33) 0 1, .memReq 0 0 false 0 2 0 1, .memReq 0 0 false 0 0 512 1, .memReq 0 0 false 0 0 0 0,
    .memReq 0 0 false 0 0 0 65, .memReq 0 0 false 256 0 0 1], i.wf = false := by decide +kernel

theorem test_wf_messages : ∀ i ∈ [Instr.open (2 ^ 64) 0 0 0 0 0, .open 0 0 0 16 0 0, .open 0 0 0 0 17 0, .open 0 0 0 0 0 (2 ^ 32),
    .openAck (2 ^ 32) 0 0, .close 0 0 (2 ^ 32) 0 0 0, .close 0 0 0 0 16 0, .closeAck (2 ^ 32), .page 0 (2 ^ 64) 0 0 0 0 0 0 0 0 [],
    .page 0 0 0 0 0 0 0 0 0 0 [⟨2 ^ 32, false⟩], .pageAck 0 (2 ^ 32), .partial_ (2 ^ 32) 0 [], .echo 0 true (2 ^ 32) 0,
    .dataFrame 0 ⟨4, true, true, 0, List.replicate 64 ⟨0, false⟩, 0⟩ 0 0 0 true none,
    .dataFrame 0 ⟨0, true, true, 2 ^ 20, List.replicate 64 ⟨0, false⟩, 0⟩ 0 0 0 true none,
    .dataFrame 0 ⟨0, true, true, 0, [], 0⟩ 0 0 0 true none, .controlUpdate (2 ^ 32) 0 0 [], .emerg (2 ^ 32), .thermalThreshold 1312 0,
    .thermalTrip 1312 0], i.wf = false := by decide +kernel

theorem test_wf_service : ∀ i ∈ [Instr.submit 0 0 4194305 [], .bind 0 0 4194305 [], .prompt 0 0 4194305 [], .registerRead 0 0 0 0 none,
    .registerRead 0 0 0 65 none, .registerRead 0 0 (2 ^ 48) 1 none, .registerWrite 0 0 0 [] none, .begin 0 0 1 0 [], .pairAdmit (2 ^ 32) [],
    .delta (2 ^ 64) 0 0 0 [], .delta 0 (2 ^ 32) 0 0 [], .pairStep (2 ^ 64) [], .pairCommit (2 ^ 64), .release (2 ^ 32) 0, .pairAck (2 ^ 64)],
    i.wf = false := by decide +kernel

theorem test_decode_table_gives_no_words : decodeTableWord 32 0 = none ∧ State.reset.withFetchWord 32 0 = State.reset := by decide +kernel

/-! ### The queue -/

theorem test_step_takes_the_front : step { State.reset with pending := [.kick, .abort] } = exec .kick { State.reset with pending := [.abort] } := rfl

theorem test_idle_step : (match step State.reset with | .next t => decide (t.time = 8) | _ => false) = true := by decide +kernel

/-! ### Block control and registers -/

theorem test_enable : on.reaches (pgVXE 0 0) = true ∧ (on.blk (blkOf (pgVXE 0 0))).haltReq = false ∧
    leaves (.enable (pgVXE 0 0) true) on (fun t => t.enabled (pgVXE 0 0) ∧ t.runs (pgVXE 0 0) ∧ t = { on with blks := t.blks }) = true := by decide +kernel

/-- VXE_0 enabled and stopped, and asked to halt while it runs. -/
def vxeOff : State := on.setBlk (blkOf (pgVXE 0 0)) ⟨true, false, false, false, none, false, false, 0⟩
def vxeHalting : State := on.setBlk (blkOf (pgVXE 0 0)) ⟨true, true, true, false, none, false, false, 0⟩

theorem test_disable : vxeOff.enabled (pgVXE 0 0) = true ∧ vxeOff.runs (pgVXE 0 0) = false ∧
    leaves (.enable (pgVXE 0 0) false) vxeOff (fun t => !t.enabled (pgVXE 0 0) && !t.runs (pgVXE 0 0)) = true := by decide +kernel

theorem test_halt_req : vxeOff.runs (pgVXE 0 0) = false ∧
    leaves (.haltReq (pgVXE 0 0) true) vxeOff (fun t => (t.blk (blkOf (pgVXE 0 0))).haltReq && !t.runs (pgVXE 0 0)) = true ∧
    leaves (.haltReq (pgVXE 0 0) false) vxeHalting (fun t => t.runs (pgVXE 0 0) && !(t.blk (blkOf (pgVXE 0 0))).haltReq) = true := by decide +kernel

theorem test_safe_point_halt : vxeHalting.runs (pgVXE 0 0) = true ∧ vxeHalting.stopped (pgVXE 0 0) = true ∧
    leaves (.safePointHalt (pgVXE 0 0)) vxeHalting (fun t => !t.runs (pgVXE 0 0) && t.enabled (pgVXE 0 0)) = true := by decide +kernel

theorem test_reset_of_a_block : vxeOff.reaches (pgVXE 0 0) = true ∧ leaves (.reset (pgVXE 0 0)) ((vxeOff.setReg (pgVXE 0 1) 0x040 5).setReg (pgMXA 0 0) 0x040 3)
    (fun t => t.reg (pgVXE 0 1) 0x040 = 0 ∧ t.reg (pgMXA 0 0) 0x040 = 3 ∧ t.enabled (pgVXE 0 0) = false) = true := by decide +kernel

/-- A word of DMX_0 of site 0 with one staged value. -/
def stg : State := { on with staged := [(regKey (pgDMX 0 0 0) 0x040, ⟨0x1F, 9⟩)] }

theorem test_commit : stg.reaches (pgDMX 0 0 0) = true ∧ stg.runs (pgDMX 0 0 0) = false ∧
    (stg.staged.filter fun x => blkOf (x.1 / 2 ^ 12) == blkOf (pgDMX 0 0 0)) = stg.staged ∧ pgTy (regKey (pgDMX 0 0 0) 0x040 / 2 ^ 12) ≠ tyPRG ∧
    commitOk (regKey (pgDMX 0 0 0) 0x040 / 2 ^ 12) (regKey (pgDMX 0 0 0) 0x040 % 2 ^ 12)
      ((stg.reg (pgDMX 0 0 0) 0x040 &&& (0xFFFF_FFFF - 0x1F)) ||| (9 &&& 0x1F)) = true ∧
    leaves (.commit (pgDMX 0 0 0)) stg (fun t => t.fld (pgDMX 0 0 0) 0x040 0 5 = 9 ∧ t.staged = []) = true ∧
    leaves (.commit (pgDMX 0 0 0)) (go stg (pgDMX 0 0 0)) (fun t => t.staged = stg.staged ∧ (t.blk (blkOf (pgDMX 0 0 0))).commitAt = some 0) = true := by
  decide +kernel

/-- A staged TAI_ANCHOR_NS of 10^9 is refused with WLOCK and changes no register. -/
theorem test_commit_refused :
    let s : State := { State.reset with staged := [(regKey pgTIM 0x090, ⟨0xFFFF_FFFF, 1000000000⟩)] }
    s.reaches pgTIM = true ∧ regKey pgTIM 0x090 = pgTIM * 2 ^ 12 + 0x090 ∧ s.runs pgTIM = false ∧
      leaves (.commit pgTIM) s (fun t => t.regs = s.regs ∧ (t.hdr pgTIM).wlock ∧ t.staged = []) = true := by decide +kernel

/-- The same while the engine runs, with a COMMIT pending since device time 0. -/
def stgPend : State := stg.setBlk (blkOf (pgDMX 0 0 0)) ⟨true, false, true, false, some 0, false, false, pgDMX 0 0 0⟩

theorem test_commit_apply : stgPend.stopped (pgDMX 0 0 0) = true ∧
    leaves (.commitApply (pgDMX 0 0 0)) stgPend (fun t => t.fld (pgDMX 0 0 0) 0x040 0 5 = 9 ∧ (t.blk (blkOf (pgDMX 0 0 0))).commitAt = none) = true := by decide +kernel

theorem test_commit_stall : leaves (.commitStall (pgDMX 0 0 0)) (stgPend.setHdr (pgDMX 0 0 0) { stgPend.hdr (pgDMX 0 0 0) with mask := 8 })
    (fun t => bitOf (t.hdr (pgDMX 0 0 0)).err 3 ∧ t.time = 10 * msec) = true := by decide +kernel

theorem test_error_injection : errDefined (pgMXA 0 0) 8 = true ∧
    leaves (.pgErrInj (pgMXA 0 0) (BitVec.ofNat 32 (2 ^ 8))) on (fun t => bitOf (t.hdr (pgMXA 0 0)).inj 8 ∧ (t.hdr (pgMXA 0 0)).err = 0) = true := by decide +kernel

/-- A module whose device time is 2^32 + 5, read by requester 8 through TIM_TIME. -/
def late : State := { State.reset with time := 2 ^ 32 + 5 }

theorem test_latched_read : pageAt (pageAddr pgTIM + 0x040) = some pgTIM ∧ pageAt (pageAddr pgTIM + 0x044) = some pgTIM ∧
    (pageAddr pgTIM + 0x040) % 0x1000 = 0x040 ∧ (pageAddr pgTIM + 0x040) % 4 = 0 ∧ late.accessFree 8 = true ∧ late.pageReached pgTIM = true ∧ (lowWords tyTIM).contains (pgPage pgTIM, 0x040) = true ∧
    leaves (.latchedRead 8 (pageAddr pgTIM + 0x040) 4) late (fun t => tblFind t.accesses 8 = some (0, 5) ∧
      tblFind t.latches (latchKey 8 (pageAddr pgTIM + 0x044)) = some 1) = true ∧
    leaves (.latchedRead 8 (pageAddr pgTIM + 0x044) 4) late (fun t => tblFind t.accesses 8 = some (0, 1)) = true := by decide +kernel

theorem test_latched_high_word : leaves (.latchedRead 8 (pageAddr pgTIM + 0x044) 4)
    { late with latches := [(latchKey 8 (pageAddr pgTIM + 0x044), 7)] } (fun t => tblFind t.accesses 8 = some (0, 7) ∧ t.latches = []) = true := by decide +kernel

/-- The same with the service corner at site 0 in service. -/
def cor : State := on.setFld pgSVC 0x048 10 1 1

theorem test_k_field : cor.accessFree 8 = true ∧ cor.pageReached (pgDMX 0 0 0) = true ∧ pageAt (pageAddr (pgDMX 0 0 0) + 0x040) = some (pgId tyDMX 0 0) ∧ (pageAddr (pgDMX 0 0 0) + 0x040) % 0x1000 = 0x040 ∧
    leaves (.registerAccessWrite 8 (pageAddr (pgDMX 0 0 0) + 0x040) 4 .store 9) cor (fun t => t.fld (pgDMX 0 0 0) 0x040 0 5 = 9) = true ∧
    leaves (.registerAccessWrite 8 (pageAddr (pgDMX 0 0 0) + 0x040) 4 .store 9) (go cor (pgDMX 0 0 0)) (fun t =>
      (t.hdr (pgDMX 0 0 0)).wlock ∧ t.reg (pgDMX 0 0 0) 0x040 = cor.reg (pgDMX 0 0 0) 0x040) = true ∧
    leaves (.registerAccessWrite 8 (pageAddr (pgDMX 0 0 0) + 0x040) 4 .store (BitVec.ofNat 64 (cor.fld (pgDMX 0 0 0) 0x040 0 5))) (go cor (pgDMX 0 0 0))
      (fun t => t.hdrs = [] ∧ tblFind t.accesses 8 = some (0, 0)) = true := by decide +kernel

theorem test_write_statuses : pageAt 0xFFFF_F000 = none ∧
    leaves (.registerAccessWrite 8 0xFFFF_F000 4 .store 1) on (fun t => t.accesses = [(8, 1, 0)]) = true ∧
    leaves (.registerAccessWrite 8 (pageAddr (pgFLT 0) + 0x040) 2 .store 1) (on.setHdr (pgFLT 0) { on.hdr (pgFLT 0) with mask := 1 })
      (fun t => tblFind t.accesses 8 = some (2, 0) ∧ bitOf (t.hdr (pgFLT 0)).err 0) = true ∧
    leaves (.registerAccessWrite 8 (pageAddr (pgFLT 0) + 0x040) 4 .store 0xA5) on (fun t => t.fld (pgFLT 0) 0x040 0 8 = 0xA5) = true ∧
    leaves (.latchedRead 8 (pageAddr (pgFLT 0) + 0x040) 8) (on.setReg (pgFLT 0) 0x040 0xA5) (fun t => tblFind t.accesses 8 = some (0, 0xA5)) = true := by
  decide +kernel

theorem test_register_packets : leaves (.regWr 9 (pageAddr (pgFLT 0) + 0x040) 0xA5 3 false) on (fun t => t.fld (pgFLT 0) 0x040 0 8 = 0xA5 ∧
      t.rsps = [⟨9, 3, pageAddr (pgFLT 0) + 0x040, true, 0, 0⟩]) = true ∧
    leaves (.regRd 9 (pageAddr (pgFLT 0) + 0x040) 3 false) on (fun t => t.rsps = [⟨9, 3, pageAddr (pgFLT 0) + 0x040, false, 0, on.reg (pgFLT 0) 0x040⟩]) = true ∧
    leaves (.regRsp 9 3) { on with rsps := [⟨9, 3, 0, false, 0, 77⟩] } (fun t => t.rsps = [] ∧ t.accesses = [(9, 0, 77)]) = true ∧
    leaves (.regRsp 2 3) { on.setHdr (pgGLB 0) { on.hdr (pgGLB 0) with mask := 2 ^ 10 } with rsps := [⟨2, 3, 0x99, false, 1, 0⟩] } (fun t =>
      t.reg64 (pgGLB 2) 0x040 = 0x99 ∧ bitOf (t.hdr (pgGLB 0)).err 10) = true ∧
    leaves (.regAccessTimeout 9 0x40 false 0) on (fun t => tblFind t.accesses 9 = some (4, 0) ∧ t.time = 100 * usec) = true := by decide +kernel

/-! ### The matrix array -/

/-- A task with an entry number, an engine and a descriptor, and a fired MXA instruction of one row and one pass. -/
def tk (entry engine : Nat) (desc : List Nat) : Task := ⟨0, entry, engine, [], desc, 0, false, false⟩
def in0 : MInstr := ⟨tk 1 0 [], 0, 0, 0, 0, none⟩

/-- Site 0 ON with its MXA running and shaping its current, and an array state. -/
def mx (m : Mxa) : State := ((go on (pgMXA 0 0)).setReg (pgMXA 0 0) 0x040 2).setMxa 0 m

theorem test_row_ready : (mx { Mxa.init with instrs := [in0], level := 4 }).flag (pgMXA 0 0) 0x040 1 = true ∧
    ({ Mxa.init with instrs := [in0], level := 4 } : Mxa).cur.isSome = true ∧
    leaves (.rowReady 0) (mx { Mxa.init with instrs := [in0], level := 4 }) (fun t => (t.mxa 0).ready ∧ (t.mxa 0).level = 5 ∧ (t.mxa 0).ramp = none) = true ∧
    leaves (.rowReady 0) (mx { Mxa.init with instrs := [in0] }) (fun t => (t.mxa 0).level = 1 ∧ (t.mxa 0).ramp = some 0) = true := by decide +kernel

theorem test_shaping : leaves (.shapingLevelStep 0) (mx { Mxa.init with level := 3, ramp := some 0 }) (fun t => (t.mxa 0).level = 4) = true ∧
    leaves (.shapingLevelStep 0) (mx { Mxa.init with level := 1, gapSince := some 0 }) (fun t => (t.mxa 0).level = 0 ∧ (t.mxa 0).ramp = none) = true ∧
    leaves (.rampComplete 0) (mx { Mxa.init with level := 4, ramp := some 0 }) (fun t => (t.mxa 0).level = 5 ∧ (t.mxa 0).ramp = none) = true := by decide +kernel

/-- Stationary operands of instruction 1, pass 0, whose four groups are loaded. -/
def ops0 : MOps := ⟨1, 0, 0, 0, [31, 63, 95, 127], [], [], [], []⟩

theorem test_front_enter : leaves (.frontEnter 0) (mx { Mxa.init with fronts := [⟨1, 0, 1, 0⟩], ops := [ops0] })
      (fun t => (t.mxa 0).fronts.map (fun f => f.row) = [2]) = true ∧
    leaves (.frontEnter 0) (mx { Mxa.init with fronts := [⟨1, 0, 126, 0⟩], ops := [ops0] })
      (fun t => (t.mxa 0).fronts.map (fun f => f.row) = [127]) = true := by decide +kernel

theorem test_mxa_reset_effect : leaves (.mxaResetEffect 0) (((mx { Mxa.init with level := 5 }).setBlk (blkId tyMXA 0) ⟨true, false, true, true, none, false, false, 0⟩))
    (fun t => t.mxa 0 = Mxa.init ∧ t.reg (pgMXA 0 0) 0x040 = (regReset (regKey (pgMXA 0 0) 0x040)).toNat ∧ !(t.blk (blkId tyMXA 0)).resetPend) = true := by decide +kernel

theorem test_weight_group_target : ({ Mxa.init with instrs := [in0] } : Mxa).loadTarget = some (in0, 0) ∧ in0.task.warrEn = false := by decide +kernel

/-- A row of instruction 1 that may enter: key 0 bound for context 0, its metadata zero. -/
def mxRow : State := ((((go on (pgMXA 0 0)).setMxa 0 { Mxa.init with instrs := [in0], active := some (1, 0), ops := [ops0], ready := true, level := 5 }).spadFill 0 false).setKey
  0 0 ⟨[1, 2, 3, 4], true, 1⟩)

theorem test_row_issue : mxRow.mxaAdmits 0 0 = true ∧ (mxRow.mxa 0).cur = some in0 ∧ mxRow.resolveKey 0 0 0 = some [1, 2, 3, 4] ∧
    leaves (.rowIssue 0 [] none) mxRow (fun t => (t.mxa 0).rows.map (fun r => (r.entry, r.pass, r.row, r.keyIdx)) = [(1, 0, 0, 0)]) = true := by decide +kernel

/-- A row of the first of two chained passes, its outputs not drained. -/
def row0 : MRow := ⟨1, 0, 0, 0, 1, 0, [], [], false, false, 0, 0, [], [], [], [], [], 0⟩
def in2 : MInstr := ⟨tk 1 0 [2 ^ 20], 0, 0, 0, 0, none⟩

theorem test_output_drain : ({ Mxa.init with instrs := [in2], ops := [ops0], rows := [row0] } : Mxa).nextOut = some (row0, 128) ∧
    in2.task.lastOf 0 = false ∧ in2.task.cols = 128 ∧ in2.task.pos 0 = 0 ∧
    leaves (.outputDrain 0 false none []) (mx { Mxa.init with instrs := [in2], ops := [ops0], rows := [row0] }) (fun t =>
      tblGet (fun _ => (⟨0, false⟩ : PWord)) (t.mxa 0).chain 0 = ⟨(outputOf 0 row0 ops0 0 0).1, false⟩) = true := by decide +kernel

theorem test_output_held :
    let m : Mxa := { Mxa.init with instrs := [in0], ops := [ops0], rows := [row0], ready := true, level := 5, lastQ := 128 }
    let s := (mx m).setFacet 0 { facetReset 0 with running := true, cycles := 128 }
    m.nextOut = some (row0, 128) ∧ in0.task.lastOf 0 = true ∧ s.bubble 0 = false ∧
    leaves (.outputDrain 0 false none []) s (fun t => (t.mxa 0).rows.map (fun r => (r.held, r.outs.length)) = [([0], 1)] ∧
      t.reg (pgMXA 0 1) 0x060 = 1) = true ∧
    leaves (.outputDrain 0 false (some 0) []) (s.setMxa 0 { m with rows := [{ row0 with held := [0], outs := [[]] }] }) (fun t =>
      (t.mxa 0).rows.map (·.held) = [[0]] ∧ t.cyc 0 = 129) = true := by decide +kernel

theorem test_pass_verdict : leaves (.passVerdict 0) (mx { Mxa.init with instrs := [in0], passes := [⟨1, 0, some 0, none, 0, none, false⟩] })
      (fun t => (t.mxa 0).passes.map (fun p => p.verdict) = [some true]) = true ∧
    leaves (.passVerdict 0) (mx { Mxa.init with instrs := [in0], passes := [⟨1, 0, some 0, some ⟨0, 0, 0⟩, 0, none, false⟩] })
      (fun t => (t.mxa 0).replay = some ⟨1, 0, 0, false⟩) = true := by decide +kernel

theorem test_pass_complete : in0.task.sigs = [] ∧ leaves (.passComplete 0)
    (mx { Mxa.init with instrs := [in0], passes := [⟨1, 0, some 0, none, 1, some true, false⟩] })
    (fun t => (t.mxa 0).passes = [] ∧ (t.mxa 0).instrs = [] ∧ t.reg64 (pgMXA 0 1) 0x040 = 1) = true := by decide +kernel

/-! ### The sequencer -/

/-- Site 0 ON with its sequencer running a context 0 as given, and a halfword pair at address 0. -/
def sq (th : Thread) (w : Nat) : State := { (go on (pgSEQ 0 0)).setThread 0 0 th with imem := memSetWord [] 0 w }
def thr (regs : List (Nat × Word)) : Thread := ⟨.running, 0, regs, 0, .none, false, false⟩

theorem test_context_start_and_stop : (((go on (pgSEQ 0 0)).setFld (pgSEQ 0 0) 0x050 0 1 1).setReg (pgSEQ 0 0) 0x060 0x100).startable 0 0 = true ∧
    leaves (.seqCtxStart 0 1) (((go on (pgSEQ 0 0)).setFld (pgSEQ 0 0) 0x050 0 1 1).setReg (pgSEQ 0 0) 0x060 0x100)
      (fun t => (t.thread 0 0).st = .running ∧ (t.thread 0 0).pc = 0x100) = true ∧
    (sq (thr []) 0).busy 0 0 = false ∧ leaves (.seqCtxStop 0 1) (sq (thr []) 0) (fun t => (t.thread 0 0).st = .idle) = true ∧
    leaves (.stopIdle 0 0) (sq { thr [] with stopping := true } 0) (fun t => (t.thread 0 0).st = .idle ∧ !(t.thread 0 0).stopping) = true ∧
    ((sq (thr []) 0).unskip 0).nextTurn 0 = some 0 ∧ leaves (.halt 0 0) (sq (thr []) 0) (fun t => (t.thread 0 0).st = .halted ∧ (t.thread 0 0).pc = 4) = true := by
  decide +kernel

/-- add x3, x1, x2 with x1 = 5 and x2 = 7; and the all-zero halfword. -/
theorem test_seq_instruction : leaves (.seqInstruction 0 0 [] false false false) (sq (thr [(1, 5), (2, 7)]) 0x002081B3)
      (fun t => (t.thread 0 0).get 3 = 12 ∧ (t.thread 0 0).pc = 4 ∧ (t.thread 0 0).instret = 1) = true ∧
    leaves (.seqInstruction 0 0 [] false false false) (sq (thr []) 0) (fun t => (t.thread 0 0).st = .faulted) = true ∧
    leaves (.seqInstruction 0 0 [] true false false) (sq (thr [(1, 5)]) 0x002081B3) (fun t => (t.thread 0 0).st = .faulted ∧ (t.thread 0 0).get 1 = 5) = true ∧
    bitsOf 0x002081B3 0 7 = 0x33 ∧ aluOp 0 0 5 7 = some 12 := by decide +kernel

/-- It is context 0's turn, not context 1's, in the fixtures below. -/
theorem test_turn : ((sq (thr []) 0).unskip 0).nextTurn 0 = some 0 ∧ (sq (thr []) 0).copying 0 = false ∧
    leaves (.halt 0 1) (sq (thr []) 0) (fun t => t.tiles = (sq (thr []) 0).tiles) = true := by decide +kernel

/-- mul x3, x1, x2 wraps; div by zero gives all ones. -/
theorem test_seq_mul_div : leaves (.seqInstruction 0 0 [] false false false) (sq (thr [(1, 0x80000001), (2, 3)]) 0x022081B3)
      (fun t => (t.thread 0 0).get 3 = 0x80000003) = true ∧
    leaves (.seqInstruction 0 0 [] false false false) (sq (thr [(1, 5)]) 0x0220C1B3) (fun t => (t.thread 0 0).get 3 = 0xFFFFFFFF) = true := by decide +kernel

/-- Word 2 of the scratchpad holds 0x12345678, clean; x1 = 8, x2 = 0xCAFEBABE. -/
def ls : State := ((sq (thr [(1, 8), (2, 0xCAFEBABE)]) 0).spadFill 0 false).spadStore 0 2 ⟨0x12345678, false⟩

theorem test_load_store : leaves (.seqLoadStore 0 0 false 2 3 1 2 0 []) ls (fun t => (t.thread 0 0).get 3 = 0x12345678 ∧ (t.thread 0 0).pc = 4) = true ∧
    leaves (.seqLoadStore 0 0 true 2 3 1 2 (-8) []) ls (fun t => t.spadWord 0 0 = ⟨0xCAFEBABE, false⟩ ∧ t.spadWord 0 2 = ⟨0x12345678, false⟩) = true ∧
    leaves (.seqLoadStore 0 0 false 2 3 1 2 0 []) (ls.spadStore 0 2 ⟨1, true⟩) (fun t => (t.thread 0 0).st = .faulted) = true := by decide +kernel

/-- LH of the upper half, LBU, SH into the upper half, and a misaligned LW. -/
theorem test_load_store_widths : accessBytes false 1 = some 2 ∧ accessBytes false 4 = some 1 ∧ accessBytes true 1 = some 2 ∧
    leaves (.seqLoadStore 0 0 false 1 3 1 2 2 []) ls (fun t => (t.thread 0 0).get 3 = 0x1234) = true ∧
    leaves (.seqLoadStore 0 0 false 4 3 1 2 1 []) ls (fun t => (t.thread 0 0).get 3 = 0x56) = true ∧
    leaves (.seqLoadStore 0 0 true 1 3 1 2 2 []) ls (fun t => t.spadWord 0 2 = ⟨0xBABE5678, false⟩) = true ∧
    leaves (.seqLoadStore 0 0 false 2 3 1 2 2 []) ls (fun t => (t.thread 0 0).st = .faulted) = true := by decide +kernel

/-- Every LTN licensed; LTN 1 at site 1 in the map of site 0. -/
def lic (s : State) : State := (s.setFld (pgGLB 1) 0x048 1 2 3).setMap 0 ⟨true, 1, [0, 1], none, none⟩

theorem test_remote_instructions : (lic (sq (thr []) 0)).ltns = 1152 ∧ (lic (sq (thr []) 0)).siteOfLtn 0 1 = some 1 ∧
    ∀ e ∈ ([(.rlw 0 0 3 1, tRD), (.rsw 0 0 1 2, tWR), (.ramoAdd 0 0 3 1 2, tAMO), (.ramoSwap 0 0 3 1 2, tAMO), (.ramoMin 0 0 3 1 2, tAMO),
        (.ramoMax 0 0 3 1 2, tAMO), (.ramoMinu 0 0 3 1 2, tAMO), (.ramoMaxu 0 0 3 1 2, tAMO), (.rcas 0 0 3 1 2 4, tCAS)] : List (Instr × Nat)),
      leaves e.1 (lic (sq (thr [(1, 0x20_0000 + 7)]) 0)) (fun t => t.packets.map (fun p => (p.ty, p.dsite, p.dltn, p.addr, p.tag)) = [(e.2, 1, 1, 7, 128)]) = true ∧
      leaves e.1 (lic (sq (thr [(1, 0x20_0000 + 1572864)]) 0)) (fun t => t.packets = [] ∧ (t.thread 0 0).st = .faulted) = true := by decide +kernel

theorem test_task : (go on (pgSEQ 0 0)).winUsed 0 1 < winDepth 1 ∧ leaves (.task 0 0 3 1 2 false []) ((sq (thr [(2, 1)]) 0).spadFill 0 false)
    (fun t => (t.tile 0).copied.map (fun k => (k.task.ctx, k.task.entry, k.task.engine)) = [(0, 0, 1)] ∧ (t.tile 0).entryCtr = 1) = true := by decide +kernel

/-- A full window blocks the thread. -/
theorem test_task_full_window :
    let s := sq (thr [(2, 1)]) 0
    let u := s.setTile 0 { s.tile 0 with win := List.replicate (winDepth 1) ⟨0, 0, 1, [], [], 0, false, false⟩ }
    winDepth 1 ≤ u.winUsed 0 1 ∧ leaves (.task 0 0 3 1 2 false []) u (fun t => (t.thread 0 0).block = .window 1 ∧ (t.tile 0).entryCtr = 0) = true := by
  decide +kernel

/-- A task of the vector engine that passes its checks: EXP of one AF16 element at 64 into 128. -/
def vt (op : Nat) : Task := ⟨0, 9, 1, [0, 0, 0, 0, 0, 0, 1 * 2 ^ 12 + 10 * 2 ^ 16, 0],
  [op + 0xDDDD * 2 ^ 8, 1, 0, 0, 0, 0, 0, 0, 0, 64, 68, 72, 76, 128, 132, 0, 0, 0, 0, 0], 0, false, false⟩
/-- The copy of that task, all its words read, the last of them poisoned if `p`. -/
def cpy (k : Task) (p : Bool) : Copy :=
  let ws := (k.hdr ++ k.desc).map fun w => PWord.mk w false
  ⟨k, if p then ws.dropLast ++ [⟨0, true⟩] else ws, [], 0⟩
/-- Site 0 ON, its sequencer and vector engine running, the tile as given. -/
def tl (f : Tile → Tile) : State := let s := (go (go on (pgSEQ 0 0)) (pgVXE 0 0)).spadFill 0 false; s.setTile 0 (f (s.tile 0))

theorem test_window_entry : (cpy (vt 0x10) false).done = true ∧ (cpy (vt 0x10) false).made = vt 0x10 ∧ entryCheck (tl id) 0 (vt 0x10) = none ∧
    leaves (.taskWindowEntry 0) (tl fun t => { t with copied := [cpy (vt 0x10) false] }) (fun t => (t.tile 0).win = [vt 0x10] ∧ (t.tile 0).copied = []) = true ∧
    (entryCheck (tl id) 0 (cpy (vt 0x10) true).made).map (·.1) = some fDESC ∧
    leaves (.taskWindowEntry 0) (tl fun t => { t with copied := [cpy (vt 0x10) true] }) (fun t => (t.thread 0 0).st = .faulted) = true := by
  decide +kernel

theorem test_task_fire : (tl fun t => { t with win := [vt 0x10] }).candidate 0 1 = some (vt 0x10) ∧
    (tl fun t => { t with win := [vt 0x10] }).waitsOk 0 [] (vt 0x10) = true ∧
    leaves (.taskFire 0 2) (tl fun t => { t with win := [vt 0x10] }) (fun t => (t.tile 0).win = [] ∧ (t.tile 0).vxe = [⟨vt 0x10, false, true⟩]) = true := by
  decide +kernel

/-- Object 5 of site 0 bound for context 0 as identifier 6; x1 = 6, x2 the count. -/
def sy (o : SyncObj) (c : Word) : State := (sq (thr [(1, 6), (2, c)]) 0).setObj 0 5 { o with bound := true, vid := 6 }

theorem test_swait_ssig : (sy SyncObj.init 0).resolve 0 0 6 = some 5 ∧
    leaves (.swaitConsume 0 0 1 2) (sy { SyncObj.init with count := 3 } 3) (fun t => (t.obj 0 5).count = 0 ∧ (t.thread 0 0).pc = 4) = true ∧
    leaves (.swaitPeek 0 0 1 2) (sy { SyncObj.init with count := 3 } 3) (fun t => (t.obj 0 5).count = 3 ∧ (t.thread 0 0).pc = 4) = true ∧
    leaves (.swaitConsume 0 0 1 2) (sy { SyncObj.init with count := 2 } 3) (fun t => (t.thread 0 0).block = .swait 6 3 0 0 ∧ (t.obj 0 5).count = 2) = true ∧
    leaves (.ssig 0 0 1 2) (sy { SyncObj.init with count := 65280 } 255) (fun t => (t.obj 0 5).count = 65535) = true := by decide +kernel

theorem test_swait_barrier : barrierCountOk 0x8000 = true ∧
    leaves (.swaitBarrier 0 0 1 2) (sy { SyncObj.init with barrier := true } 0x8000) (fun t => (t.thread 0 0).pc = 4) = true := by decide +kernel

theorem test_keys : leaves (.ksBind 0 0x81) ((go on (pgSEQ 0 0)).setReg (pgSEQ 0 1) 0x040 8191) (fun t => (t.key 0 8191).bound ∧ (t.key 0 8191).mask = 0x81) = true ∧
    leaves (.ksUnbind 0) (((go on (pgSEQ 0 0)).setReg (pgSEQ 0 1) 0x040 8191).setKey 0 8191 ⟨[], true, 1⟩) (fun t => !(t.key 0 8191).bound) = true := by
  decide +kernel

theorem test_sync_records : on.ownerActive 0 127 = false ∧ on.ctxActive 0 7 = false ∧ on.resolve 0 7 8191 = none ∧
    leaves (.sobjBind 0 127 0x3FFFF) on (fun t => t.obj 0 127 = freshObj true true 7 8191) = true ∧
    leaves (.sobjVal 0 127 0xFFFF) on (fun t => (t.obj 0 127).count = 65535) = true ∧
    leaves (.sobjPart 0 127 3) (on.setObj 0 127 { SyncObj.init with barrier := true, arr0 := 1, rc := 0 }) (fun t => (t.obj 0 127).part = 3 ∧ (t.obj 0 127).arr0 = 0) = true ∧
    leaves (.synLookup 0 0x1FFFF) on (fun t => t.reg (pgSYN 0 0) 0x040 = 0xFFFF) = true := by decide +kernel

theorem test_tel_bank_swap : leaves .telBankSwap { on with telActive := [(3, 4)] } (fun t => t.telFrozen = [(3, 4)] ∧ t.telActive = [] ∧ t.time = msec) = true := by
  decide +kernel

/-! ### The vector engine -/

/-- Site 0 with a vector task issuing: the words at 64, 68, 72 and 76 hold AF16 codes of 1, 2, 3 and 0.5, key 0 bound. -/
def vx (k : Task) : State := (((((tl fun t => { t with vxe := [⟨k, false, true⟩] }).spadStore 0 16 ⟨0x3F80, false⟩).spadStore 0 17 ⟨0x4000, false⟩).spadStore
  0 18 ⟨0x4040, false⟩).spadStore 0 19 ⟨0x3F00, true⟩).setKey 0 0 ⟨[1, 2, 3, 4], true, 1⟩

theorem test_vxe_add : (vt 0x01).n = 1 ∧ (vt 0x01).vcount = 1 ∧ (vt 0x01).fa = 0xD ∧ (vt 0x01).off 4 = 128 ∧
    leaves (.vxAdd 0 []) (vx (vt 0x01)) (fun t => t.spadWord 0 32 = ⟨(afAdd 0x3F80 0x4000).1 % 2 ^ 16, false⟩ ∧ (t.tile 0).vxe = [⟨vt 0x01, true, true⟩]) = true := by
  decide +kernel

theorem test_vxe_sel : leaves (.vxSel 0 []) (vx (vt 0x07)) (fun t => t.spadWord 0 32 = ⟨selOf [0x3F80, 0x4000, 0x4040, 0x3F00] % 2 ^ 16, true⟩) = true := by decide +kernel

theorem test_vxe_exp : leaves (.vxExp 0 []) (vx (vt 0x10)) (fun t => t.spadWord 0 32 = ⟨(special expNum 0x3F80).1 % 2 ^ 16, false⟩) = true := by decide +kernel

theorem test_vxe_reductions : (vx (vt 0x20)).resolveKey 0 0 (vt 0x20).vkey = some [1, 2, 3, 4] ∧ (vt 0x20).vinit = false ∧ (vt 0x20).rmeta = false ∧
    (vt 0x20).fo = 0xD ∧ leaves (.maxr 0 []) (vx (vt 0x22)) (fun t => t.spadWord 0 32 = ⟨maxOf [0x3F80] % 2 ^ 16, false⟩) = true := by decide +kernel

theorem test_vxe_vector_hypotheses : (vt 0x30).we = false ∧ (vt 0x30).off 5 % 4 = 0 ∧ (vt 0x30).off 5 ≠ (vt 0x30).off 4 ∧ (vt 0x30).vcount = 1 ∧
    (vt 0x38).op = 0x38 ∧ (vt 0x39).op = 0x39 ∧ (vt 0x31).op = 0x31 ∧ (vt 0x21).op = 0x21 ∧ (vt 0x32).op = 0x32 ∧
    ((vx (vt 0x38)).tile 0).vxe.getLast? = some ⟨vt 0x38, false, true⟩ ∧ ((vx (vt 0x38)).hdr (pgSPD 0 0)).inj = 0 := by decide +kernel

theorem test_vxe_sample_key : (vx (vt 0x3C)).resolveKey 0 0 (vt 0x3C).vkey = some [1, 2, 3, 4] ∧ (vt 0x3C).off 5 ≠ (vt 0x3C).off 4 ∧
    (((vx (vt 0x3C)).setKey 0 4096 ⟨[5, 6, 7, 8], true, 1⟩).key 0 (4096 + (vt 0x3C).vkey)).bound = true := by decide +kernel

theorem test_vxe_complete : leaves (.vxeTaskComplete 0) (tl fun t => { t with vxe := [⟨vt 0x3C, true, true⟩] })
    (fun t => (t.tile 0).vxe = [] ∧ t.reg64 (pgVXE 0 1) 0x040 = 1 ∧ t.reg64 (pgVXE 0 1) 0x050 = 1) = true := by decide +kernel

/-! ### The DMA engines -/

theorem test_split_rows : (splitRow 256 0 .inter .own 300 200 60 300).map (fun q => (q.saddr, q.daddr, q.len)) =
    [(200, 60, 56), (256, 116, 140), (396, 256, 104)] := by decide +kernel

/-- A fired task of DMX_0 of site 0: 64 bytes from `src`, spaces 0 (own) unless the last word says otherwise. -/
def dt (etype : Nat) (desc : List Nat) : Task := ⟨0, 7, 2, [0, 0, 0, 0, 0, 0, etype * 2 ^ 12], desc, 0, false, false⟩
def xf (t : Task) : DXfer := ⟨t, false, [], .running, []⟩
def dm (d : Dmx) : State := ((lic (go on (pgDMX 0 0 0))).spadFill 0 false).setDmx 0 0 d

theorem test_dmx_transfer : (dm ⟨[xf (dt 2 [0, 0, 4096, 0, 64])], []⟩).dmx 0 0 |>.unsplit false |>.isSome := by decide +kernel

theorem test_dmx_transfer_splits : leaves (.dmxTransfer 0 0) (dm ⟨[xf (dt 2 [0, 0, 4096, 0, 64])], []⟩)
    (fun t => (t.dmx 0 0).xfers.map (fun y => (y.split, y.reqs.map (·.len))) = [(true, [64])]) = true := by decide +kernel

/-- An attention-page task of one page, its reference at word 0, one section of 256 bytes into 8192. -/
def att : Task := dt 3 [0, 0, 0, 256, 8192]

theorem test_attention_page : pageOk interBase = true ∧ pageRefs [⟨0, false⟩, ⟨0x7_1000, false⟩] = [(interBase, 7)] ∧
    leaves (.attentionPage 0 0 []) ((dm ⟨[xf att], []⟩).spadStore 0 1 ⟨0x7_1000, false⟩) (fun t =>
      (t.dmx 0 0).xfers.map (fun y => (y.split, y.reqs.map (fun q => (q.gen, q.saddr, q.len)))) =
        [(true, [(true, interBase, 4), (false, interBase, 256)])]) = true := by decide +kernel

/-- A split transfer with one request, from the scratchpad of LTN 1 or from channel 0 of bulk memory. -/
def rq (sp : Space) (a : Nat) : DReq := ⟨0, false, sp, a, .own, 4096, 64⟩
def xq (sp : Space) (a : Nat) : DXfer := ⟨dt 2 [], true, [rq sp a], .running, []⟩

theorem test_dmx_issue : (xq .remote (2 ^ 32 + 16)).allowed (rq .remote (2 ^ 32 + 16)) = true ∧ (Dmx.freeTag ⟨[], []⟩) = some 0 ∧
    leaves (.dmxRequestIssue 0 0 7 0 []) (dm ⟨[xq .remote (2 ^ 32 + 16)], []⟩) (fun t =>
      t.packets.map (fun p => (p.ty, p.dsite, p.dltn, p.tag, p.addr)) = [(tRD, 1, 1, 0, 4)] ∧ (t.dmx 0 0).tags.map (fun g => (g.tag, g.site)) = [(0, 1)]) = true := by
  decide +kernel

theorem test_dmx_quota : leaves (.dmxRequestIssue 0 0 7 0 [])
    { dm ⟨[xq .inter interBase], (List.range 16).map fun i => ⟨i, 8, 0, true, rq .inter interBase, 0, [5], false, [], 0, 0⟩⟩ with chanMaps := [(0, [5])] }
    (fun t => t.packets = [] ∧ (t.dmx 0 0).tags.length = 16) = true ∧
    ({ dm ⟨[], (List.range 16).map fun i => ⟨i, 8, 0, true, rq .inter interBase, 0, [5], false, [], 0, 0⟩⟩ with chanMaps := [(0, [5])] } : State).mcTags 0 5 = 16 := by
  decide +kernel

theorem test_dmx_complete : (Dmx.drained ⟨[{ xf (dt 2 []) with split := true }], []⟩ { xf (dt 2 []) with split := true }) = true ∧
    leaves (.dmxTransferComplete 0 0 []) (dm ⟨[{ xf (dt 2 [0, 0, 0, 0, 0, 64, 0, 0, 0, 0, 0, 0, 8]) with split := true }], []⟩) (fun t =>
      (t.dmx 0 0).xfers = [] ∧ t.spadWord 0 2 = ⟨0, false⟩ ∧ t.reg64 (pgDMX 0 0 1) 0x040 = 1) = true := by decide +kernel

theorem test_dmx_timeouts : leaves (.dmxTagTimeout 0 0 63) (dm ⟨[xq .remote 0], [⟨63, 7, 0, true, rq .remote 0, 0, [], false, [], 0, 1⟩]⟩)
      (fun t => (t.thread 0 0).st = .faulted ∧ (t.dmx 0 0).tags = [] ∧ (t.dmx 0 0).xfers = []) = true ∧
    leaves (.genReadTimeout 0 0 7) (dm ⟨[{ xq .inter interBase with gens := [⟨0, 0, 0, 1, false, true, false⟩] }], []⟩)
      (fun t => (t.thread 0 0).st = .faulted ∧ (t.dmx 0 0).xfers = []) = true := by decide +kernel

/-! ### Scratchpad banks and remote accesses -/

/-- Bank 3 of site 0 as given, word 3 holding 10, clean. -/
def bk (k : Bank) : State := (((go on (pgSPD 0 0)).spadFill 0 false).spadStore 0 3 ⟨10, false⟩).setBank 0 3 k
def acc (k : RKind) (v b : Nat) : BankAcc := ⟨1, true, 2, k, 3, ⟨v, false⟩, b, 0, false⟩

theorem test_bank_accesses : ({ Bank.init with queue := [acc .write 5 0] } : Bank).next = some (acc .write 5 0) ∧
    leaves (.remoteAccessPerform 0 3 .clean) (bk { Bank.init with queue := [acc .write 5 0] }) (fun t => t.spadWord 0 3 = ⟨5, false⟩ ∧ (t.bank 0 3).queue = []) = true ∧
    leaves (.remoteAccessPerform 0 3 .clean) (bk { Bank.init with queue := [acc .read 0 0] }) (fun t => (t.bank 0 3).queue = []) = true ∧
    leaves (.remoteAccessPerform 0 3 .clean) (bk { Bank.init with queue := [acc .cas 10 7] }) (fun t => (t.bank 0 3).atomic = some (acc .cas 10 7, ⟨10, false⟩)) = true ∧
    leaves (.atomicWrite 0 3) (bk { Bank.init with atomic := some (acc .cas 10 7, ⟨10, false⟩) }) (fun t => t.spadWord 0 3 = ⟨7, false⟩ ∧
      (t.bank 0 3).cache.length = 1 ∧ t.reg64 (pgSPD 0 1) 0x050 = 1) = true := by decide +kernel

/-- Table 07.4 at the boundary of the sign. -/
theorem test_atomics : atomicNew (.amo 0) 0xFFFFFFFF 2 0 = 1 ∧ atomicNew (.amo 2) 0x80000000 1 0 = 0x80000000 ∧ atomicNew (.amo 3) 0x80000000 1 0 = 1 ∧
    atomicNew (.amo 4) 0x80000000 1 0 = 1 ∧ atomicNew (.amo 5) 0x80000000 1 0 = 0x80000000 ∧ atomicNew .cas 4 4 9 = 9 ∧ atomicNew .cas 4 5 9 = 4 := by decide +kernel

theorem test_bank_upkeep : leaves (.rcRel 0 1 true 2) (bk { Bank.init with cache := [⟨1, true, 2, ⟨0, false⟩, 0⟩] }) (fun t => (t.bank 0 3).cache = []) = true ∧
    leaves (.rcEntryTimeout 0 3) (bk { Bank.init with cache := [⟨1, true, 2, ⟨0, false⟩, 0⟩] }) (fun t => (t.bank 0 3).cache = []) = true ∧
    leaves (.bankStarvation 0 3) (bk { Bank.init with queue := [acc .read 0 0] }) (fun t => t.reg (pgSPD 0 0) 0x054 = 3 + 2 ^ 7 + 2 * 2 ^ 18 + 2 ^ 26 ∧
      (t.bank 0 3).queue.map (·.starved) = [true]) = true ∧
    leaves (.spdEccWriteback 0 3) (bk { Bank.init with writeBack := [3] }) (fun t => (t.bank 0 3).writeBack = []) = true ∧
    leaves (.scrubRead 0 3 .clean) ((bk { Bank.init with scrubRow := 12287 }).setReg (pgSPD 0 0) 0x040 1) (fun t => (t.bank 0 3).scrubRow = 0) = true := by decide +kernel

theorem test_initialisation : leaves (.init 0) on (fun t => (t.spd 0).initAt = some 0 ∧ t.fld (pgSPD 0 0) 0x048 0 2 % 2 = 1) = true ∧
    leaves (.spdInitComplete 0) (on.setSpd 0 { on.spd 0 with initAt := some 0 }) (fun t => t.spadWord 0 1572863 = ⟨0, false⟩ ∧ t.fld (pgSPD 0 0) 0x048 0 2 = 2) = true := by
  decide +kernel

theorem test_remote_requests : (bk Bank.init).requestLoss 0 0x7FF 3 1 = none ∧ (bk Bank.init).requestLoss 0 0x7FF 1572864 1 = some 3 ∧
    leaves (.rdReq 0 1 true 2 0x7FF 3 1) (bk Bank.init) (fun t => (t.bank 0 3).queue = [acc .read 0 0]) = true ∧
    leaves (.wrReq 0 1 true 2 0x7FF 3 [⟨5, false⟩]) (bk Bank.init) (fun t => (t.bank 0 3).queue = [acc .write 5 0]) = true ∧
    leaves (.amoReq 0 1 true 2 0x7FF 3 5 6) (bk Bank.init) (fun t => (t.bank 0 3).queue = [acc (.amo 5) 6 0]) = true ∧
    leaves (.casReq 0 1 true 2 0x7FF 3 4 9) (bk Bank.init) (fun t => (t.bank 0 3).queue = [acc .cas 4 9]) = true ∧
    leaves (.rdReq 0 1 true 2 0x7FF 1572864 1) (bk Bank.init) (fun t => t.packets.map (fun p => (p.ty, p.cause)) = [(tLOSS, 3)]) = true := by decide +kernel

/-- Context 0 of site 0 waits for its remote request to LTN 1 with destination register 3. -/
def rem (k : RKind) : State :=
  let s := lic (sq { thr [] with block := .remote 128 3 } 0)
  s.setTile 0 { s.tile 0 with rem := [⟨128, 0, true, k, 1, 7, 1, [], 0, 0, 0, some 1⟩] }

theorem test_remote_responses : leaves (.rdRsp 0 0 true 128 [⟨77, false⟩] []) (rem .read) (fun t => (t.thread 0 0).get 3 = 77 ∧ (t.thread 0 0).pc = 4) = true ∧
    leaves (.wrAck 0 0 true 128) (let s := rem .write; s.setThread 0 0 { s.thread 0 0 with block := .remote 128 0 }) (fun t => (t.thread 0 0).pc = 4) = true ∧
    leaves (.amoRsp 0 0 true 128 ⟨77, false⟩) (rem (.amo 0)) (fun t => (t.thread 0 0).get 3 = 77 ∧ t.packets.map (·.ty) = [tRCREL]) = true ∧
    leaves (.loss 0 0 true 128 2 []) (rem .read) (fun t => t.packets.map (fun p => (p.ty, p.dsite, p.addr)) = [(tRD, 1, 7)]) = true ∧
    leaves (.loss 0 0 true 128 3 []) (rem .read) (fun t => (t.thread 0 0).st = .faulted) = true ∧
    leaves (.remoteRequestTimeout 0 128) (rem .read) (fun t => (t.thread 0 0).st = .faulted) = true := by decide +kernel

/-! ### The network -/

/-- Sixteen words, and a transfer of route or slot `r` holding them. -/
def w16 : List PWord := (List.range 16).map fun i => ⟨i, false⟩
def xr (r : Nat) : Xfer := ⟨1, 0, 0, r, w16, false, 0⟩
/-- The router of site 0 runs; output `o` has one order entry, of route 0, which takes the tile's slots to `o`, RX slot 9, RID 8. -/
def nt (o : Nat) : State := { (go on (pgRTR 0 0)).setBuf 0 4 [xr 0] with
  rtrTbl := [(tblKey 0 2 0, [1 + o * 4 + 9 * 2 ^ 5 + 8 * 2 ^ 15, 4, 0, 0]), (tblKey 0 (3 + o) 0, [1, 0, 0, 0])] }

theorem test_transfer_hop : (skipOpen 2050 (nt 1) 0 1 ((nt 1).orderPos 0 1)).isSome = true ∧ (nt 1).headOf 0 4 0 = some (xr 0) ∧
    leaves (.transferHop 0 1 []) (nt 1) (fun t => t.buf 1 3 = [{ xr 0 with rid := 8 }] ∧ t.buf 0 4 = []) = true ∧
    leaves (.transferHop 0 4 []) (nt 4) (fun t => t.buf 0 5 = [{ xr 0 with rid := 9 }] ∧ t.buf 0 4 = []) = true := by decide +kernel

/-- The router of site 2 runs; its north port is an optical half. -/
def edge : State := { (go on (pgRTR 2 0)).setBuf 2 4 [xr 0] with rtrTbl := [(tblKey 2 2 0, [1 + 9 * 2 ^ 5, 4, 0, 0]), (tblKey 2 3 0, [1, 0, 0, 0])] }

theorem test_optical_hop : attachment 2 0 = .optical ∧ (skipOpen 2050 edge 2 0 (edge.orderPos 2 0)).isSome = true := by decide +kernel

/-- Transmit slot 1023 of site 0 armed by identifier 6, from address 0, under RID 8. -/
def tx (done : Nat) : State := { ((go on (pgRTR 0 0)).spadFill 0 false).setObj 0 5 { SyncObj.init with bound := true, vid := 6, count := 2 } with
  rtrTbl := [(tblKey 0 0 1023, [3 + 6 * 2 ^ 5 + 6 * 2 ^ 18 + done * 2 ^ 31, 0, 0, 8 * 2 ^ 20])] }

/-- The same where nothing is bound to identifier 6. -/
def tx0 (done : Nat) : State := (tx done).setObj 0 5 SyncObj.init

theorem test_tx_slot : leaves (.txSlotSend 0 1023 .clean) (tx 0) (fun t => (t.obj 0 5).count = 1 ∧ (t.buf 0 4).map (fun y => (y.rid, y.words.length)) = [(8, 16)] ∧
      t.slotK 0 0 1023 = 1) = true ∧ (tx0 0).slotOpen 0 1023 = true ∧ (tx0 0).slotLost 0 1023 = some 6 ∧
    leaves (.txSlotSend 0 1023 .clean) (tx 1) (fun t => (t.obj 0 5).count = 2 ∧ (t.buf 0 4).length = 1 ∧ t.freeCtr = 1) = true := by decide +kernel

/-- A transfer stands at the receive agent of site 0, whose slot 9 takes it to address 64. -/
def rx (e : Nat) : State := { ((on.spadFill 0 false).setBuf 0 5 [xr 9]).setObj 0 5 { SyncObj.init with bound := true, vid := 6 } with
  rtrTbl := [(tblKey 0 1 9, [e + 6 * 2 ^ 4 + 2 * 2 ^ 17, 64, 0, 0])] }

theorem test_rx_delivery : leaves (.rxDelivery 0) (rx 1) (fun t => t.spadWord 0 31 = ⟨15, false⟩ ∧ (t.obj 0 5).count = 2 ∧ t.buf 0 5 = [] ∧ t.slotK 0 1 9 = 1) = true ∧
    leaves (.rxDelivery 0) { rx 1 with rtrTbl := [(tblKey 0 1 9, [1 + 6 * 2 ^ 4 + 2 * 2 ^ 17, 64, 0, 2 ^ 23 + 256])] } (fun t =>
      t.spadWord 0 31 = ⟨15, false⟩ ∧ t.spadWord 0 64 = (xr 9).hdrRecord.headD ⟨0, false⟩) = true ∧
    leaves (.rxDelivery 0) (rx 0) (fun t => bitOf (t.hdr (pgRTR 0 0)).err 11 ∧ t.spadWord 0 31 = ⟨0, false⟩) = true := by decide +kernel

/-- A memory data packet has waited at output 1 of site 0 since cycle 0. -/
def dpk : State := { go on (pgRTR 0 0) with packets := [⟨tDATA, 0, 9, 1, 0x7FF, 0, 0, 0, true, 2 ^ 51, w16, 4, 0⟩] }

theorem test_router_stall : dpk.memSince 0 1 = some 0 ∧ dpk.routeAt 0 1 = none ∧
    leaves (.routerStall 0 1) dpk (fun t => bitOf (t.hdr (pgRTR 0 0)).err 10 ∧ t.reg (pgRTR 0 0) 0x04C = 1 + 0x1FF * 2 ^ 13 + 2 ^ 22) = true ∧
    leaves (.routerStall 0 1) (nt 1) (fun t => bitOf (t.hdr (pgRTR 0 0)).err 10 ∧ t.reg (pgRTR 0 0) 0x04C % 8 = 1) = true := by decide +kernel

/-- Route 0 of site 0 adds the transfers of ports 0 and the tile's slots; its output has one order entry. -/
def ac : State := ({ ((go on (pgRTR 0 0)).setBuf 0 4 [xr 0]).setBuf 0 0 [xr 0] with
  rtrTbl := [(tblKey 0 2 0, [3 + 1 * 4, 0 + 4 * 8 + 2 ^ 12, 0, 0]), (tblKey 0 4 0, [1, 0, 0, 0])] } : State).setKey 0 0 ⟨[1, 2, 3, 4], true, 1⟩

theorem test_accord_add : (routeOps (ac.entry 0 2 0)).map (fun r => ac.headOf 0 r 0) = [some (xr 0), some (xr 0)] ∧ ac.resolveKey 0 0 0 = some [1, 2, 3, 4] ∧
    leaves (.accordAdd 0 0) ac (fun t => (t.buf 0 7).length = 1 ∧ t.buf 0 0 = [] ∧ t.buf 0 4 = []) = true := by decide +kernel

theorem test_accord_key : ({ ac with keys := [] } : State).resolveKey 0 0 0 = none := by decide +kernel

theorem test_router_tables : leaves (.wireSteer 0 3) (on.setLink 0 3 { Link.init with steer := [9] }) (fun t => t.fld (pgRTR 0 2) 0x070 8 4 = 1 ∧
      t.reg (pgRTR 0 2) 0x074 = 9 ∧ (t.link 0 3).retired = [9]) = true ∧
    on.tblSel 0 = some 0 ∧ leaves (.tblWrite 0) ((on.setReg (pgRTR 0 3) 0x044 1023).setReg (pgRTR 0 3) 0x054 7) (fun t => t.entry 0 0 1023 = [0, 0, 0, 7]) = true ∧
    leaves (.tblWrite 0) (go on (pgRTR 0 0)) (fun t => (t.hdr (pgRTR 0 3)).wlock) = true ∧
    leaves (.tblRead 0) { on with rtrTbl := [(tblKey 0 0 0, [1, 2, 3, 4])] } (fun t => t.reg (pgRTR 0 3) 0x054 = 4) = true ∧
    leaves (.mapLookup 0 0xFFFF) on (fun t => t.reg (pgRTR 0 1) 0x04C = 0x7FF) = true := by decide +kernel

/-- A read request from site 0, at site 0, for a site. -/
def pk (d dltn : Nat) : Packet := ⟨tRD, 0, 4, d, dltn, 0, 0, 0, true, 0, [], 4, 0⟩

theorem test_routed_hop_errors : ({ on with packets := [pk 1 0x7FF] } : State).served4 0 (pk 1 0x7FF) 0 = true ∧
    leaves (.routedHop 0 0 .hchk) { on with packets := [pk 1 0x7FF] } (fun t => t.packets = [] ∧ bitOf (t.hdr (pgRTR 1 0)).err 13) = true ∧
    leaves (.routedHop 0 0 .crc) { on with packets := [pk 1 0x7FF] } (fun t => t.packets.map (fun p => (p.ty, p.cause, p.dsite, p.at_)) = [(tLOSS, 1, 0, 1)]) = true := by
  decide +kernel

theorem test_routed_hop : leaves (.routedHop 0 0 .intact) { on with packets := [pk 1 0x7FF] } (fun t => t.packets.map (fun p => (p.at_, p.inPort)) = [(1, 3)]) = true ∧
    leaves (.routedHop 0 0 .intact) { on with packets := [pk 0 0x7FF] } (fun t => t.packets.map (fun p => (p.at_, p.inPort)) = [(0, 5)]) = true ∧
    leaves (.routedHop 0 0 .intact) { on with packets := [pk 0 4] } (fun t => t.packets.map (fun p => (p.ty, p.cause, p.dsite)) = [(tLOSS, 2, 0)]) = true := by decide +kernel

/-- Corner 0 in service; a multicast to the sites 0 and 1. -/
theorem test_mcast : on.mcastCorner 0x01000000 = none ∧ leaves (.mcast 0x01000000 0x30 [7] []) on (fun t => t.delivered = []) = true ∧ (on.setFld pgSVC 0x048 10 1 1).liveCorners = [0] ∧
    leaves (.mcast 0x01000000 0x30 [7] []) (on.setFld pgSVC 0x048 10 1 1) (fun t => t.delivered = (mcastReach ((on.setFld pgSVC 0x048 10 1 1).branch []) 0
      0x01000000).1.map (fun x => (x, 0x30, [7])) ∧ t.delivered.length = 2) = true := by decide +kernel

theorem test_routing : nextPort 0 1295 = some 1 ∧ nextPort 35 1295 = some 2 ∧ nextPort 1295 1295 = none ∧ neighbour 35 1 = none := by decide +kernel

theorem test_map_stage : leaves (.mapStage 0 1 [] 0) on (fun t => t.reg (pgRTR 0 1) 0x044 % 2 = 1 ∧ t.reg (pgRTR 0 1) 0x048 = 1 ∧ (t.map 0).staged.isSome) = true ∧
    leaves (.mapVerdict 0) { on with packets := [⟨tVERDICT, 0, 5, 0, 0x7FF, 0, 0, 0, true, 5, [⟨2, false⟩], 4, 0⟩] } (fun t => t.verdicts = [(0, 5, 2)]) = true ∧
    leaves (.mapCommit 0 5 0) (on.setMap 0 ⟨true, 4, [], some (5, [], 0), none⟩) (fun t => (t.map 0).commit = some 0) = true ∧
    leaves (.mapCommit 0 6 0) (on.setMap 0 ⟨true, 4, [], some (5, [], 0), none⟩) (fun t => bitOf (t.hdr (pgRTR 0 0)).err 15) = true ∧
    leaves (.mapSwitch 0) (on.setMap 0 ⟨true, 4, [], some (5, [3], 0), some 16⟩) (fun t => t.map 0 = ⟨true, 5, [3], none, none⟩ ∧ t.time = 16) = true := by decide +kernel

/-! ### Bulk memory -/

theorem test_views : lchOf interBase = (0, 0) ∧ (lchOf (interEnd - 1)).1 < 376 ∧ interOf (lchOf (interEnd - 1)).1 (lchOf (interEnd - 1)).2 = interEnd - 1 ∧
    lchOf (directBase + 375 * 2 ^ 33 + 9) = (375, 9) := by decide +kernel

/-- Subchannel 5 serves channel 0 in the map of site 0. -/
def mm (m : Mcc) : State := { (((go on (pgMCC 5)).setMcSt 5 stACTIVE).setMcLch 5 0).setMcc 5 m with chanMaps := [(0, List.replicate 376 5)] }
def mq (d : Option (List PWord)) (left : List Nat) : MemReq := ⟨0, true, 3, 32, 8, d, 0, 0, left, [], 0⟩

/-- A MEM_REQ for subchannel 5 and a channel stands at its site. -/
def arr (lch : Nat) : State := { mm Mcc.init with packets := [⟨tMEM, 72, 5, 72, 0x7FF, 0, 3, 0, true, memAddr 32 5 lch 8, [], 4, 0⟩] }

theorem test_mem_req : (mm Mcc.init).mcOf 0 0 = 5 ∧ leaves (.memReq 0 0 true 3 32 0 8) (mm Mcc.init) (fun t =>
      t.packets = [⟨tMEM, 0, 4, 72, 0x7FF, 0, 3, 0, true, memAddr 32 5 0 8, [], 4, 0⟩]) = true ∧
    leaves (.memReq 72 0 true 3 32 0 8) (arr 0) (fun t => (t.mcc 5).queue.map (fun q => (q.offset, q.words, q.seq)) = [(32, 8, 0)] ∧
      (t.mcc 5).arrivals = 1 ∧ t.packets = []) = true ∧
    leaves (.memReq 72 0 true 3 32 0 8) (arr 1) (fun t => t.packets.map (fun p => (p.ty, p.cause, p.words)) =
      [(tLOSS, 2, [⟨updateWord 1 5 0x1FF, false⟩])] ∧ (t.mcc 5).queue = []) = true ∧
    leaves (.memReq 0 0 true 3 32 0 8) on (fun t => t.packets.map (fun p => (p.ty, p.cause)) = [(tLOSS, 3)]) = true ∧
    leaves (.mccAdmit 5) (mm { Mcc.init with queue := [mq none []] }) (fun t => (t.mcc 5).queue = [] ∧ (t.mcc 5).admitted.map (·.left) = [[1]]) = true ∧
    leaves (.channelMapUpdate 0 375 5 9) (mm Mcc.init) (fun t => t.mcOf 0 375 = 9 ∧ t.mcOf 0 374 = 5) = true ∧
    leaves (.channelMapUpdate 0 375 4 9) (mm Mcc.init) (fun t => t.mcOf 0 375 = 5) = true := by decide +kernel

theorem test_data_packet_moves : leaves (.memoryDataPacket 0 0 [] []) { go on (pgRTR 0 0) with packets := [⟨tDATA, 0, 9, 1, 0x7FF, 0, 0, 0, true, 2 ^ 51, w16, 4, 0⟩] }
      (fun t => t.packets.map (fun p => (p.at_, p.inPort)) = [(1, 12)]) = true ∧
    leaves (.memoryDataPacket 0 0 [] []) { go (dm ⟨[⟨dt 2 [], true, [], .running, []⟩], [⟨3, 7, 0, true, rq .inter interBase, 0, [5], false, [], 0, 0⟩]⟩) (pgRTR 0 0) with
      packets := [⟨tDATA, 0, 12, 0, 0x7FF, 0, 3, 0, true, 2 ^ 51, w16, 4, 0⟩] }
      (fun t => t.spadWord 0 1039 = ⟨15, false⟩ ∧ (t.dmx 0 0).tags = [] ∧ t.packets = []) = true := by decide +kernel

theorem test_mcc_burst : ({ Mcc.init with admitted := [mq (some (w16.take 8)) [1]] } : Mcc).blocked (mq (some (w16.take 8)) [1]) 1 = false ∧
    leaves (.mccBurst 5 0 .clean) (mm { Mcc.init with admitted := [mq (some (w16.take 8)) [1]] }) (fun t =>
      memWord t.dram (dramKey 5 60) = 7 ∧ t.burstClean 5 1 ∧ !t.burstClean 5 0) = true ∧
    (mm { Mcc.init with admitted := [mq none [1]] }).requesterSite (siteOfMc 5) 0 true = some 0 := by decide +kernel

theorem test_hot_and_scrub : leaves (.hotChannel 5) (mm { Mcc.init with hotSince := some 0 }) (fun t => (t.mcc 5).hotDone ∧ bitOf (t.hdr (pgMCC 5)).err 13) = true ∧
    leaves (.patrolScrub 5 .clean) ((mm { Mcc.init with scrub := 2 ^ 28 - 1 }).setReg (pgMCC 5) 0x040 1) (fun t => (t.mcc 5).scrub = 0) = true := by decide +kernel

theorem test_training : leaves (.trainingComplete 0 true 0x20 0x40 0x5 0) ((go State.reset (pgMPH 0)).setReg (pgMPH 0) 0x040 1) (fun t =>
    t.mcSt 5 = stSPARE ∧ t.mcSt 6 = stSPARE ∧ t.mcSt 7 = stDISABLED ∧ t.reg (pgMPH 0) 0x04C = 5 ∧ t.flag (pgMPH 0) 0x044 0) = true := by decide +kernel

theorem test_retrain : leaves (.retrain 0 0x20) (mm Mcc.init) (fun t => t.retraining 5 ∧ bitOf (t.hdr (pgMPH 0)).err 9) = true ∧
    leaves (.retrainComplete 5 true) ((mm { Mcc.init with corr := [1] }).setFld (pgMCC 5) 0x044 5 1 1) (fun t => !t.retraining 5 ∧ (t.mcc 5).corr = [] ∧
      t.reg64 (pgMPH 0) 0x050 = 1) = true := by decide +kernel

/-- Subchannel 9 is a spare of another package. -/
def sp9 (m : Mcc) : State := (mm m).setMcSt 9 stSPARE

theorem test_retirement : (sp9 Mcc.init).chooseSpare 5 = some 9 ∧ leaves (.retire 5) (sp9 Mcc.init) (fun t => t.retireQ = [5]) = true ∧
    leaves (.retire 5) on (fun t => t.mcSt 5 = stRETIRED) = true ∧
    leaves .retirementStart { sp9 Mcc.init with retireQ := [5] } (fun t => t.mcSt 5 = stSRC ∧ t.mcSt 9 = stDST ∧ t.mcPartner 9 = 5 ∧ t.retireQ = []) = true := by decide +kernel

/-- Subchannel 5 copies to subchannel 9 since device time 0; its byte 3 holds 0xAA. -/
def cp : State := { (((mm { Mcc.init with copyAt := some 0 }).setMcSt 5 stSRC).setMcPartner 5 9).setMcSt 9 stDST with
  dram := memSetByte [] (dramKey 5 3) 0xAA, dramClean := [(burstKey 5 0, true)] }

theorem test_copy : leaves (.copyComplete 5 [] []) cp (fun t => t.mcSt 5 = stFORWARD ∧ t.mcSt 9 = stACTIVE ∧ memByte t.dram (dramKey 9 3) = 0xAA ∧ t.burstClean 9 0) = true ∧
    leaves (.retire 9) (cp.setMcPartner 9 5) (fun t => t.mcSt 9 = stRETIRED ∧ t.mcSt 5 = stACTIVE ∧ (t.mcc 5).copyAt = none) = true ∧
    leaves (.mccBurst 5 0 .clean) (cp.setMcc 5 { Mcc.init with copyAt := some 0, admitted := [mq (some (w16.take 8)) [1]] }) (fun t =>
      memWord t.dram (dramKey 9 60) = 7 ∧ memWord t.dram (dramKey 5 60) = 7 ∧ t.burstClean 9 1) = true ∧
    leaves (.forwardExpiry 5) ((mm { Mcc.init with forwardAt := some 0 }).setMcSt 5 stFORWARD) (fun t => t.mcSt 5 = stRETIRED ∧ t.mcLch 5 = 0x1FF ∧ t.time = msec) = true := by
  decide +kernel

theorem test_memory_reads_back : (mm Mcc.init).holderOf (lchOf interBase).1 = 5 ∧ (mm Mcc.init).mcSt 5 ≠ stSRC ∧
    (((mm Mcc.init).memSet interBase [1, 2, 3, 4, 5, 6, 7, 2 ^ 32 + 8]).memGet (interBase + 28)) = ⟨8, false⟩ := by decide +kernel

/-! ### Sequences and requests -/

/-- A job of a role: JOBHASH 5, one layer, one KV head and one query head; sequence table, page pool and table pool in channel 0. -/
def cfg (role : Nat) : JobCfg := ⟨role, false, 5, 1, 1, [0], 1, [⟨0, 1, 1, 0x3F80, [⟨0, 0, 0⟩], [⟨0, 0, 0⟩], [.lane 0], [.lane 0], 0, [0]⟩], 0, 1, some 100, [1, 2, 3, 4], 1,
  directBase, (directBase + 2 ^ 20, 2 ^ 17), (directBase + 2 ^ 21, 2 ^ 16), [], false, false, 0, [], 0, [], true⟩
def plc (tiles : List TileImg) : Placement := ⟨[], ⟨[5], [⟨[0], 0, []⟩], tiles, [], []⟩, [], 0, []⟩
def jb (role : Nat) : Job := ⟨cfg role, plc [], [.running], [], [], 0, none, [], []⟩
/-- A module with a job of a role; channel 0 is backed by subchannel 5. -/
def md (role : Nat) : State := { mm Mcc.init with job := some (jb role) }
/-- The copy `cp` puts golden copy A (channel 0) in the facet of copy B (channel 1, subchannel 10); channel 2 is in another. -/
def parted : State :=
  let held := fun (s : State) (n l : Nat) => (s.setMcSt n stACTIVE).setMcLch n l
  let s := (held (held cp 10 1) 200 2).setMcLch 9 0
  { s with job := some { jb 3 with place := plc [⟨7, 1, false, [], [], [], [⟨0, 256, directBase, directBase + 2 ^ 33⟩], true, [], []⟩] } }

theorem test_golden_copies_part : (parted.copyComplete 5 []).goldGranules = [(directBase, directBase + 2 ^ 33, 64)] ∧
    (parted.copyComplete 5 []).sameFacet directBase ((parted.copyComplete 5 []).goldB (directBase + 2 ^ 33)) = true ∧
    ((parted.copyComplete 5 []).placeOf (directBase + 2 ^ 34)).1 = 200 ∧ (parted.copyComplete 5 []).sameFacet directBase (directBase + 2 ^ 34) = false ∧
    (lchOf (directBase + 2 ^ 34)).1 ≠ (lchOf ((parted.copyComplete 5 []).goldB (directBase + 2 ^ 33))).1 := by decide +kernel

/-- The SUBMIT words of a request of one shard, one Generation module, one prompt token; and a request in slot 2. -/
def subw (np : Nat) : List Nat := (List.range 101).map fun i => if i = 11 then 0x0101 else if i = 10 then 9 else if i = 100 then np else 0
def rq0 (st : ReqSt) : Req := ⟨subw 1, none, 2, st, [], [], 0, false, 0, 0, 0, [], [], [], none, [], 0, 0, false, none, none, 0, (0, 0, 0, 0), (0, 0), 0, 0, 0, 0, 0, none⟩
def msg (kind sends : Nat) : Msg := ⟨9, kind, 1, 2, 0, 0, 0, [4], sends, 0⟩
/-- Sequence 77 is open in slot 0 of a Cache module. -/
def opn : State := (md 3).setSeqEnt (cfg 3) 0 ⟨77, 1, 0, 1, 0, 0⟩

theorem test_open : (md 3).freeSeqSlot (cfg 3) = some 0 ∧
    leaves (.open 1 77 6 0 1 8) (md 3) (fun t => t.outbox = [⟨.fabric 1, "SEQ_CTL", seqCtl 77 6 2 6 0 1 0 8⟩]) = true := by decide +kernel

theorem test_open_no_slot_in_use : (md 3).openSlot (cfg 3) 77 = none := by
  refine List.find?_eq_none.2 fun n _ => ?_
  have w : ∀ a, memWord (md 3).dram a = 0 := fun a => by
    rw [show (md 3).dram = [] from rfl]; simp [memWord, memByte, tblGet, tblFind, memDefault]
  have h : ∀ a, ((md 3).memGet a).v = 0 := fun a => by
    unfold State.memGet
    dsimp only
    split
    · rfl
    · exact w _
  have e : ((md 3).seqEnt (cfg 3) n).st = 0 := by
    simp only [State.seqEnt, State.memGetN, List.map_map, Function.comp_def, h]
    decide
  simp [e]

theorem test_open_ack : leaves (.openAck 9 0 3) { md 2 with msgs := [msg 1 1], reqs := [{ rq0 .opening with answers := [none, none] }] }
    (fun t => t.msgs = [] ∧ t.reqs.map (·.answers) = [[some (0, 3), none]]) = true := by decide +kernel

theorem test_close : opn.seqOpen (cfg 3) 0 77 = true ∧ leaves (.close 1 77 0 8 0 1) opn (fun t => t.closes = [(0, 1, 8)] ∧ (t.seqEnt (cfg 3) 0).st = 2) = true ∧
    leaves (.closeComplete 0) { opn with closes := [(0, 1, 8)] } (fun t => t.closes = [] ∧ (t.seqEnt (cfg 3) 0).st = 0 ∧ t.outbox.length = 1) = true ∧
    leaves (.closeAck 9) { md 2 with msgs := [msg 3 1], reqs := [rq0 .closing] } (fun t => t.msgs = [] ∧ t.reqs.all (fun r => r.st != .closing)) = true := by decide +kernel

theorem test_page : (cfg 3).pageFits 0 0 0 1 (pageLen 0) = true ∧ opn.pageOf (cfg 3) 0 0 0 0 = none ∧
    ((opn.makePtEnt (cfg 3) 0 0 0 0).bind fun e => e.2.allocPage (cfg 3)) = some (directBase + 2 ^ 20) ∧
    leaves (.page 1 78 0 0 0 0 0 1 8 (pageLen 0) []) opn (fun t => t.outbox = [⟨.fabric 1, "PAGE_ACK", pageAck 78 0 8 0 0 2⟩]) = true := by decide +kernel

theorem test_page_ack : leaves (.pageAck 9 0) { md 2 with msgs := [msg 5 1], reqs := [{ rq0 .live with missing := [(0, 0, 0)] }] }
      (fun t => t.msgs = [] ∧ t.reqs.map (·.missing) = [[]]) = true ∧
    leaves (.pageAck 9 0) { md 1 with msgs := [msg 5 1], reqs := [{ rq0 .live with missing := [(0, 0, 0)] }] }
      (fun t => t.msgs = [] ∧ t.reqs.map (·.missing) = [[]]) = true ∧
    leaves (.pageAck 9 3) { md 2 with msgs := [msg 5 1], reqs := [rq0 .live] } (fun t => t.reqAt 2 = none) = true := by decide +kernel

/-- A QUERY of sequence 77 over no span: one row, one head. -/
def qy (p : Bool) : Query := ⟨1, 77, 0, 0, 0, 9, 0, 1, 1, [(List.replicate 128 0, [127, 127, 127, 127], p)]⟩

/-- The same module with the page of span 0 taken: entry, page header, directory and table; its data were never written.
A QUERY covers it, with a poisoned word. -/
def opn1 : State := { md 3 with gens := [(directBase + 2 ^ 20, 1)], pages := [directBase + 2 ^ 20], dram :=
  ([(0, 77), (8, 1), (10, 1), (12, 128), (18, 32), (21, 32), (0x10_0000, 1), (0x10_0006, 1), (0x10_0008, 77), (0x20_0001, 4), (0x20_0002, 32),
    (0x20_0005, 32), (0x20_0402, 16), (0x20_0405, 32), (0x20_0406, 1)] : List (Nat × Byte)).map fun e => (dramKey 5 e.1, e.2) }

/-- LTN 0 is at site 7, whose key store has the attention key bound. -/
def keyed (s : State) : State := { s.setKey 7 0 ⟨[1, 2, 3, 4], true, 1⟩ with maps := (List.range 1296).map fun x => (x, ⟨true, 1, [7], none, none⟩) }

theorem test_query : (match (md 3).queryRecords (cfg 3) (qy false) false with | .error x => x | .ok _ => 0) = 2 ∧
    leaves (.query (qy false)) (md 3) (fun t => t.outbox.map (fun m => m.kind) = ["PARTIAL"]) = true ∧ opn.serving = true ∧
    (match opn.queryRecords (cfg 3) (qy false) false with | .error _ => true | .ok l => l.1.any (·.2)) = false ∧
    opn.attnBound ((cfg 3).layer 0) = false ∧ leaves (.query (qy false)) opn (fun t => t.outbox = [] ∧ t.heldQ = []) = true := by decide +kernel

theorem test_query_with_a_key : (match (keyed opn).queryRecords (cfg 3) (qy false) false with | .error _ => true | .ok l => l.1.any (·.2)) = false ∧
    (keyed opn).attnBound ((cfg 3).layer 0) = true ∧ (keyed opn1).attnBound ((cfg 3).layer 0) = true := by decide +kernel

theorem spansPart_bad (key : List Nat) (lc : LayerCfg) (ns p h kv k : Nat) (q : List NVal) (b : Nat → KvBlock) :
    (spansPart key lc 1 [.lane 0] ns p h kv q true [(k, b)]).1.bad = true := by
  simp [spansPart, combineLanes, laneReduce, laneChain, laneOf, nthD, chainStep, Nat.mod_one]

theorem test_query_poisoned : ∃ recs os, (keyed opn1).queryRecords (cfg 3) ⟨1, 77, 0, 1, 0, 9, 0, 1, 1, [([], [], true)]⟩ false = .ok (recs, os) ∧
    recs.any (·.2) = true := by
  have hg : (keyed opn1).queryGroups (cfg 3) 0 0 (spansOf 0 1 1) (List.range 1) = .ok [[(0, (keyed opn1).memGetN (directBase + 2 ^ 20 + 0x100) 8448)]] := rfl
  have ho : (keyed opn1).seqOpen (cfg 3) 0 77 = true := by decide +kernel
  have he : ((keyed opn1).seqEnt (cfg 3) 0).j = 0 ∧ ((keyed opn1).seqEnt (cfg 3) 0).ns = 1 := by decide +kernel
  have hc : (cfg 3).groups 0 = 1 ∧ ¬ ((1 : Nat) ≠ (cfg 3).hq ∨ (cfg 3).layers.length ≤ 0) := by decide +kernel
  have hl : ((cfg 3).layer 0).lanesC = 1 ∧ ((cfg 3).layer 0).treeC = [.lane 0] ∧ nthD 0 (cfg 3).kvOf 0 / pageG ((cfg 3).layer 0).fmt = 0 := by decide +kernel
  simp only [State.queryRecords, ho, he.1, he.2, hc.1, if_neg hc.2, hg, Bool.not_true, Bool.false_and, Bool.false_eq_true, if_false]
  exact ⟨_, _, rfl, by simp [nthD, hl.1, hl.2.1, hl.2.2, Part.record, spansPart_bad, Nat.mod_one]⟩

theorem test_partial : leaves (.partial_ 9 0 []) { md 2 with msgs := [msg 7 1], reqs := [rq0 .live], attns := [⟨2, 0, 0, 1, 0, [], [0, 1], [], none⟩] }
      (fun t => t.attns.map (fun a => (a.want, a.parts)) = [([1], [(0, [])])]) = true ∧
    leaves (.partial_ 9 7 []) { md 2 with msgs := [msg 7 1], reqs := [rq0 .live] } (fun t => t.reqAt 2 = none) = true := by decide +kernel

theorem test_handoff : leaves (.handoff ⟨0, 63, 2, 11, 0, 1, 1, [[1]]⟩) { md 2 with reqs := [rq0 .entering] } (fun t =>
    t.reqs.all fun r => r.handoff && r.t == 63 && r.ns == 0 && r.last == 11 && r.tokens == [(63, 11)]) = true := by decide +kernel

theorem test_reply_timeout : leaves (.replyTimeout 9) { md 2 with msgs := [msg 7 3], reqs := [rq0 .live] }
      (fun t => t.msgs.map (fun m => (m.sends, m.at_)) = [(4, 100)] ∧ t.outbox.length = 1) = true ∧
    leaves (.replyTimeout 9) { md 2 with msgs := [msg 7 4], reqs := [rq0 .live] } (fun t => t.reqAt 2 = none ∧ t.time = 100) = true := by decide +kernel

/-- Part of sequence 2 in a microbatch, without queries. -/
def wk : SeqWork := ⟨2, [], [[0]], []⟩

theorem test_work_issue : ({ md 2 with reqs := [rq0 .live] } : State).workOk (cfg 2) [wk] = [wk] ∧ (md 2).stagesRun = true ∧ (md 2).fits (cfg 2) [] 0 1 1 = true ∧
    leaves (.workIssue 0 [wk] [] 0) { md 2 with reqs := [rq0 .live] } (fun t => t.reqs.map (fun r => r.step.isSome) = [true]) = true ∧
    ({ md 2 with mtr := { Mtr.init with lastBase := 1 } } : State).fits { cfg 2 with margin := 1000 } [] 0 1 1 = false ∧ leaves (.workIssue 2 [] [] 0) { md 2 with job := some { jb 2 with cfg := { cfg 2 with margin := 1000 } }, mtr := { Mtr.init with lastBase := 1 } } (fun t => t.ctl.deferAdm) = true := by decide +kernel

theorem test_step_end : leaves (.stepEnd [(2, [⟨[0xFC00, 0x3E00, 0], 1, 0⟩])]) { md 2 with reqs := [{ rq0 .live with step := some ⟨4, [], [[0]], [], 0, false, false, 0⟩ }] }
    (fun t => t.reqs.map (fun r => (r.tokens, r.t, r.tail, r.step.isSome)) = [([(5, 1)], 5, [[0]], false)]) = true := by decide +kernel

/-- The last chunk of a prompt is being computed, and these messages await their answers. -/
def pfc (ms : List Msg) : State := { md 1 with msgs := ms, reqs := [{ rq0 .live with step := some ⟨0, [], [[0]], [], 0, false, false, 0⟩ }] }

theorem test_prefill_chunk : leaves (.prefillChunk 2 ⟨[0xFC00, 0x3E00, 0], 1, 0⟩ [3]) (pfc [msg 5 1]) (fun t => t.reqs.map (fun r => (r.handoff, r.chunk, r.hand)) = [(false, 1, some (1, [3]))] ∧
      t.outbox = []) = true ∧
    leaves (.prefillChunk 2 ⟨[0xFC00, 0x3E00, 0], 1, 0⟩ [3]) (pfc []) (fun t => t.outbox.any (fun m => m.kind == "HANDOFF")) = true := by decide +kernel

/-! ### Placement -/

/-- A tile image of LTN 0: one restore entry of four bytes, whose copies lie in channel 0. -/
def img : TileImg := ⟨0, 8, false, [], [], [], [⟨8, 4, directBase + 4096, directBase + 8192⟩], true, [], []⟩
def rec0 : SubstRec := ⟨0, 0, false, [⟨7, [], []⟩]⟩
/-- LTN 0 at site 5 with its image in use; site 7 is its candidate; every region OFF. -/
def pl : State := { (((go State.reset (pgMCC 5)).setMcSt 5 stACTIVE).setMcLch 5 0).setFld (pgGLB 1) 0x048 1 2 3 with
  maps := [(5, ⟨true, 1, [5], none, none⟩)], job := some { jb 2 with place := plc [img], records := [rec0] } }

theorem test_substitution_trigger : pl.siteClass 5 = .bound ∧ pl.siteClass 7 = .spare ∧ pl.ltnOfSite 5 = some 0 ∧ pl.stageSites 0 = [5] ∧
    leaves (.substitutionTrigger false 7) { pl with nv := { pl.nv with retired := [7] } } (fun t => t.nv.retired = [7] ∧ t.job = pl.job) = true ∧
    leaves (.substitutionTrigger false 7) pl (fun t => t.nv.retired = [7] ∧ t.job.all (fun j => j.records.all fun r => r.cands.isEmpty) ∧
      (t.blk (blkOf (pgMXA 7 0))).retired) = true := by decide +kernel

theorem test_substitution_of_a_bound_site : leaves (.substitutionTrigger false 5) (pl.memSet (directBase + 4096) [1, 0, 0, 0, 0, 0, 0, 0])
    (fun t => t.nv.retired = [5] ∧ (t.blk (blkOf (pgSEQ 5 0))).haltReq) = true := by decide +kernel

theorem test_screening_swap : 8 < pl.spareCount ∧ (pl.spareFor 0).map (·.site) = some 7 ∧ (pl.tileImg 0).isSome ∧
    leaves (.screeningSwap 0) (pl.memSet (directBase + 4096) [1, 0, 0, 0, 0, 0, 0, 0]) (fun t =>
      t.job.any (fun j => j.substs.any fun z => z.ltn == 0 && z.x == 5 && z.screen) ∧ (t.blk (blkOf (pgSEQ 5 0))).haltReq) = true := by decide +kernel

/-- The substitution of site 5 by site 7, restored. -/
def sb (y : Option Cand) : Subst := ⟨0, 5, y, 0, none, true, false, false⟩

theorem test_subst_switch : (pl.stageMaps [(0, 7)]).badVerdict = none ∧
    leaves (.substSwitch 0 []) { pl with job := some { jb 2 with place := plc [img], records := [rec0], substs := [sb (some ⟨7, [], []⟩)] } }
      (fun t => t.job.any (fun j => j.stages == [.replaying] && j.substs.all (·.switched))) = true ∧
    leaves (.substReplayEnd 0) { pl with job := some { jb 2 with place := plc [img], records := [rec0], stages := [.replaying] } }
      (fun t => t.job.any (fun j => j.stages == [.running])) = true := by decide +kernel

theorem verdict_of_duplicates (c : RtrMap) (e : Nat) (m : List Nat) (h : ¬m.Nodup) : mapVerdictOf c e m (crc32c (mapBytes m)) ≠ 0 := by
  unfold mapVerdictOf
  simp only [ne_eq, not_true_eq_false, if_false]
  split
  · decide
  · split
    · decide
    · rw [if_pos (by simpa using h)]; decide

/-- What each router does when a map is staged, in order. -/
def stages (pairs : List (Nat × Nat)) (t : State) (x : Nat) : State :=
  let m := t.map x
  let e := (m.epoch + 1) % 2 ^ 32
  let new := stageMap m.sites t.ltns pairs
  let v := mapVerdictOf m e new (crc32c (mapBytes new))
  ((t.setMap x { m with staged := some (e, new, v), commit := none }).setReg (pgRTR x 1) 0x044 (1 + v * 2)).setReg (pgRTR x 1) 0x048 e

theorem stages_keeps (pairs : List (Nat × Nat)) (t : State) (x : Nat) :
    (stages pairs t x).forwards 0 = t.forwards 0 ∧ (x ≠ 0 → (stages pairs t x).map 0 = t.map 0) := by
  have hk : ∀ off, off < 0x1000 → regKey (pgPRG (regionOf 0)) 0x04C ≠ regKey (pgRTR x 1) off := fun off ho => by
    simp only [regKey, pgPRG, pgRTR, pgId, tyPRG, tyRTR, regionOf]
    norm_num
    omega
  have hf : ∀ u : State, ∀ a b, ((u.setReg (pgRTR x 1) 0x044 a).setReg (pgRTR x 1) 0x048 b).fld (pgPRG (regionOf 0)) 0x04C 0 3 =
      u.fld (pgPRG (regionOf 0)) 0x04C 0 3 := fun u a b => by
    rw [fld_setReg_other _ _ _ _ (hk _ (by decide)), fld_setReg_other _ _ _ _ (hk _ (by decide))]
  constructor
  · show State.forwards _ 0 = _
    simp only [State.forwards, State.region, stages, hf]
    rfl
  · intro hx
    show tblGet mapReset (tblSet mapReset t.maps x _) 0 = tblGet mapReset t.maps 0
    exact tblGet_tblSet_other _ _ _ (Ne.symm hx)

theorem stages_map (pairs : List (Nat × Nat)) (t : State) (x : Nat) :
    ((stages pairs t x).map x).staged = some (((t.map x).epoch + 1) % 2 ^ 32, stageMap (t.map x).sites t.ltns pairs,
      mapVerdictOf (t.map x) (((t.map x).epoch + 1) % 2 ^ 32) (stageMap (t.map x).sites t.ltns pairs)
        (crc32c (mapBytes (stageMap (t.map x).sites t.ltns pairs)))) := by
  show (tblGet mapReset (tblSet mapReset t.maps x _) x).staged = _
  rw [tblGet_tblSet, if_pos rfl]

theorem stageMaps_eq (pairs : List (Nat × Nat)) (s : State) : s.stageMaps pairs = s.liveRouters.foldl (stages pairs) s := rfl

theorem foldl_stages (pairs : List (Nat × Nat)) (l : List Nat) (t : State) (h : ∀ x ∈ l, x ≠ 0) :
    (l.foldl (stages pairs) t).forwards 0 = t.forwards 0 ∧ (l.foldl (stages pairs) t).map 0 = t.map 0 := by
  induction l generalizing t with
  | nil => exact ⟨rfl, rfl⟩
  | cons x l ih =>
    have hx := h x (by simp)
    obtain ⟨a, b⟩ := stages_keeps pairs t x
    obtain ⟨c, d⟩ := ih (stages pairs t x) fun y hy => h y (by simp [hy])
    exact ⟨c.trans a, d.trans (b hx)⟩

/-- The sites of region 0 forward too. -/
def plr : State := { pl.setRegion 0 2 with
  job := some { jb 2 with place := plc [img], records := [rec0], substs := [sb (some ⟨7, [], []⟩)] } }

theorem duplicate_zeros : ¬(stageMap RtrMap.init.sites 1152 [(0, 7)]).Nodup := fun hd => by
  have h : (stageMap RtrMap.init.sites 1152 [(0, 7)])[1]? = (stageMap RtrMap.init.sites 1152 [(0, 7)])[2]? := by decide +kernel
  have hl : 1 < (stageMap RtrMap.init.sites 1152 [(0, 7)]).length := by decide +kernel
  exact absurd ((List.getElem?_inj hl hd).1 h) (by decide)

theorem verdict_fails (pairs : List (Nat × Nat)) (l : List Nat) (s : State) (hl : s.liveRouters = 0 :: l) (hx : ∀ x ∈ l, x ≠ 0)
    (h0 : s.forwards 0 = true) (hd : ¬(stageMap (s.map 0).sites s.ltns pairs).Nodup) : (s.stageMaps pairs).badVerdict.isSome = true := by
  obtain ⟨hf, hk⟩ := foldl_stages pairs l (stages pairs s 0) hx
  unfold State.badVerdict
  rw [List.find?_isSome, stageMaps_eq, hl, List.foldl_cons]
  refine ⟨0, ?_, ?_⟩
  · unfold State.liveRouters
    rw [List.mem_filter, hf, (stages_keeps _ _ 0).1, h0]
    exact ⟨List.mem_range.2 (by decide), rfl⟩
  · rw [hk, stages_map]
    simpa using verdict_of_duplicates _ _ _ hd

theorem test_bad_verdict : (plr.stageMaps [(0, 7)]).badVerdict.isSome = true :=
  verdict_fails [(0, 7)] [1, 2, 3, 4, 5, 36, 37, 38, 39, 40, 41, 72, 73, 74, 75, 76, 77] plr (by decide +kernel) (by decide) (by decide +kernel)
    (by rw [show plr.map 0 = RtrMap.init by decide +kernel, show plr.ltns = 1152 by decide +kernel]; exact duplicate_zeros)

theorem test_bad_verdict_holds_the_map : plr.stageSites 0 = [5] ∧ (∀ y ∈ plr.stageSites 0, plr.runs (pgSEQ y 0) = false) ∧
    (plr.job.any fun j => (j.substs.filter fun w => w.stage == 0 && !w.switched) == [sb (some ⟨7, [], []⟩)]) = true := by decide +kernel

theorem test_golden_check : leaves .goldenCheck (md 2) (fun t => t.job.any (fun j => j.goldenAt == t.time) ∧ 3600 * second ≤ t.time) = true ∧
    leaves (.variantSwitch 3) { md 2 with job := some { jb 2 with place := { plc [] with variants := [(3, (plc []).base)] } } }
      (fun t => t.job.any (fun j => j.variant == some 3 && j.stages == [.running])) = true := by decide +kernel

theorem test_urgent_replacement : leaves (.urgentReplacement 0 none) { md 2 with job := some { jb 2 with substs := [sb none] }, reqs := [rq0 .live] }
      (fun t => t.job.any (fun j => j.stages == [.lost]) ∧ bitOf (t.reg (pgFLT 3) 0x040) 8 ∧ t.reqs.all (fun r => !r.isLive)) = true ∧
    leaves (.urgentReplacement 0 (some ⟨9, [], []⟩)) { md 2 with job := some { jb 2 with records := [rec0], repair := [0] } }
      (fun t => t.job.any (fun j => j.repair == [] && j.records.all fun r => r.cands.map (·.site) == [7, 9])) = true := by decide +kernel

/-! ### Optical ports -/

/-- Port 31 in a state, its engine running, beyond its registers as given. -/
def op (st : Nat) (x : PortSt) : State := ((go (go State.reset (pgOPT 31)) (optEng 31)).setOptState 31 st).setPort 31 x

theorem test_port_training : leaves (.portTraining 31) (op optDOWN PortSt.init) (fun t => t.optState 31 = optTRAINING ∧ (t.blk (blkOf (pgOPT 31))).run) = true ∧
    leaves (.trainingRetry 31) (op optTRAINING PortSt.init) (fun t => t.optState 31 = optTRAINING ∧ t.time = second) = true ∧
    leaves (.echo 31 true 9 4) (op optTRAINING PortSt.init) (fun t => t.outbox.map (fun m => m.kind) = ["CTRL"]) = true ∧
    leaves (.echo 31 false 9 4) (op optTRAINING { PortSt.init with echo := List.replicate 62 1 }) (fun t => (t.port 31).echo.length = 63 ∧
      (t.port 31).echo.getLast? = some 5) = true ∧
    leaves (.echo 31 false 23900 92) (op optTRAINING { PortSt.init with echo := List.replicate 63 23808 }) (fun t => t.optState 31 = optTRAINING ∧
      t.reg (pgOPT 31) 0x04C = 1488 ∧ t.reg (pgOPT 31) 0x048 = 100) = true ∧
    leaves (.echo 31 false 480000 0) (op optTRAINING { PortSt.init with echo := List.replicate 63 480000 }) (fun t => t.optState 31 = optDOWN) = true ∧
    leaves (.trainingRetry 31) (op optDOWN PortSt.init) (fun t => t.optState 31 = optTRAINING ∧ t.time = second) = true ∧
    leaves (.discovery 31 [7, 0, 0, 5, 0]) ((op optTRAINING PortSt.init).setReg64 (pgOPT 31) 0x084 5) (fun t => t.reg64 (pgOPT 31) 0x060 = 7 ∧ t.jobOk 31) = true := by
  decide +kernel

/-! ### Optical ports, frames and messages -/

/-- The eight lanes of port 31 on engine lanes 8 to 15, working. -/
def lanes (s : State) : State := (List.range 8).foldl (fun t l => (t.setLmap 31 l (8 + l) 1).setLane 31 (8 + l) 1 l) s

theorem test_port_up : (lanes (op optTRAINING { PortSt.init with echo := List.replicate 64 0 })).enabled (optEng 31) = true ∧
    (∀ l < 8, (lanes (op optTRAINING PortSt.init)).lstate 31 ((lanes (op optTRAINING PortSt.init)).laneEl 31 l) = 1) ∧
    leaves (.portUp 31 0xFF 0xF) (lanes (op optTRAINING { PortSt.init with echo := List.replicate 64 0 })) (fun t =>
      t.optState 31 = optUP ∧ t.optMask 31 = 255 ∧ t.fld (pgOPT 31) 0x044 3 4 = 8) = true := by decide +kernel

/-- Port 31 UP at full width. -/
def up (x : PortSt) : State := (lanes (op optUP x)).setFld (pgOPT 31) 0x044 8 8 255

theorem test_lane_moves : leaves (.laneMove 31 7 19) (up PortSt.init) (fun t => t.lstate 31 19 = 1 ∧ !bitOf (t.optMask 31) 7 ∧
      (t.port 31).moves.map (fun m => (m.lane, m.el, m.acked)) = [(7, 19, true)]) = true ∧
    leaves (.laneAck 31 7) (up { PortSt.init with moves := [⟨7, 19, false, true⟩] }) (fun t => (t.port 31).moves = [⟨7, 19, true, true⟩]) = true ∧
    leaves (.laneOn 31 7 true true) (up { PortSt.init with moves := [⟨7, 19, true, true⟩] }) (fun t => t.laneEl 31 7 = 19 ∧ (t.port 31).moves = [] ∧
      bitOf (t.optMask 31) 7) = true ∧
    leaves (.retireLane 31 7) (up PortSt.init) (fun t => t.optMask 31 = 127 ∧ t.lstate 31 15 = 2 ∧ bitOf (t.hdr (pgOPT 31)).err 9) = true := by decide +kernel

theorem test_lasers : leaves (.laserSwitch 15 3 true 77) (State.reset.setFld (pgOEN 15) 0x040 8 1 1) (fun t => t.flag (pgOEN 15) 0x044 7 ∧ t.reg (pgOEN 15) 0x05C = 77) = true ∧
    leaves (.laserSwitch 15 3 false 77) (State.reset.setFld (pgOEN 15) 0x040 8 1 1) (fun t => t.flag (pgOEN 15) 0x044 11 ∧ bitOf (t.hdr (pgOEN 15)).err 9) = true ∧
    leaves (.optAdv 31 1 6) State.reset (fun t => t.reg (pgOPT 31) 0x084 = 6 ∧ t.outbox = []) = true ∧ (up PortSt.init).lit 31 = true ∧
    leaves (.optAdv 31 1 6) (up PortSt.init) (fun t => t.reg (pgOPT 31) 0x084 = 6 ∧ t.outbox.map (fun m => m.kind) = ["CTRL"]) = true := by decide +kernel

/-- A frame of VC 1 with a sequence number, the last of no message. -/
def fr (n : Nat) : Frame := ⟨1, false, false, n, List.replicate 64 ⟨0, false⟩, 0⟩

theorem test_data_frames : leaves (.dataFrame 31 (fr 0xFFFFF) 0 0 0 true none) (up { PortSt.init with rxNext := 0xFFFFF }) (fun t => (t.port 31).rxNext = 0) = true ∧
    leaves (.dataFrame 31 (fr 0xFFFFF) 0 0 0 true none) (up PortSt.init) (fun t => (t.port 31).rxNext = 0 ∧ (t.port 31).rx = []) = true ∧
    leaves (.dataFrame 31 (fr 1) 0 0 0 true none) (up PortSt.init) (fun t => (t.port 31).rxNext = 0 ∧ t.outbox.any (fun m => m.kind == "NAK")) = true ∧
    leaves (.dataFrame 31 (fr 0) 0 0 0 false none) (up PortSt.init) (fun t => (t.port 31).rxNext = 0 ∧ bitOf (t.hdr (pgOPT 31)).err 8) = true ∧
    leaves (.idleFrame 31 0 0 0 false) (up PortSt.init) (fun t => bitOf (t.hdr (pgOPT 31)).err 8) = true ∧
    leaves (.idleFrame 31 3 0 0 true) (up { PortSt.init with unacked := [fr 3, fr 4] }) (fun t => (t.port 31).unacked = [fr 4]) = true := by decide +kernel

theorem test_replay : leaves (.nak 31 3 0 0) (up { PortSt.init with unacked := [fr 3, fr 4] }) (fun t => (t.port 31).unacked = [{ fr 4 with resent := 1 }] ∧
      t.outbox.any (fun m => m.kind == "DATA")) = true ∧
    leaves (.replayTimeout 31) (up { PortSt.init with unacked := [{ fr 4 with resent := 14 }] }) (fun t => (t.port 31).unacked = [{ fr 4 with resent := 15 }]) = true ∧
    leaves (.retrainTimeout 31) (op optRETRAIN { PortSt.init with unacked := [fr 4] }) (fun t => t.optState 31 = optDOWN ∧ (t.port 31).unacked = [] ∧ t.time = 10 * msec) = true := by
  decide +kernel

/-- The sixteen header words of a mailbox message with a length field. -/
def mh (n : Nat) : List Nat := [0, n] ++ List.replicate 14 0

theorem test_mailbox : leaves (.mbxTxData 31 7) (up PortSt.init) (fun t => (t.port 31).mbxTx = [7] ∧ t.reg (pgOPT 31) 0x308 = 1) = true ∧
    leaves (.flush 31) (up { PortSt.init with mbxTx := [7] }) (fun t => (t.port 31).mbxTx = [] ∧ t.reg (pgOPT 31) 0x308 = 0) = true ∧
    leaves (.send 31) (up { PortSt.init with mbxTx := mh 0 }) (fun t => (t.port 31).mbxTx = [] ∧ (t.port 31).waiting.length + (t.port 31).unacked.length = 1) = true ∧
    leaves (.send 31) (up { PortSt.init with mbxTx := (mh 0).take 15 }) (fun t => (t.port 31).mbxTx = [] ∧ bitOf (t.hdr (pgOPT 31)).err 14) = true ∧
    leaves (.mbxRxRead 31) (up { PortSt.init with mbxRx := [[7, 8], [9]] }) (fun t => t.reg (pgOPT 31) 0x310 = 7 ∧ (t.port 31).mbxRx = [[8], [9]]) = true ∧
    leaves (.mbxRxRead 31) (up PortSt.init) (fun t => t.reg (pgOPT 31) 0x310 = 0 ∧ (t.port 31).mbxRx = []) = true ∧
    leaves (.mbxPop 31) (up { PortSt.init with mbxRx := [[7, 8], [9]] }) (fun t => (t.port 31).mbxRx = [[9]]) = true := by decide +kernel

theorem test_egress : leaves (.egressTransfer 31 1) (((up { PortSt.init with egr := [(0, ⟨3, []⟩)] }).setReg (pgOPT 31) 0x200 (1 + 2 + 8)).setBuf (siteOfHalf 31 1) 6 [xr 0])
      (fun t => (t.port 31).egr.map (fun e => (e.1, e.2.left, e.2.words.length)) = [(0, 2, 16)]) = true ∧
    leaves (.egressTransfer 31 1) ((up PortSt.init).setBuf (siteOfHalf 31 1) 6 [xr 40]) (fun t => t.buf (siteOfHalf 31 1) 6 = [] ∧ bitOf (t.hdr (pgOPT 31)).err 13) = true := by
  decide +kernel

/-! ### Step changes, clocks and device time -/

/-- The next step is 3, asked for at device time `t` plus 60 µs. -/
def gos (t : Nat) : State := (State.reset.setReg pgTIM 0x048 3).setReg64 pgTIM 0x050 (t + 60 * usec)

theorem test_go : leaves .go { gos 0 with stepPend := some ⟨3, 60 * usec, true, [], false, [], 7⟩ } (fun t => t.fld pgTIM 0x05C 8 4 = stepBUSY) = true ∧
    leaves .go (State.reset.setReg64 pgTIM 0x050 (50 * usec - 1)) (fun t => t.fld pgTIM 0x05C 8 4 = stepLATE) = true ∧ (gos 0).step = 7 ∧
    leaves .go (gos 0) (fun t => t.stepPend = some ⟨3, 60 * usec, false, [], false, [], 7⟩ ∧ t.flag pgTIM 0x05C 6) = true := by decide +kernel

/-- A pending change to step 3 at 60 µs; region 0 ON. -/
def pend (raised : Bool) (done : List Nat) : State := { on with stepPend := some ⟨3, 60 * usec, false, [], raised, done, 7⟩ }

theorem test_step_change : leaves .stepCancel (pend false []) (fun t => t.stepPend = none ∧ t.fld pgTIM 0x05C 8 4 = stepCANCELLED) = true ∧
    leaves .stepCancel { pend false [] with time := 20 * usec } (fun t => t.stepPend.isSome) = true ∧
    leaves .stepVoltageRaise (pend false []) (fun t => t.stepPend.any (·.raised) ∧ t.time = 20 * usec ∧
      t.fld (pgPRG 0) 0x050 0 10 = (max 500 (min 850 (on.vlogRaw 0 3))).toNat) = true ∧
    leaves (.stepSettleCheck []) (pend true []) (fun t => t.stepPend.isSome ∧ t.time = 58 * usec) = true ∧
    leaves (.stepSettleCheck [0]) (pend true []) (fun t => t.stepPend = none ∧ t.fld pgTIM 0x05C 8 4 = stepSUPPLY ∧ bitOf (t.hdr pgTIM).err 9) = true := by decide +kernel

/-- The clocks of facets 0 and 11 run. -/
def run2 (s : State) : State := (s.setFacet 0 { s.facet 0 with running := true }).setFacet 11 { s.facet 11 with running := true }

theorem test_step_switch : (run2 (pend true [])).liveFacets = [0, 11] ∧
    leaves (.stepSwitch 11) (run2 (pend true [])) (fun t => t.time = 60 * usec ∧ t.facetStep 11 = 3 ∧ t.stepPend.any (fun p => p.done == [11]) ∧ t.step = 7) = true ∧
    (run2 (pend true [])).unsettled ⟨3, 60 * usec, false, [], true, [], 7⟩ = false ∧
    leaves (.stepSwitch 11) (run2 ((pend true []).setRgn 0 { RegionSt.init with settleAt := 59 * usec })) (fun t => t.stepPend = none ∧
      t.fld pgTIM 0x05C 8 4 = stepSUPPLY) = true ∧
    leaves (.stepSwitch 11) (run2 (pend true [0])) (fun t => t.stepPend = none ∧ t.step = 3 ∧ t.fld pgTIM 0x05C 8 4 = stepDONE) = true ∧
    leaves .stepVoltageLower on (fun t => t.fld (pgPRG 0) 0x050 0 10 = (max 500 (min 850 (on.vlogRaw 0 7))).toNat) = true := by decide +kernel

/-- The clock of facet 0 runs, counted and corrected as given. -/
def ck (c : FacetClk) : State := (on.setReg (pgCLK 0) 0x040 (1 + 0 * 2 ^ 8)).setFacet 0 { c with running := true }
def c0 : FacetClk := ⟨0, 0, 0, 0, 0, none, 0, [], true, 0, 0, 0, [], 0, false⟩

theorem test_droop : leaves (.droopEvent 0) (ck c0) (fun t => (t.facet 0).stretches = 1 ∧ (t.facet 0).lastWithheld = some 0 ∧ t.reg64 (pgTEL 0 1) 0x050 = 1) = true ∧
    leaves (.droopEvent 0) (ck { c0 with lastWithheld := some 5 }) (fun t => (t.facet 0).stretches = 0 ∧ t.reg64 (pgTEL 0 1) 0x050 = 1) = true := by decide +kernel

theorem test_stretch_rate : leaves (.stretchRateCheck 0) (ck c0) (fun t => t.reg (pgCLK 0) 0x060 = 0 ∧ t.time = msec) = true ∧
    leaves (.stretchRateCheck 0) (ck { c0 with msStretches := 1 }) (fun t => t.reg (pgCLK 0) 0x060 = 1 ∧ bitOf (t.hdr (pgCLK 0)).err 11 ∧ (t.facet 0).msStretches = 0) = true := by
  decide +kernel

theorem test_tap_move : leaves (.tapMove 0 41 true) (State.reset.setReg (pgCLK 0) (0x104 + 8 * 41) 1) (fun t =>
    t.fld (pgCLK 0) (0x100 + 8 * 41) (4 * 7) 4 = min 15 (State.reset.fld (pgCLK 0) (0x100 + 8 * 41) (4 * 7) 4 + 1)) = true := by decide +kernel

theorem test_epoch_marker : leaves (.epochMarker 0) (ck c0) (fun t => t.time = epochUnits ∧ t.spad = []) = true ∧
    leaves (.epochMarker 0) (ck { c0 with acc := 300 * 2 ^ 32 }) (fun t => bitOf (t.hdr (pgCLK 0)).err 10) = true := by decide +kernel

theorem test_reference : leaves .referenceLoss State.reset (fun t => t.flag pgTIM 0x068 1 ∧ t.flag (pgCLK 14) 0x044 1 ∧ bitOf (t.hdr pgTIM).err 8) = true ∧
    leaves .referenceReturn (State.reset.setReg pgTIM 0x068 2) (fun t => !t.flag pgTIM 0x068 1 ∧ t.flag pgTIM 0x068 0) = true := by decide +kernel

theorem test_lock : leaves (.lockLoss 0) (ck c0) (fun t => !(t.facet 0).running ∧ !t.flag (pgCLK 0) 0x044 0 ∧ bitOf (t.hdr (pgCLK 0)).err 8) = true ∧
    leaves (.lockLoss 0) (on.setFacet 0 { c0 with running := false, relockFails := [0] }) (fun t => (t.facet 0).relockFails = [0, 0] ∧ !t.flag (pgCLK 0) 0x044 6) = true ∧
    leaves (.relock 0) (on.setFacet 0 { c0 with running := false }) (fun t => (t.facet 0).running ∧ t.flag (pgCLK 0) 0x044 0 ∧ t.time = epochUnits) = true := by decide +kernel

theorem test_facet_dark : (State.reset.setFacet 0 { c0 with running := false, relockFails := [0, 0] }).flag (pgCLK 0) 0x044 6 = false ∧
    ((State.reset.setFacet 0 { c0 with running := false, relockFails := [0, 0] }).facet 0).relockFails.length = 2 := by decide +kernel

theorem test_ptp : leaves (.ptpTimestamp true 7) { State.reset with ptp := ⟨List.replicate 31 (0, 0), []⟩ } (fun t => t.ptp.tx.length = 32 ∧ t.fld pgTIM 0x068 8 6 = 32) = true ∧
    leaves (.ptpTimestamp true 7) { State.reset with ptp := ⟨List.replicate 32 (0, 0), []⟩ } (fun t => t.ptp.tx.length = 32 ∧ bitOf (t.hdr pgTIM).err 10) = true ∧
    leaves (.ptpTimestamp false 7) State.reset (fun t => t.ptp.rx = [(0, 7)]) = true ∧
    leaves .ptpTxqPop { State.reset with ptp := ⟨[(1, 2), (3, 4)], []⟩ } (fun t => t.ptp.tx = [(3, 4)] ∧ t.reg64 pgTIM 0x0C0 = 3) = true ∧
    leaves .ptpRxqPop { State.reset with ptp := ⟨[], [(1, 2)]⟩ } (fun t => t.ptp.rx = [] ∧ t.reg64 pgTIM 0x0D0 = 0) = true := by decide +kernel

/-! ### Power regions -/

/-- The page of region 71 enabled, the region in a state, the clock of its facet locked, three converters, eight phases. -/
def rg (v : Nat) : State := ((((go State.reset (pgPRG 71)).setRegion 71 v).setFld (pgCLK 11) 0x044 0 1 1).setFld (pgPRG 71) 0x080 0 3 7).setFld (pgPRG 71) 0x04C 8 4 8
def hlt (s : State) : State := s.setBlk (blkOf (pgPRG 71)) { s.blk (blkOf (pgPRG 71)) with haltReq := true }

theorem test_power_requests_refused : leaves (.prgReqInvalid 71) (rg 2) (fun t => t.fld (pgPRG 71) 0x04C 4 4 = resINVALID) = true ∧
    leaves (.prgReqOn 71 0) (rg 5) (fun t => t.fld (pgPRG 71) 0x04C 4 4 = resLOST) = true ∧
    leaves (.prgReqOn 71 0) (rg 2) (fun t => t.fld (pgPRG 71) 0x04C 4 4 = resDONE) = true ∧
    leaves (.prgReqRetain 71) (rg 0) (fun t => t.fld (pgPRG 71) 0x04C 4 4 = resINVALID) = true ∧
    leaves (.prgReqOff 71) (rg 0) (fun t => t.fld (pgPRG 71) 0x04C 4 4 = resDONE) = true ∧
    leaves (.prgReqOn 71 0) (hlt (rg 0)) (fun t => t.fld (pgPRG 71) 0x04C 4 4 = resDISABLED) = true ∧
    leaves (.prgReqOff 71) (rg 1) (fun t => (t.rgn 71).trans = some (0, 0) ∧ t.region 71 = 1) = true := by decide +kernel

theorem test_power_on : (rg 0).ibcs 71 = 3 ∧ leaves (.prgReqOn 71 0) ((rg 0).setFld (pgCLK 11) 0x044 0 1 0) (fun t => t.fld (pgPRG 71) 0x04C 4 4 = resCLOCK ∧
      bitOf (t.hdr (pgPRG 71)).err 12) = true ∧
    leaves (.prgReqOn 71 0) ((rg 0).setFld (pgPRG 71) 0x04C 8 4 5) (fun t => t.fld (pgPRG 71) 0x04C 4 4 = resPHASES) = true ∧
    leaves (.prgReqOn 71 1201) (rg 0) (fun t => (t.rgn 71).pend = some (0, 0) ∧ t.flag (pgPRG 71) 0x04C 3) = true ∧
    leaves (.prgReqOn 71 0) (rg 0) (fun t => t.region 71 = 3 ∧ (t.rgn 71).trans = some (2, 0)) = true := by decide +kernel

theorem test_power_off : (rg 2).quiet 71 = true ∧ leaves (.prgReqRetain 71) (rg 2) (fun t => t.region 71 = 4 ∧ (t.rgn 71).trans = some (1, 0)) = true ∧
    leaves (.prgReqOff 71) ((rg 2).setTile 1295 { Tile.init with win := [tk 1 0 []] }) (fun t => t.fld (pgPRG 71) 0x04C 4 4 = resBUSY ∧ t.region 71 = 2) = true ∧
    leaves (.prgReqOff 71) ((rg 2).setRgn 71 { RegionSt.init with trans := some (1, 0) }) (fun t => (t.hdr (pgPRG 71)).wlock) = true := by decide +kernel

theorem test_pon_waits : leaves (.ponReevaluate 71 0) (hlt ((rg 0).setRgn 71 { RegionSt.init with pend := some (0, 0) })) (fun t => t.time = 10 * usec ∧
      t.reg (pgPRG 71) 0x064 = 1 ∧ (t.rgn 71).pend.isSome) = true ∧
    leaves (.ponReevaluate 71 0) ((rg 0).setRgn 71 { RegionSt.init with pend := some (0, 0) }) (fun t => t.region 71 = 3 ∧ (t.rgn 71).trans = some (2, 10 * usec)) = true ∧
    leaves (.ponTimeout 71) ((rg 0).setRgn 71 { RegionSt.init with pend := some (0, 0) }) (fun t => t.time = 2 * msec ∧ t.fld (pgPRG 71) 0x04C 4 4 = resHEADROOM ∧
      bitOf (t.hdr (pgPRG 71)).err 12) = true := by decide +kernel

theorem test_transitions_end : leaves (.ponDone 71 []) ((rg 3).setRgn 71 { RegionSt.init with trans := some (2, 0) }) (fun t => t.region 71 = 2 ∧ t.time = 8 * usec ∧ t.siteOn 1295) = true ∧
    leaves (.ponDone 71 [1295]) ((rg 3).setRgn 71 { RegionSt.init with trans := some (2, 0) }) (fun t => t.region 71 = 2 ∧ t.fld (pgFUS 1) 0x044 24 8 = 1) = true ∧
    leaves (.gateDone 71) ((rg 4).setRgn 71 { RegionSt.init with trans := some (1, 0), opened := true }) (fun t => t.region 71 = 1 ∧ t.fld (pgPRG 71) 0x050 10 10 = 600) = true ∧
    leaves (.gateDone 71) ((rg 1).setRgn 71 { RegionSt.init with trans := some (0, 0), opened := true }) (fun t => t.region 71 = 0 ∧ t.spadWord 1295 0 = ⟨0, true⟩ ∧
      t.time = 3 * usec) = true := by decide +kernel

theorem test_gate_switch_open : leaves (.gateSwitchOpen 71) { (rg 4).setRgn 71 { RegionSt.init with trans := some (1, 0) } with telSwap := msec, time := msec }
    (fun t => (t.rgn 71).opened ∧ (t.rgn 71).trans = some (1, msec) ∧ t.fld (pgPRG 71) 0x050 0 10 = 0) = true := by decide +kernel

theorem test_trim : leaves (.trimChange 71 false) (rg 2) (fun t => (t.hdr (pgPRG 71)).wlock) = true ∧ (rg 2).runs (pgPRG 71) = true ∧
    leaves (.trimChange 71 false) ((rg 2).setBlk (blkOf (pgPRG 71)) ⟨false, false, false, false, none, false, false, 0⟩) (fun t => !t.flag (pgPRG 71) 0x040 0) = true := by decide +kernel

theorem test_phase_faults : (rg 2).flag (pgPRG 71) 0x05C 7 = true ∧ leaves (.phaseFault 71 7 false) (rg 2) (fun t => t.fld (pgPRG 71) 0x04C 8 4 = 7 ∧ bitOf (t.hdr (pgPRG 71)).err 8) = true ∧
    leaves (.phaseFault 71 7 false) ((rg 2).setFld (pgPRG 71) 0x05C 0 8 0xFE) (fun t => t.fld (pgPRG 71) 0x04C 8 4 = 6 ∧ bitOf (t.hdr (pgPRG 71)).err 9) = true ∧
    leaves (.phaseFault 71 7 false) ((rg 0).setFld (pgPRG 71) 0x05C 0 8 0xFC) (fun t => t.region 71 = 5) = true ∧
    leaves (.phaseFault 71 7 false) ((rg 2).setFld (pgPRG 71) 0x05C 0 8 0x7F) (fun t => t.region 71 = 2) = true := by decide +kernel

theorem test_over_limit : leaves (.overLimit 71 0) (rg 2) (fun t => t.fld (pgPRG 71) 0x054 16 9 = 0 ∧ t.time = msec) = true ∧
    leaves (.overLimit 71 511) ((go (rg 2) pgPWR).setFld pgPWR 0x040 2 1 1) (fun t => bitOf (t.hdr (pgPRG 71)).err 11 ∧ t.lskip 71 = 2) = true := by decide +kernel

theorem test_trip : leaves (.regionTrip 71 2 7 511) (rg 0) (fun t => t.region 71 = 5 ∧ t.nv.lost = [71] ∧ t.reg (pgPRG 71) 0x060 = 3 + 28 + 511 * 2 ^ 8) = true ∧
    leaves (.regionTrip 71 2 7 511) (rg 5) (fun t => t.nv.lost = []) = true := by decide +kernel

/-- The three converters of facet 11 as a mask, alike in its six pages. -/
def ib (m : Nat) : State := (List.range 6).foldl (fun t i => t.setFld (pgPRG (66 + i)) 0x080 0 3 m) State.reset

theorem test_converters : leaves (.ibcFailure 11 2) (ib 7) (fun t => t.ibcs 71 = 2 ∧ t.fld (pgPRG 71) 0x080 16 11 = 1200 ∧ bitOf (t.hdr (pgPRG 71)).err 13) = true ∧
    leaves (.ibcFailure 11 2) (ib 5) (fun t => t.ibcs 71 = 1 ∧ bitOf (t.reg (pgFLT 3) 0x040) 5) = true ∧
    (ib 4).ibcs 71 = 1 ∧
    leaves (.domainConverterFailure 2 1) (State.reset.setFld pgPWR 0x068 0 6 63) (fun t => t.fld pgPWR 0x068 0 6 = 31 ∧ bitOf (t.hdr pgPWR).err 13) = true ∧
    leaves (.domainConverterFailure 0 1) (State.reset.setFld pgPWR 0x068 0 6 62) (fun t => t.optState 0 = optDOWN ∧ bitOf (t.reg (pgFLT 3) 0x040) 5) = true ∧
    leaves (.domainConverterFailure 2 1) (State.reset.setFld pgPWR 0x068 0 6 31) (fun t => t.fld pgPWR 0x068 0 6 = 31 ∧ (t.hdr pgPWR).err = 0) = true := by decide +kernel

theorem test_supply : leaves (.supplyExcursion 43999) State.reset (fun t => t.fld pgPWR 0x064 0 16 = 43999 ∧ bitOf (t.hdr pgPWR).err 12) = true ∧
    leaves (.inputCutoff 40000) State.reset (fun t => t.boot.powered ∧ t.boot.stopCause = 0) = true := by decide +kernel

theorem test_cutoff : leaves (.inputCutoff 39999) (rg 5) (fun t => t.region 71 = 5 ∧ t.region 0 = 0 ∧ t.flag pgPWR 0x06C 1 ∧ t.boot.stopCause = 4 ∧ t.boot.powered) = true ∧
    leaves .epo (rg 1) (fun t => t.region 71 = 0 ∧ !t.boot.powered ∧ t.boot.epo) = true := by decide +kernel

/-! ### Power budget -/

/-- The controller acts; input at 48 V; CAP_EFF comes out at the reset cap or by the current term. -/
def pw : State := ((go State.reset pgPWR).setFld pgPWR 0x064 0 16 48000).setFld pgPWR 0x040 0 3 7
def pwCap : Nat := max 1000 (min (pw.fld pgPWR 0x044 0 14) (48000 * pw.fld pgPWR 0x048 0 9 / 1000) - pw.fld pgPWR 0x04C 0 14)
/-- The power has been low since 0, the last fall was at 0, G is 3. -/
def pwLow : State := ({ pw with ctl := { Ctl.init with lowSince := some 0 }, time := 90 * usec } : State).setG 3

theorem test_control : pw.ctrlActs = true ∧ pwLow.ctl.lowSince = some 0 ∧
    leaves (.controlUpdate 13000 48000 0 []) (State.reset.setG 3) (fun t => t.gLevel = 0 ∧ t.fld pgPWR 0x060 0 14 = 13000 ∧ t.time = 10 * usec) = true ∧
    leaves (.controlUpdate 13001 48000 0 []) ((pw.setG 3).setBlk (blkOf pgPWR) ⟨true, true, true, false, none, false, false, 0⟩) (fun t => t.gLevel = 3 ∧
      t.flag pgPWR 0x054 19 ∧ t.fld pgPWR 0x054 0 14 = pwCap) = true := by decide +kernel

theorem test_skip_rules : (pw.setFld pgPWR 0x054 0 14 pwCap).gLevel = 0 ∧ ((pw.setFld pgPWR 0x054 0 14 pwCap).skipRules (pwCap + 1)).gLevel = 1 ∧
    (((pw.setG 3).setFld pgPWR 0x054 0 14 pwCap).skipRules pwCap).gLevel = 3 ∧
    (({ pwLow with time := 100 * usec }).skipRules 0).gLevel = 2 ∧ (({ pwLow with time := 100 * usec - 1 }).skipRules 0).gLevel = 3 := by decide +kernel

theorem test_emergency : leaves (.emerg 13001) State.reset (fun t => t.gLevel = 1 ∧ t.flag pgPWR 0x054 19 ∧ bitOf (t.hdr pgPWR).err 8 ∧ t.time = usec) = true ∧
    leaves (.emerg 13001) (State.reset.setG 15) (fun t => t.gLevel = 15) = true ∧
    leaves (.emerg 13000) (State.reset.setFld pgPWR 0x054 19 1 1) (fun t => t.gLevel = 0 ∧ !t.flag pgPWR 0x054 19) = true := by decide +kernel

/-- The floor condition holds, at a step of firmware's answer. -/
def fl (n : Nat) : State := { (rg 2).setFld pgPWR 0x054 18 1 1 with ctl := { Ctl.init with floorStep := n } }

theorem test_floor : (rg 2).flag pgPWR 0x054 18 = false ∧ leaves (.floor []) (fl 0) (fun t => t.ctl.floorStep = 1) = true ∧
    leaves (.floor [71]) (fl 1) (fun t => t.region 71 = 4 ∧ (t.rgn 71).trans = some (1, 10 * msec) ∧ t.ctl.floorStep = 2) = true ∧
    leaves (.floor [71]) (fl 2) (fun t => t.flag pgPWR 0x05C 7 ∧ t.flag pgPWR 0x058 7 ∧ t.ctl.floorStep = 3) = true ∧
    leaves .capUnreachableClear { (fl 3).setFld pgPWR 0x05C 7 1 1 with ctl := { Ctl.init with floorStep := 3, okSince := some 5 } } (fun t =>
      !t.flag pgPWR 0x05C 7 ∧ t.time = 100 * msec + 5 ∧ t.ctl.floorStep = 0) = true := by decide +kernel

theorem test_skip_decay : pw.localActs = true ∧ (pw.rgn 71).causes = [] ∧ pw.lskip 71 = 0 ∧
    leaves (.localSkipDecay 71) (pw.setLskip 71 15) (fun t => t.lskip 71 = 14 ∧ t.time = 10 * msec) = true := by decide +kernel

theorem test_thermal : on.thr = 0x8C0 ∧ ((go on pgPWR).setFld pgPWR 0x040 0 3 7).localActs = true ∧
    leaves (.thermalThreshold 0 0x8C0) ((go on pgPWR).setFld pgPWR 0x040 0 3 7) (fun t => t.lskip 0 = 1 ∧ bitOf (t.hdr pgPWR).err 10 ∧
      t.fld (pgTEL 0 1) 0x040 0 12 = 0x8C0 ∧ t.fld (pgTEL 0 1) 0x044 0 12 = 0x8C0) = true ∧
    leaves (.thermalThreshold 0 0x8BF) ((go on pgPWR).setFld pgPWR 0x040 0 3 7) (fun t => t.lskip 0 = 0 ∧ t.ctl.hot = []) = true ∧
    leaves .thermalDownStep { pw.setFld pgTIM 0x05C 0 3 6 with ctl := { Ctl.init with hot := [(2015, 0)] } } (fun t =>
      t.stepPend.map (fun p => (p.target, p.reasons, p.ctrl)) = some (7, [2], true) ∧ t.time = 10 * msec) = true := by decide +kernel

theorem test_thermal_trip : leaves (.thermalTrip 1295 0x95F) State.reset (fun t => t.boot.stopCause = 0) = true ∧
    leaves (.thermalTrip 1295 0x960) (rg 5) (fun t => t.region 71 = 5 ∧ t.region 0 = 0 ∧ t.fld pgPWR 0x06C 20 12 = 1295 ∧ t.boot.stopCause = 3 ∧
      t.boot.tripAt = some (10 * usec)) = true := by decide +kernel

/-- A job of an operator's step and phase table, at step 6. -/
def jobAt (c : JobCfg) : State := { pw.setFld pgTIM 0x05C 0 3 6 with job := some { jb 2 with cfg := c } }

theorem test_step_raise : (jobAt (cfg 2)).mayRaise [] 0 = true ∧ (jobAt { cfg 2 with step := 6 }).mayRaise [] 0 = false ∧
    leaves (.stepRaise [] 0) (jobAt (cfg 2)) (fun t => t.stepPend.map (fun p => (p.target, p.ctrl)) = some (5, false)) = true := by decide +kernel

theorem test_pacing : leaves (.waitShare 101) State.reset (fun t => t.flag pgPWR 0x05C 4 ∧ t.flag pgPWR 0x058 4 ∧ t.time = 10 * msec) = true ∧
    leaves (.waitShare 100) State.reset (fun t => !t.flag pgPWR 0x05C 4) = true ∧
    leaves (.paceWindow 401 [] 0) (jobAt (cfg 2)) (fun t => t.time = 100 * msec ∧ t.stepPend = none) = true ∧ paceStep 6 2500 = 7 ∧
    leaves (.paceWindow 2500 [] 0) (jobAt { cfg 2 with pacing := true }) (fun t => t.stepPend.map (·.target) = some 7 ∧ t.ctl.paceHold ∧ t.flag pgPWR 0x05C 4) = true := by
  decide +kernel

/-! ### Metering and receipts -/

def iv0 (n : Nat) : Interval := ⟨n, 7, [], 0, 0, 0, 7, [], [], [], 7, false, [], [], true, false⟩
def mtd (m : Mtr) : State := { State.reset with mtr := m }

theorem test_meter : leaves (.meterIntervalEnd ⟨[], [], [], [], []⟩) State.reset (fun t => t.time = msec ∧ t.mtr.at_ = msec ∧ t.mtr.total = 0) = true ∧
    (go State.reset pgMTR).runs pgMTR = true ∧ ((go State.reset pgMTR).setFld pgMTR 0x040 0 1 1).flag pgMTR 0x040 0 = true ∧
    (mtd { Mtr.init with commit := some [(0, 5)] }).mtr.commit = some [(0, 5)] := by decide +kernel

theorem test_attribution : (mtd { Mtr.init with intervals := [iv0 3, iv0 4] }).mtr.intervals = iv0 3 :: [iv0 4] ∧
    leaves .attributionLate (mtd { Mtr.init with intervals := [iv0 3] }) (fun t => t.time = 5 * msec ∧ bitOf (t.hdr pgMTR).err 9 ∧
      t.mtr.intervals = [{ iv0 3 with late := true }]) = true ∧
    leaves .attributionLate (mtd { Mtr.init with intervals := [{ iv0 3 with attr := false }] }) (fun t => t.time = 0) = true ∧
    leaves (.attribution []) (mtd { Mtr.init with intervals := [{ iv0 3 with attr := false }] }) (fun t => t.mtr.intervals = [] ∧ t.mtr.tables.length = 1 ∧
      t.reg pgMTR 0x08C = State.reset.reg pgMTR 0x08C) = true ∧
    (iv0 3).attr = true ∧ (iv0 3).late = false ∧ ((iv0 3).n + 2) * msec < 6 * msec ∧ (mtd Mtr.init).time ≤ ((iv0 3).n + 2) * msec := by decide +kernel

/-- One request under tag 0, whose table gives it 6 nJ of the 7 nJ drawn. -/
def rsh : State := { md 2 with mtr := { Mtr.init with tables := [⟨3, 7, false, [⟨0, 3, 2, 1, 0⟩]⟩] }, reqs := [rq0 .live], job := some { jb 2 with cfg := { cfg 2 with tagKinds := [(0, 1)] } } }

theorem test_request_share : leaves (.requestShare []) (mtd { Mtr.init with tables := [⟨3, 7, false, []⟩] }) (fun t => t.mtr.tables = [] ∧ t.mtr.shared = 4 ∧
      t.mtr.flows = [(3, 7, 0, false)]) = true ∧
    leaves (.requestShare [(0, [(0, 1)])]) rsh (fun t => t.mtr.shared = 4 ∧ t.mtr.flows = [(3, 7, 7, false)] ∧
      t.reqs.map (fun q => (Energy.total q.energy, q.energy.1)) = [(7, 3)]) = true ∧ rsh.serving = true ∧ (rq0 .live).seq = 0 := by decide +kernel

theorem test_division : ([(1, 0, 1), (2, 1, 1), (3, 2, 1)].map fun (e : Nat × Nat × Nat) => e.2.1).Nodup ∧
    largestRemainder 10 [(1, 0, 1), (2, 1, 1), (3, 2, 1)] = [(1, 4), (2, 3), (3, 3)] := by decide +kernel

def rp0 : Sys2Proof.Machine.Pending := ⟨2, 3, 1, 9, 0, none, (0, 0, 0), (0, 0, 0, 0), (0, 0), (0, 0), 0, 0, 0, 0, 2, 0, 5⟩
def rcd (r : Rcp) : State := { go State.reset pgRCP with rcp := r, mtr := { Mtr.init with shared := 4 }, nv := { Nv.init with rsv := 1 } }

theorem test_seal_receipt : (rcd Rcp.init).sealable = none ∧ (rcd { Rcp.init with waiting := [{ rp0 with interval := 4 }] }).sealable = none ∧
    leaves .receiptSeal (rcd { Rcp.init with waiting := [rp0] }) (fun t => t.rcp.waiting = [] ∧ t.rcp.sealed.map (fun e => (e.1, e.2.1)) = [(0, 0)] ∧
      t.reg64 pgRCP 0x058 = 1) = true := by decide +kernel

theorem test_flacon_waits : leaves (.flaconBuild true) { rcd Rcp.init with mtr := { Mtr.init with intervals := [iv0 99] } } (fun t => t.time = 0 ∧ t.rcp = Rcp.init) = true ∧
    leaves (.flaconBuild true) (rcd { Rcp.init with failing := some 0 }) (fun t => t.rcp.held.map (·.fnum) = [0] ∧ t.rcp.next = 1 ∧ t.time = period) = true := by
  decide +kernel

theorem test_flacon_signs : (rcd Rcp.init).enabled pgRCP = true ∧ (rcd Rcp.init).halting pgRCP = false ∧
    (rcd Rcp.init).reg64 pgRCP 0x060 < 1024 * (rcd Rcp.init).nv.rsv ∧ ((rcd Rcp.init).reg64 pgRCP 0x060 + 1) % 1024 ≠ 512 ∧
    (rcd Rcp.init).reg64 pgRCP 0x060 + 1 ≤ 2 ^ 40 - 2 ^ 24 := by decide +kernel

theorem test_reservation : leaves (.reservationRetry false) (rcd { Rcp.init with failing := some 0 }) (fun t => t.time = second ∧ t.rcp.tried = second ∧
      bitOf (t.hdr pgRCP).err 8) = true ∧
    leaves (.reservationRetry true) (rcd { Rcp.init with failing := some 0, admitHold := true }) (fun t => t.rcp.failing = none ∧ !t.rcp.admitHold ∧
      t.nv.rsv = 2 ∧ t.reg64 pgRCP 0x068 = 2048) = true ∧
    leaves .signingStall (rcd { Rcp.init with failing := some 0 }) (fun t => t.time = 60 * second ∧ bitOf (t.reg (pgFLT 3) 0x040) 7) = true ∧
    leaves .signingStall ((rcd { Rcp.init with failing := some 0 }).setReg (pgFLT 3) 0x040 128) (fun t => t.time = 3600 * second ∧ t.rcp.admitHold) = true := by
  decide +kernel

theorem test_trees : leaves .nextTreeReady (State.reset.setReg64 pgRCP 0x060 (2 ^ 19)) (fun t => t.flag pgRCP 0x040 2) = true ∧
    leaves .nextTreeReady (State.reset.setReg64 pgRCP 0x060 (2 ^ 19 - 1)) (fun t => !t.flag pgRCP 0x040 2) = true ∧
    leaves .rolloverDone (rcd { Rcp.init with rolling := some 0 }) (fun t => t.rcp.rolling = none ∧ t.rcp.newKey = some 1) = true := by decide +kernel

/-! ### Presence, the seal and guarded writes -/

/-- The presence window open; the seal loop closed. -/
def prs (m : Mtr) : State := { (State.reset.setFld pgSEAL 0x040 9 1 1).setFld pgSEAL 0x040 0 1 1 with sealLoop := ⟨some (120 * second), none, false⟩, mtr := m, reqs := [rq0 .live] }

theorem test_presence : leaves (.presenceButton 49) State.reset (fun t => t.time = 49 * msec ∧ !t.presOpen) = true ∧
    leaves (.presenceButton 50) State.reset (fun t => t.presOpen ∧ t.sealLoop.window = some (50 * msec + 120 * second) ∧ t.flag pgSEAL 0x040 9) = true ∧
    leaves (.presenceButton 10000) State.reset (fun t => t.presOpen) = true ∧ leaves (.presenceButton 10001) State.reset (fun t => !t.presOpen) = true ∧
    leaves .presenceExpiry (prs { Mtr.init with staging := some [] }) (fun t => t.time = 120 * second ∧ !t.presOpen ∧ t.mtr.staging = none) = true ∧
    leaves .presClose (prs { Mtr.init with staging := some [] }) (fun t => t.time = 0 ∧ !t.presOpen ∧ t.mtr.staging = none) = true := by decide +kernel

theorem test_seal : leaves (.sealOpen true) (State.reset.setFld pgSEAL 0x040 0 1 0) (fun t => t.time = 10 * msec ∧ t.sealCount = 0) = true ∧
    leaves (.sealOpen true) (prs Mtr.init) (fun t => t.sealCount = 1 ∧ !t.nv.loopClosed ∧ bitOf (t.hdr pgSEAL).err 8 ∧ t.reqs.all (fun r => bitOf r.rflags 0)) = true ∧
    leaves (.sealOpen false) (prs Mtr.init) (fun t => t.sealCount = 0 ∧ bitOf (t.hdr pgSEAL).err 10 ∧ t.flag pgSEAL 0x040 8) = true ∧
    leaves (.sealOpen true) (injd (prs Mtr.init) pgSEAL 10) (fun t => t.sealCount = 0 ∧ bitOf (t.hdr pgSEAL).err 10 ∧ t.flag pgSEAL 0x040 8) = true ∧
    leaves .sealClose ((prs { Mtr.init with staging := some [] }).setFld pgSEAL 0x040 0 1 0) (fun t => t.flag pgSEAL 0x040 0 ∧ t.mtr.staging = none) = true ∧
    leaves .sealClose (prs { Mtr.init with staging := some [] }) (fun t => t.mtr.staging = some []) = true := by decide +kernel

theorem test_guarded : leaves (.calData 5) State.reset (fun t => (t.hdr pgMTR).wlock ∧ bitOf (t.hdr pgMTR).err 2 ∧ t.mtr = Mtr.init) = true ∧
    leaves .rollover State.reset (fun t => (t.hdr pgRCP).wlock) = true ∧ (prs Mtr.init).presOpen = true ∧
    leaves .rollover (prs Mtr.init) (fun t => t.rcp.rolling = some 0 ∧ t.flag pgRCP 0x040 1) = true := by decide +kernel

theorem test_calibration : (prs Mtr.init).calAllowed = false ∧ leaves (.calData 5) (prs Mtr.init) (fun t => (t.hdr pgMTR).wlock ∧ bitOf (t.hdr pgMTR).err 8) = true ∧
    ((prs Mtr.init).setFld pgSEAL 0x040 0 1 0).calAllowed = true ∧
    leaves (.calData 5) ((prs Mtr.init).setFld pgSEAL 0x040 0 1 0) (fun t => t.mtr.staging.isSome ∧ t.flag pgMTR 0x044 2) = true ∧
    leaves .discard ((prs { Mtr.init with staging := some [] }).setFld pgSEAL 0x040 0 1 0) (fun t => t.mtr.staging = none ∧ !t.flag pgMTR 0x044 2) = true := by decide +kernel

/-! ### Errors, poison and restarts -/

/-- Bit 3 of the error mask of page FLT 0. -/
def mskd : State := State.reset.setHdr (pgFLT 0) { State.reset.hdr (pgFLT 0) with mask := 8 }

theorem test_masked : pageExists (pgFLT 0) = true ∧ errDefined (pgFLT 0) 3 = true ∧ errDefined (pgFLT 0) 31 = false ∧
    leaves (.errReport (pgFLT 0) 3) mskd (fun t => bitOf (t.hdr (pgFLT 0)).err 3 ∧ !bitOf (t.pgStatus (pgFLT 0)) 2 ∧ t.log = [] ∧ t.colls = []) = true ∧
    leaves (.errReport (pgFLT 0) 3) State.reset (fun t => bitOf (t.hdr (pgFLT 0)).err 3 ∧ bitOf (t.pgStatus (pgFLT 0)) 2) = true := by decide +kernel

theorem test_error_counts : leaves (.errReport (pgSPD 1295 0) 9) (State.reset.setHdr (pgSPD 1295 0) ⟨0, 0, 0, 0xFFFF, 0, false, false⟩) (fun t =>
      (t.hdr (pgSPD 1295 0)).corr = 0xFFFF) = true ∧
    leaves (.errReport (pgSPD 1295 0) 8) State.reset (fun t => (t.hdr (pgSPD 1295 0)).unc = 1 ∧ (t.hdr (pgSPD 1295 0)).corr = 0) = true := by decide +kernel

def ent (n : Nat) (a : Bool) : CoalEntry := ⟨pgSPD 0 0, 9, 1, 0, 0, 0, n, [], a⟩
def col (e : CoalEntry) : State := { State.reset with colls := [(12, { Collector.init with entries := [e] })] }

theorem test_collector : leaves (.collectorInterval 12) (col (ent 3 true)) (fun t => t.log.map (fun r => (r.count, r.bit)) = [(3, 9)] ∧
      (t.coll 12).entries = [ent 0 false] ∧ t.time = msec) = true ∧
    leaves (.collectorInterval 12) (col (ent 0 true)) (fun t => (t.coll 12).entries = [ent 0 false] ∧ t.log = []) = true ∧
    leaves (.collectorInterval 12) (col (ent 0 false)) (fun t => (t.coll 12).entries = []) = true ∧ (col (ent 0 false)).waiting = 0 := by decide +kernel

theorem test_log : leaves .fltPop { State.reset with log := [⟨0, 0, 1, 0, 0, 0, 0, 0, 0, []⟩] } (fun t => t.log = []) = true ∧
    leaves .swSubmit State.reset (fun t => bitOf (t.hdr (pgFLT 0)).err 11) = true ∧
    leaves .swSubmit (injd (State.reset.setReg (pgFLT 2) 0x050 1) (pgFLT 0) 11) (fun t => bitOf (t.hdr (pgFLT 0)).err 11 ∧ t.log.length = 1) = true ∧
    leaves .swSubmit (State.reset.setReg (pgFLT 2) 0x050 1) (fun t => t.log.map (fun r => (r.count, r.coll, r.seqno)) = [(1, 12, 0)]) = true ∧
    leaves (.fltReplaceSet 0x800) (State.reset.setReg (pgFLT 3) 0x040 1) (fun t => t.reg (pgFLT 3) 0x040 = 0x801) = true := by decide +kernel

def st0 (bad again : Bool) : SeqStep := ⟨0, [], [[0]], [], 0, bad, again, 0⟩
/-- Slot 2 has a step; the job places LTN 0 at site 5, whose restore list covers scratchpad word 2; perhaps that word is an origin. -/
def pz (s : SeqStep) (o : List Origin) : State := { pl with reqs := [{ rq0 .live with step := some s }], origins := o }
def og (d : Option Nat) : Origin := ⟨0, pgSPD 5 0, 5, 2, some 0, d⟩

theorem test_poison : (pz (st0 true false) []).job.isSome = true ∧ (pz (st0 true false) [og none]).weightLtn (og none) = some 0 ∧
    leaves (.poisonClassify false 2) (pz (st0 true false) []) (fun t => t.reqAt 2 = none) = true ∧
    leaves (.poisonClassify false 2) (pz (st0 true false) [og none]) (fun t => t.reqs.map (fun r => r.step) = [some (st0 false true)]) = true ∧
    leaves (.poisonClassify false 2) (pz (st0 false false) []) (fun t => t.time = 0) = true ∧
    leaves (.stepReissue false 2 wk) (pz (st0 false true) [og (some 0)]) (fun t => t.reqs.map (fun r => r.step) = [some (st0 false false)]) = true ∧
    leaves (.stepReissue false 2 wk) (pz (st0 false false) []) (fun t => t.reqs.map (fun r => r.step) = [some (st0 false false)]) = true := by decide +kernel

/-- The golden copies of the job are in channel 0. -/
def gold (s : State) : State := ({ s with chanMaps := [(0, List.replicate 376 5)] } : State).memPut 2 (directBase + 4096) (List.replicate 8 ⟨0, false⟩)

theorem test_weight_refetch : leaves (.weightRefetch 0) (gold (pz (st0 false true) [og none])) (fun t => t.spadWord 5 2 = ⟨0, false⟩ ∧
      t.origins.all (fun o => o.done.isSome)) = true ∧ (pz (st0 false true) []).origins[0]? = none ∧
    (pz (st0 false true) [og none]).poisonStorm 5 = false ∧ (gold pl).memGet (directBase + 4096) = ⟨0, false⟩ := by decide +kernel

/-- The QUERY of the empty span is held, alone or with an origin. -/
def hq (o : List Origin) : State := { md 3 with heldQ := [⟨qy false, 0⟩], origins := o }

/-- The same, where LTN 0, whose tile is the layer's lane, has its weights in the origin's word. -/
def hqx : State := { hq [og none] with job := some { jb 3 with place := plc [img] } }

theorem test_held_query : ((hq []).waitTime (20 * usec)).exposing (some 0) 0 0 = [] ∧ (hq []).heldQ[0]? = some ⟨qy false, 0⟩ ∧
    ((hqx).waitTime (20 * usec)).exposing (some (qy false).layer) 0 0 = [og none] ∧ leaves (.poisonClassify true 0) hqx (fun t => t.heldQ.length = 1) = true ∧
    leaves (.stepReissue true 0 wk) hqx (fun t => t.heldQ.length = 1 ∧ t.outbox = []) = true ∧
    leaves (.poisonClassify true 0) { opn with heldQ := [⟨qy false, 0⟩] } (fun t => t.heldQ = [] ∧ t.outbox.map (fun m => m.kind) = ["PARTIAL"]) = true := by
  decide +kernel

theorem test_restart : pl.siteClass (pl.ltnSite 0) = .bound ∧ State.reset.siteClass 7 ≠ .bound ∧ img.rlist.all (fun e => ((gold pl).restWords e).isSome) = true ∧
    leaves (.inPlaceRestart 0 [] false) (gold pl) (fun t => (t.job.map fun j => j.stages) = some [.draining]) = true := by decide +kernel

def sr (f : Bool) : ScreenRes := ⟨2001, 0, none, none, none, f, []⟩
def scr : State := { State.reset with nv := { Nv.init with packs := [(4, 1)] } }

theorem test_screening : leaves (.screeningRun 1295 5 (sr true)) scr (fun t => t.outbox = []) = true ∧ (scr.nv.packs.find? fun e => e.1 == 4) = some (4, 1) ∧
    (sr true).verdict = 1 ∧ (sr false).verdict = 0 := by decide +kernel

theorem test_loupe : leaves (.arm 11) (go State.reset (pgLOUPE 11)) (fun t => (t.loupeOf 11).armed) = true ∧ State.reset.enabled (pgLOUPE 11) = false ∧
    leaves (.stop 11) { State.reset with loupes := [(11, { Loupe.init with armed := true })] } (fun t => !(t.loupeOf 11).armed ∧ (t.loupeOf 11).stopped) = true ∧
    leaves (.clear 11) { State.reset with loupes := [(11, { Loupe.init with entries := [⟨0, 0, 0, 0, []⟩] })] } (fun t => (t.loupeOf 11).entries = []) = true := by
  decide +kernel

/-! ### Broadcasts -/

theorem test_bc_start : leaves (.bcStart [] []) State.reset (fun t => (t.hdr pgSVC).wlock ∧ !t.bcast.open_) = true := by decide +kernel

/-- A chunk of one byte has reached site 1295. -/
def chk (c : BcSite) : State := { (State.reset.setRegion 71 2) with delivered := [(1295, clChunk, chunkWords 3 0 [9])], bc := [(1295, c)] }

theorem test_chunk : leaves (.broadcastChunk 1295 false) (chk BcSite.init) (fun t => t.delivered = [] ∧ t.staging = []) = true ∧
    leaves (.broadcastChunk 1295 true) (chk BcSite.init) (fun t => t.delivered = [] ∧ (t.bcSite 1295).st = 3 ∧ memByte t.staging (imemKey 1295 0) = 9) = true ∧
    leaves (.broadcastChunk 1294 true) (chk BcSite.init) (fun t => t.delivered.length = 1) = true := by decide +kernel

theorem test_scan : State.reset.bcast.open_ = false ∧ State.reset.fld pgSVC 0x0CC 0 11 < 1296 := by decide +kernel

theorem test_repair : leaves (.repair []) (State.reset.setFld pgSVC 0x0CC 0 11 1296) (fun t => t.bcast.repairs = []) = true ∧
    leaves (.repair []) ((chk { BcSite.init with st := 3 }).setFld pgSVC 0x0CC 0 11 1295) (fun t => (t.bcSite 1295).st = 1 ∧ t.bcast.repairs = [(1295, 1)]) = true := by
  decide +kernel

def vrf : BcSite := ⟨2, 0, 1, [0], [], none, false⟩

theorem test_image_commit : leaves (.imageCommit 1295) { chk { vrf with commit := some 5 } with staging := [(imemKey 1295 0, 9)] } (fun t => t.time = 5 ∧
      (t.bcSite 1295).st = 4 ∧ t.flag (pgSEQ 1295 0) 0x050 0) = true ∧
    leaves (.imageCommit 1295) (chk vrf) (fun t => t.time = 0 ∧ (t.bcSite 1295).st = 2) = true := by decide +kernel

theorem test_image_commit_waits :
    let s : State := { chk { vrf with commit := some 5 } with job := some { jb 2 with substs := [sb (some ⟨1295, [], []⟩)] } }
    s.substituting 1295 = true ∧ leaves (.imageCommit 1295) s (fun t => (t.bcSite 1295).commit = some 5 ∧ (t.bcSite 1295).st = 2) = true := by
  decide +kernel

theorem test_abort : leaves .abort { State.reset with bcast := ⟨true, false, false, [9], []⟩ } (fun t => !t.bcast.open_ ∧ t.bcast.image = [9]) = true := by decide +kernel

theorem test_bc_commit : ∃ x : Site, (chk vrf).siteOn x.val = true ∧ ((chk vrf).bcSite x.val).st = 2 ∧ ((chk vrf).bcSite x.val).img = (chk vrf).fld pgSVC 0x084 0 16 :=
  ⟨1295, by decide +kernel⟩

/-! ### The sideband bus -/

def i3 (a : Option Nat) : State := { State.reset with i3c := ⟨a, 9⟩ }

theorem test_i3c : State.reset.boot.powered = true ∧ leaves (.i3cPrivateRead 0x3A 16) (i3 (some 0x3A)) (fun t => t.outbox.map (fun m => m.words.length) = [7]) = true ∧
    leaves (.i3cPrivateRead 0x3B 16) (i3 (some 0x3A)) (fun t => t.outbox = []) = true ∧
    leaves (.i3cPrivateWrite 0x3A [15]) (i3 (some 0x3A)) (fun t => t.i3c.off = 15) = true ∧
    leaves (.i3cPrivateWrite 0x3A [16]) (i3 (some 0x3A)) (fun t => t.i3c.off = 9 ∧ t.outbox.map (fun m => m.kind) = ["NACK"]) = true ∧
    leaves (.i3cPrivateWrite 0x3A [1, 2]) (i3 (some 0x3A)) (fun t => t.i3c.off = 9) = true ∧
    leaves (.getpid 0x3A) (i3 (some 0x3A)) (fun t => t.outbox.map (fun m => m.words.length) = [6]) = true ∧
    leaves .rstdaa (i3 (some 0x3A)) (fun t => t.i3c.addr = none) = true ∧ leaves (.entdaa 8) (i3 none) (fun t => t.i3c.addr = some 8) = true ∧
    leaves (.entdaa 8) (i3 (some 9)) (fun t => t.i3c.addr = some 9) = true ∧ leaves (.setdasa 0x3A 8) (i3 none) (fun t => t.i3c.addr = some 8) = true ∧
    leaves (.setdasa 0x3B 8) (i3 none) (fun t => t.i3c.addr = none) = true := by decide +kernel

/-! ### The pair -/

/-- A module of a pair in a state of Table 21.1, its page running, with a Generation job and what it holds of the pair. -/
def pr (v : Nat) (p : Pair) : State := { (go (md 2) pgPAIR).setPairSt v with pair := p }

theorem test_hello : (md 2).pairSt = 0 ∧ leaves (.hello 1 0 0) (md 2) (fun t => t.reg pgPAIR 0x058 = 0) = true ∧
    leaves (.hello 1 0 0) { (pr 1 Pair.init).setFld pgPAIR 0x054 4 1 1 with reqs := [rq0 .live] } (fun t => t.pairSt = 4 ∧ t.reg pgPAIR 0x058 = 1 ∧
      t.reqs.all (fun q => !q.isLive) ∧ !t.flag pgPAIR 0x054 4) = true ∧
    leaves (.hello 1 0 0) (pr 3 Pair.init) (fun t => t.pairSt = 3 ∧ t.reg pgPAIR 0x058 = 1) = true ∧
    leaves (.hello 0 0 0) (pr 1 Pair.init) (fun t => t.pairSt = 1) = true ∧
    leaves .helloSend (pr 1 Pair.init) (fun t => t.time = 100 * usec ∧ t.pair.helloAt = 100 * usec) = true ∧
    leaves .pairSenseAsserted (pr 4 { Pair.init with complete := true }) (fun t => t.pairSt = 3 ∧ t.time = msec) = true ∧
    leaves .pairSenseAsserted (pr 4 Pair.init) (fun t => t.pairSt = 4 ∧ t.pair.senseOk) = true := by decide +kernel

/-- A module of a pair whose first pair port, port 31, is UP with JOBOK. -/
def prx (v : Nat) (p : Pair) : State :=
  let s := (up PortSt.init).setFld (pgOPT 31) 0x044 7 1 1
  { (((go s pgPAIR).setFld pgPAIR 0x040 3 5 31).setPairSt v) with pair := p, job := some (jb 2) }

theorem test_pair_messages : (prx 4 Pair.init).pairClear = true ∧ (prx 4 Pair.init).runs pgPAIR = true ∧ (prx 4 Pair.init).pairPort = some 31 ∧
    leaves .helloSend (prx 1 Pair.init) (fun t => t.outbox.length = 1) = true ∧
    leaves .helloSend ((prx 1 Pair.init).setFld (pgOPT 31) 0x044 7 1 0) (fun t => t.outbox = [] ∧ bitOf (t.hdr (pgOPT 31)).err 12) = true ∧
    leaves (.pairStep 1 [⟨2, 0, 1, [7]⟩]) (prx 4 Pair.init) (fun t => t.outbox.map (fun m => m.kind) = ["ACK"]) = true ∧
    leaves .stepCommitted { prx 1 { Pair.init with acked := 1, open_ := [(1, 0, [])] } with mtr := { Mtr.init with shared := 1 } } (fun t =>
      t.outbox.map (fun m => m.kind) = ["COMMIT"]) = true ∧
    leaves .stepCommitted { prx 1 { Pair.init with acked := 1, open_ := [(1, 0, [])] } with job := some (jb 1) } (fun t => t.pair.open_ = []) = true ∧
    leaves .stepCommitted (prx 1 { Pair.init with acked := 1, open_ := [(1, 0, [])] }) (fun t => t.pair.open_.length = 1) = true ∧
    leaves .resync { prx 1 Pair.init with job := some (jb 1) } (fun t => t.outbox.map (fun m => m.kind) = ["STEP", "COMMIT"]) = true := by decide +kernel

theorem test_takeover : leaves .takeover ((pr 3 Pair.init).setFld pgPAIR 0x054 4 1 1) (fun t => t.pairSt = 3 ∧ t.time = 0) = true ∧
    leaves .takeover ((pr 4 Pair.init).setFld pgPAIR 0x04C 0 1 1) (fun t => t.pairSt = 4 ∧ t.time = 10 * usec) = true ∧
    leaves .takeover ((pr 3 Pair.init).setFld pgPAIR 0x04C 0 1 0) (fun t => t.pairSt = 3 ∧ t.time = 10 * usec) = true ∧
    leaves .takeover { (md 2).setPairSt 3 with pair := Pair.init } (fun t => t.pairSt = 3 ∧ t.time = 10 * usec) = true ∧
    leaves .takeover ((pr 3 Pair.init).setFld pgPAIR 0x04C 0 1 1) (fun t => t.pairSt = 2 ∧ t.reg pgPAIR 0x058 = 1 ∧ t.flag pgPAIR 0x054 4 ∧
      t.reg pgPAIR 0x068 = 1 ∧ bitOf (t.hdr pgPAIR).err 10) = true ∧
    leaves .handover ((pr 1 Pair.init).setFld pgPAIR 0x054 4 1 1) (fun t => !t.flag pgPAIR 0x054 4 ∧ t.outbox.map (fun m => m.kind) = ["PAIR_SENSE"]) = true ∧
    leaves .handover (pr 1 Pair.init) (fun t => (t.hdr pgPAIR).wlock) = true ∧ leaves .handover (pr 3 Pair.init) (fun t => !(t.hdr pgPAIR).wlock) = true := by
  decide +kernel

theorem test_pair_stream : (pr 4 Pair.init).mirrors = true ∧ (md 2).mirrors = false ∧
    leaves (.pairStep 1 [⟨2, 0, 1, [7]⟩]) (pr 4 Pair.init) (fun t => t.pair.stepNo = 1 ∧ t.pair.acked = 1 ∧ t.pair.steps.length = 1) = true ∧
    leaves (.pairStep 2 []) (pr 4 Pair.init) (fun t => t.pair.gap ∧ t.pair.stepNo = 2 ∧ t.pairSt = 4 ∧ bitOf (t.hdr pgPAIR).err 9) = true ∧
    leaves (.pairStep 1 []) (pr 4 { Pair.init with gap := true }) (fun t => !t.pair.gap ∧ t.pair.steps = [(1, [])]) = true ∧
    leaves (.delta 1 2 0 5 [9]) (pr 4 Pair.init) (fun t => t.pair.deltas = [⟨1, 2, 0, 5, [9]⟩]) = true ∧
    leaves (.delta 2 2 0 5 [9]) (pr 4 Pair.init) (fun t => t.pair.gap ∧ t.pairSt = 4 ∧ t.pair.deltas = [⟨2, 2, 0, 5, [9]⟩] ∧ bitOf (t.hdr pgPAIR).err 9) = true ∧
    leaves (.delta 0 2 0 5 [9]) (pr 4 Pair.init) (fun t => t.pair.deltas = []) = true := by decide +kernel

theorem test_pair_commit : leaves (.pairCommit 1) (pr 4 { Pair.init with stepNo := 1, senseOk := true }) (fun t => t.pairSt = 3 ∧ t.reg64 pgPAIR 0x060 = 1 ∧ t.pair.complete) = true ∧
    leaves (.pairCommit 1) { pr 3 { Pair.init with stepNo := 1, steps := [(1, [⟨2, 0, 1, [7]⟩])] } with reqs := [rq0 .live] } (fun t =>
      t.reqs.map (fun r => (r.tokens, r.sent, r.last)) = [([(0, 7)], 1, 7)] ∧ t.pair.steps = []) = true := by decide +kernel

theorem test_pair_requests : (pr 3 Pair.init).mirrors = true ∧ (pr 3 Pair.init).reqAt 2 = none ∧ pfield (subw 1) 0x2C 1 = 1 ∧ 101 + 1 ≤ (subw 1 ++ [0]).length ∧
    leaves (.release 2 1) { pr 3 Pair.init with reqs := [rq0 .live] } (fun t => t.reqAt 2 = none ∧ t.reqs.length = 1) = true ∧
    leaves (.release 2 1) (pr 3 Pair.init) (fun t => t.reqs = []) = true := by decide +kernel

theorem test_pair_ack : (pr 2 Pair.init).streams = true ∧ (pr 3 Pair.init).streams = false ∧
    leaves (.pairAck 9) ((pr 2 { Pair.init with stepNo := 3 }).setReg64 pgPAIR 0x060 1) (fun t => t.pair.acked = 3 ∧ t.pairSt = 1) = true ∧
    leaves (.pairAck 0) ((pr 2 { Pair.init with stepNo := 3 }).setReg64 pgPAIR 0x060 1) (fun t => t.pair.acked = 0 ∧ t.pairSt = 2) = true ∧
    leaves (.pairAck 1) (pr 2 { Pair.init with stepNo := 1, held := [(1, ⟨.pin, "X", []⟩)] }) (fun t => t.pair.held = [] ∧ t.outbox.length = 1) = true ∧
    leaves .stepCommitted { pr 1 { Pair.init with acked := 1, open_ := [(1, 0, [])] } with mtr := { Mtr.init with shared := 1 } } (fun t => t.pair.open_ = [] ∧
      t.reg64 pgPAIR 0x060 = 1) = true ∧
    leaves .stepCommitted (pr 1 { Pair.init with open_ := [(1, 0, [])] }) (fun t => t.pair.open_.length = 1) = true := by decide +kernel

theorem test_resync : leaves .resync { pr 1 { Pair.init with open_ := [(4, 0, [])] } with job := some (jb 1) } (fun t => t.pair.stepNo = 1 ∧ t.pair.open_ = [] ∧
    t.pair.need = 1 ∧ t.reg64 pgPAIR 0x060 = 1) = true := by decide +kernel

/-! ### Service -/

/-- The module serves connection 4, with a job of a role; the ROM alone answers on `rom`. -/
def sv (role : Nat) : State := { (md role).setBootStage 11 with conns := [4] }
def rom : State := { ((sv 2).setBootStage 3).setReg (pgGLB 0) 0x040 (3 + 16 + 2 ^ 8) with conns := [4] }

theorem test_connections : (sv 2).svcUp = true ∧ (sv 2).romOnly = false ∧ rom.romOnly = true ∧ rom.svcUp = true ∧ State.reset.svcUp = false ∧
    leaves (.connectionOpen 64) { sv 2 with conns := List.range 63 } (fun t => t.conns.length = 64) = true ∧
    leaves (.connectionOpen 64) { sv 2 with conns := List.range 64 } (fun t => t.conns.length = 64 ∧ t.outbox.map (fun m => m.kind) = ["RESET"]) = true ∧
    leaves (.connectionOpen 4) (sv 2) (fun t => t.conns = [4]) = true ∧
    leaves (.connectionClose 4) { sv 2 with subs := [⟨4, 100, 0, 0, 0⟩], reqs := [{ rq0 .live with conn := some 4 }] } (fun t => t.conns = [] ∧ t.subs = [] ∧
      t.reqs.map (·.conn) = [none]) = true := by decide +kernel

theorem test_headers : leaves (.undefinedClassOrType 4 0x4442 1 1 1 0 7) (sv 2) (fun t => t.conns = []) = true ∧
    leaves (.undefinedClassOrType 4 0x4441 1 1 1 4194305 7) (sv 2) (fun t => t.conns = [] ∧ t.outbox = [⟨.mgmt 4, "REPLY", [7, stBADMSG]⟩]) = true ∧
    leaves (.undefinedClassOrType 4 0x4441 1 0xFF 1 4194304 7) (sv 2) (fun t => t.conns = [4] ∧ t.outbox = [⟨.mgmt 4, "REPLY", [7, stUNKNOWN]⟩]) = true ∧
    leaves (.undefinedClassOrType 5 0x4441 1 0xFF 1 0 7) (sv 2) (fun t => t.outbox = []) = true ∧
    leaves (.inventory 4 7) rom (fun t => t.outbox = [⟨.mgmt 4, "REPLY", [7, stUNKNOWN]⟩]) = true ∧
    leaves (.inventory 5 7) (sv 2) (fun t => t.outbox = []) = true := by decide +kernel

theorem test_service_events : leaves .mgmtLinkDown State.reset (fun t => !t.flag pgSVC 0x048 8 ∧ bitOf (t.hdr pgSVC).err 11) = true ∧
    leaves .mgmtLinkUp State.reset (fun t => t.flag pgSVC 0x048 8) = true ∧ leaves .kick { State.reset with time := 5 } (fun t => t.boot.kick = 5) = true ∧
    leaves (.coreHalt 0xFF 0x80) (State.reset.setFld pgSVC 0x054 0 1 0) (fun t => (t.hdr pgSVC).wlock) = true ∧
    leaves (.coreHalt 0xFF 0x80) (State.reset.setFld pgSVC 0x054 0 1 1) (fun t => t.fld pgSVC 0x048 0 8 = 0x80) = true := by decide +kernel

/-- A SUBMIT of `np` prompt tokens, of which `k` are in it, for the job loaded. -/
def sbw (np k : Nat) : List Nat := (subw np).set 6 5 ++ List.replicate k 1

/-- A request that a module holds, with neither the REQID nor the SEQ of `sbw`; and modules that hold it in every slot. -/
def heldReq : Req := { rq0 .live with sub := ((subw 1).set 0 1).set 4 1 }
def heldIn (k : Nat) : State := { sv 2 with reqs := (List.range k).map fun n => { heldReq with slot := n } }
def solo1 : State := { sv 2 with job := some { jb 2 with cfg := { cfg 2 with solo := true } }, reqs := [{ heldReq with slot := 0 }] }

theorem heldReq_other : (heldReq.st != .done && (heldReq.reqid == pfield (sbw 1 0) 0 16 || heldReq.seq == pfield (sbw 1 0) 0x10 8)) = false := by decide +kernel

theorem held_full (c : JobCfg) : (heldIn c.slots).freeSlot c = none ∧
    (heldIn c.slots).reqs.any (fun r => r.st != .done && (r.reqid == pfield (sbw 1 0) 0 16 || r.seq == pfield (sbw 1 0) 0x10 8)) = false := by
  constructor
  · rw [State.freeSlot, List.find?_eq_none]
    intro n hn
    have h : (heldIn c.slots).reqs.any (fun r => r.slot == n && r.st != .done) = true :=
      List.any_eq_true.2 ⟨{ heldReq with slot := n }, List.mem_map.2 ⟨n, hn, rfl⟩, by simp [heldReq, rq0]⟩
    simp [h]
  · rw [List.any_eq_false]
    intro r hr
    obtain ⟨n, -, rfl⟩ := List.mem_map.1 hr
    exact Bool.eq_false_iff.1 heldReq_other

theorem test_submit_full : (∀ s ∈ [heldIn (cfg 2).slots, solo1], s.conns.contains 4 = true ∧ s.svcUp = true ∧ s.romOnly = false ∧ s.replies = [] ∧ s.rcp.full = false ∧
      s.rcp.admitHold = false ∧ s.serving = true ∧ (s.job.map fun j => (j.cfg.role, j.cfg.hash)) = some (2, pfield (sbw 1 0) 0x18 8)) ∧
    solo1.freeSlot { cfg 2 with solo := true } = none ∧
    solo1.reqs.any (fun r => r.st != .done && (r.reqid == pfield (sbw 1 0) 0 16 || r.seq == pfield (sbw 1 0) 0x10 8)) = false := by decide +kernel

theorem test_submit : leaves (.submit 4 1 0x190 []) (sv 2) (fun t => t.outbox = [⟨.mgmt 4, "REPLY", [1, stBADMSG]⟩]) = true ∧
    submitBad 0x194 (sbw 1 0) = false ∧ submitBad 0x198 (sbw 1 1) = false ∧ submitBad 0x198 (sbw 0 1) = true ∧ pfield (sbw 1 0) 0x18 8 = (cfg 2).hash ∧
    pfield (sbw 1 1) 0x190 4 ≤ (0x198 - 0x194) / 4 ∧ (0x194 - 0x194) / 4 < pfield (sbw 1 0) 0x190 4 ∧ (sv 2).freeSlot (cfg 2) = some 0 ∧
    (sv 2).serving = true := by decide +kernel

def bw (n : Nat) : List Word := ((List.range 10).map fun i => if i = 6 then n else if i = 4 then 77 else 0).map (BitVec.ofNat 32)

theorem test_bind_prompt : leaves (.bind 4 1 36 (bw 5)) (sv 3) (fun t => t.binds = [] ∧ t.outbox = [⟨.mgmt 4, "REPLY", [1, stBADMSG]⟩]) = true ∧
    leaves (.bind 4 1 40 (bw 5)) (sv 3) (fun t => t.binds.map (·.seq) = [77] ∧ t.outbox = [⟨.mgmt 4, "REPLY", [1, stOK]⟩]) = true ∧
    leaves (.prompt 4 1 28 [0, 0, 0, 0, 0, 1, 9]) { sv 2 with reqs := [{ rq0 .prompt with sub := subw 2 }] } (fun t => t.reqs.map (·.prompt) = [[(0, 9)]]) = true ∧
    leaves (.prompt 4 1 28 [0, 0, 0, 0, 0, 1, 9]) (sv 2) (fun t => t.outbox = [⟨.mgmt 4, "REPLY", [1, stNOTFOUND]⟩]) = true ∧
    leaves (.prompt 4 1 28 [0, 0, 0, 0, 0, 1]) (sv 2) (fun t => t.outbox = [⟨.mgmt 4, "REPLY", [1, stBADMSG]⟩]) = true ∧
    leaves (.promptTimeout 2) { sv 2 with reqs := [rq0 .prompt] } (fun t => t.reqAt 2 = none ∧ 60 * second ≤ t.time) = true ∧
    leaves (.promptTimeout 2) { sv 2 with reqs := [rq0 .live] } (fun t => t.time = 0) = true ∧
    leaves (.bindExpiry 77) { sv 3 with binds := [⟨77, 0, 5, false, (0, 0, 0, 0), (0, 0), 0, 0, 0, 0, false, 0⟩] } (fun t => t.binds = [] ∧ t.time = 3600 * second + 5) = true := by
  decide +kernel

/-- A live request of connection 4 that has emitted token 0. -/
def rt (f : Req → Req) : State := { sv 2 with reqs := [f { rq0 .live with conn := some 4, tokens := [(0, 7)] }] }

theorem test_tokens : leaves (.tokens 2) (rt fun r => { r with holdTo := 3 }) (fun t => t.reqs.map (·.sent) = [1] ∧ t.time = 3 ∧ t.streamed = 1 ∧
      t.outbox.map (fun m => m.kind) = ["TOKENS"]) = true ∧
    leaves (.tokens 2) (rt fun r => { r with sent := 1 }) (fun t => t.outbox = []) = true ∧
    ({ rq0 .live with tokens := (List.range 9).map fun i => (i, 7) } : Req).endOf = some 1 ∧
    leaves (.tokens 2) (rt fun r => { r with tokens := (List.range 9).map fun i => (i, 7) }) (fun t => t.reqAt 2 = none) = true := by decide +kernel

theorem test_resume : leaves (.resume 4 1 5 0) (rt id) (fun t => t.outbox = [⟨.mgmt 4, "REPLY", [1, stNOTFOUND]⟩]) = true ∧
    leaves (.resume 4 1 0 0) (rt fun r => { r with sent := 1, conn := none }) (fun t => t.reqs.map (·.conn) = [some 4] ∧ t.streamed = 1 ∧
      t.outbox.map (fun m => m.kind) = ["REPLY", "TOKENS"]) = true ∧
    leaves (.resume 4 1 0 1) (rt fun r => { r with sent := 1, conn := none }) (fun t => t.outbox.map (fun m => m.kind) = ["REPLY"]) = true ∧
    leaves (.cancel 4 1 0) (rt fun r => { r with step := some (st0 false false) }) (fun t => t.reqs.map (·.cancel) = [true] ∧ t.replies = [⟨4, 1, 2, 2, none⟩]) = true ∧
    leaves (.cancel 4 1 0) (rt id) (fun t => t.reqAt 2 = none ∧ t.replies = []) = true ∧
    leaves (.cancel 4 1 0) (rt fun r => { r with st := .done, endCode := some 1 }) (fun t => t.outbox.length = 1) = true := by decide +kernel

theorem test_retention : leaves (.tokenRetentionExpiry 2) (rt fun r => { r with st := .done, endCode := some 1, released := some 5 }) (fun t => t.reqs = [] ∧
      t.time = 60 * second + 5) = true ∧
    leaves (.tokenRetentionExpiry 2) (rt fun r => { r with st := .closing, endCode := some 1, released := some 5 }) (fun t => t.reqs.map (·.tokens) = [[]]) = true := by
  decide +kernel

def fla (n : Nat) : Flacon := ⟨n, [], [], [[1], [2]]⟩

theorem test_delivery : leaves (.ack 4 1 7) { sv 2 with rcp := { Rcp.init with store := [fla 7, fla 8] } } (fun t => t.rcp.store.map (·.fnum) = [8]) = true ∧
    leaves (.ack 4 1 9) { sv 2 with rcp := { Rcp.init with store := [fla 7] } } (fun t => t.outbox = [⟨.mgmt 4, "REPLY", [1, stNOTFOUND]⟩]) = true ∧
    leaves (.get 4 1 7 7) { sv 2 with rcp := { Rcp.init with store := [fla 7] } } (fun t => t.outbox.map (fun m => m.kind) = ["REPLY", "FLACON", "RECEIPT", "RECEIPT"]) = true ∧
    leaves (.get 4 1 7 7) (sv 2) (fun t => t.outbox = [⟨.mgmt 4, "REPLY", [1, stNOTFOUND]⟩]) = true := by decide +kernel

theorem test_telemetry : leaves (.subscribe 4 1 99 0) (sv 2) (fun t => t.subs = []) = true ∧
    leaves (.subscribe 4 1 100 3) (sv 2) (fun t => t.subs = [⟨4, 100, 3, 100 * msec, 0⟩]) = true ∧
    leaves (.subscribe 4 1 60000 0) (sv 2) (fun t => t.subs.length = 1) = true ∧ leaves (.subscribe 4 1 60001 0) (sv 2) (fun t => t.subs = []) = true ∧
    leaves (.report 4) (sv 2) (fun t => t.outbox = []) = true ∧
    leaves (.report 4) { sv 2 with subs := [⟨4, 100, 0, 9, 0⟩], udp := true } (fun t => t.outbox.map (fun m => (m.chan, m.kind)) = [(.mgmt 4, "REPORT"), (.udp, "REPORT")]) = true ∧ ({ sv 2 with subs := [⟨4, 100, 0, 9, 0⟩] } : State).subs.find? (fun x => x.conn == 4 && x.period != 0) = some ⟨4, 100, 0, 9, 0⟩ := by
  decide +kernel

theorem test_register_service : leaves (.registerRead 4 1 0 0 none) (sv 2) (fun t => t.outbox = [⟨.mgmt 4, "REPLY", [1, stBADMSG]⟩]) = true ∧
    leaves (.registerRead 4 1 0 65 none) (sv 2) (fun t => t.outbox = [⟨.mgmt 4, "REPLY", [1, stBADMSG]⟩]) = true ∧
    (sv 2).accessFree 12 = true ∧
    leaves (.registerRead 4 1 (pageAddr pgTIM + 0x040) 1 (some 0)) (sv 2) (fun t => t.outbox = [⟨.mgmt 4, "REPLY", [1, stOK, 0, accTIMEOUT]⟩] ∧ t.time = 100 * usec) = true ∧
    leaves (.registerRead 4 1 0xFFFF_FFFC 1 none) (sv 2) (fun t => t.outbox = [⟨.mgmt 4, "REPLY", [1, stOK, 0, accUNMAPPED]⟩]) = true ∧
    leaves (.registerWrite 4 1 (pageAddr (pgFLT 0) + 0x040) [0x5A5] none) (sv 2) (fun t => t.fld (pgFLT 0) 0x040 0 8 = 0xA5 ∧
      t.outbox = [⟨.mgmt 4, "REPLY", [1, stOK, 1, accOK]⟩]) = true ∧ leaves (.registerWrite 4 1 0 [] none) (sv 2) (fun t => t.outbox.length = 1) = true ∧
    ((sv 2).blk (blkOf (pgFLT 0))).retired = false ∧ ((sv 2).hdr (pgFLT 0)).inj = 0 ∧
    leaves (.registerRead 4 1 (pageAddr pgTIM + 0x040) 1 none) (sv 2) (fun t => t.outbox = [⟨.mgmt 4, "REPLY", [1, stOK, 1, accOK, 0]⟩]) = true ∧
    ((sv 2).blk (blkOf pgTIM)).retired = false ∧ ((sv 2).hdr pgTIM).inj = 0 ∧
    leaves (.inventory 4 1) (sv 2) (fun t => t.outbox.map (fun m => m.words.take 2) = [[1, stOK]]) = true ∧
    leaves (.jobUnload 4 1) { sv 2 with job := none } (fun t => t.outbox = [⟨.mgmt 4, "REPLY", [1, stNOTFOUND]⟩]) = true := by decide +kernel

theorem test_unmapped_page : ∃ a, a < 0x1_0000_0000 ∧ a % 4 = 0 ∧ pageAt a = none := ⟨0xFFFF_FFFC, by decide +kernel⟩

theorem test_job_unload : (sv 2).job.isSome = true := by decide +kernel

/-! ### Content transfers -/

def br0 : BootRes := ⟨[], false, [], [], false, true, [], [], [], [], [], [], true, false, false, true⟩

/-- One byte 9 is a whole transfer of a type, or `h` is not its hash. -/
def ct (ty : Nat) (h : List Nat) : State := { sv 2 with job := none, contents := [⟨4, ty, 1, h, [(0, [9])]⟩] }
def h9 : List Nat := sha256 [9]

theorem test_begin_data : leaves (.begin 4 1 0 1 (List.replicate 32 0)) (sv 2) (fun t => t.contents = []) = true ∧
    leaves (.begin 4 1 5 1 (List.replicate 32 0)) (sv 2) (fun t => t.contents = [⟨4, 5, 1, List.replicate 32 0, []⟩]) = true ∧
    leaves (.begin 4 1 6 1 (List.replicate 32 0)) (sv 2) (fun t => t.contents = []) = true ∧
    leaves (.begin 4 1 5 1 (List.replicate 31 0)) (sv 2) (fun t => t.contents = []) = true ∧
    leaves (.begin 4 1 2 1 (List.replicate 32 0)) (ct 2 h9) (fun t => t.outbox = [⟨.mgmt 4, "REPLY", [1, stBUSY]⟩]) = true ∧
    leaves (.data 4 1 2 0 [7]) (ct 2 h9) (fun t => t.contents.map (fun x => x.byte 0) = [some 7]) = true ∧
    leaves (.data 4 1 2 1 [7]) (ct 2 h9) (fun t => t.outbox = [⟨.mgmt 4, "REPLY", [1, stBADMSG]⟩]) = true ∧
    leaves (.data 4 1 3 0 [7]) (ct 2 h9) (fun t => t.outbox = [⟨.mgmt 4, "REPLY", [1, stNOTFOUND]⟩]) = true := by decide +kernel

theorem test_whole : (⟨4, 1, 1, h9, [(0, [9])]⟩ : Content).whole = some [9] ∧ (⟨4, 1, 1, [], [(0, [9])]⟩ : Content).whole = none := by decide +kernel

theorem test_os_image : leaves (.osimg 4 1 5 true br0) (ct tyOSIMG []) (fun t => t.contents = [] ∧ !t.nv.newImage) = true ∧
    leaves (.osimg 4 1 5 true br0) (ct tyOSIMG h9) (fun t => t.contents = [] ∧ t.nv.newImage ∧ (t.nv.slots[1]?).map (fun x => (x.version, x.ok)) = some (5, true)) = true := by
  decide +kernel

theorem test_other_content : leaves (.pack 4 1 3 2 1 true) (ct tyPACK h9) (fun t => t.nv.packs = [(3, 2)]) = true ∧
    leaves (.pack 4 1 3 2 2 true) (ct tyPACK h9) (fun t => t.nv.packs = []) = true ∧
    leaves (.seqimg 4 1) (ct tySEQIMG []) (fun t => !t.bcast.open_ ∧ t.contents = []) = true ∧ (ct tySEQIMG h9).bcast.open_ = false := by decide +kernel

theorem test_licence : (ct tyLICENCE h9).nv.licCtr < 1 ∧ (ct tyLICENCE h9).licenceFits ⟨0, [], 1, 768, 0, 0, 0, true⟩ = true ∧
    (ct tyLICENCE h9).licenceFits ⟨0, [], 1, 768, 8, 0, 0, true⟩ = false ∧
    leaves (.licence 4 1 ⟨0, [], 1, 768, 8, 0, 0, true⟩) (ct tyLICENCE h9) (fun t => t.nv.licCtr = 0 ∧ t.contents = []) = true := by decide +kernel

theorem test_job_load : leaves (.jobLoad 4 1 (cfg 2) 0 1 (plc []) false none) (ct tyJOBLOAD []) (fun t => t.job = none ∧ t.contents = []) = true ∧
    (ct tyJOBLOAD h9).loadCheck (cfg 2) (plc []) false (some 3) = (8, 3) := by decide +kernel

/-! ### Bring-up and fuses -/

theorem test_resets_refused : State.reset.boot.powered = true ∧ State.reset.bootStage = 1 ∧
    leaves (.coldStart br0) (sv 2) (fun t => t.job.isSome ∧ t.conns = [4]) = true ∧
    leaves (.warm br0) (State.reset.setBootStage 2) (fun t => (t.hdr (pgGLB 0)).wlock) = true ∧
    leaves (.full br0) { sv 2 with boot := { Boot.init with prog := some (0x40, 1, 0) } } (fun t => t.boot.after = some (1, br0)) = true ∧
    leaves (.warm br0) { sv 2 with boot := { Boot.init with prog := some (0x40, 1, 0), after := some (1, br0) } } (fun t => (t.hdr (pgGLB 0)).wlock ∧ t.boot.after = some (1, br0)) = true ∧
    leaves (.warm br0) { sv 2 with boot := { Boot.init with prog := some (0x40, 1, 0), after := some (2, br0) } } (fun t => t.boot.after = some (0, br0)) = true ∧
    leaves (.compute br0) { sv 2 with boot := { Boot.init with prog := some (0x40, 1, 0), after := some (1, br0) } } (fun t => (t.hdr (pgGLB 0)).wlock ∧ t.boot.after = some (1, br0)) = true ∧
    leaves (.compute br0) ((sv 2).setBootStage 10) (fun t => (t.hdr (pgGLB 0)).wlock) = true ∧
    leaves (.osReadyTimeout br0) (sv 2) (fun t => t.time = 0) = true ∧
    leaves (.watchdogExpiry br0) ((sv 2).setFld pgSVC 0x040 0 1 0) (fun t => t.time = 0) = true := by decide +kernel

theorem test_resets_due : ({ sv 2 with boot := { Boot.init with osStart := some 0 } } : State).boot.osStart = some 0 ∧ (sv 2).inputOut = false ∧ (sv 2).boot.prog = none ∧
    (((sv 2).setFld pgSVC 0x040 0 1 1).setFld pgSVC 0x048 9 1 1).flag pgSVC 0x040 0 = true ∧ (((sv 2).setFld pgSVC 0x040 0 1 1).setFld pgSVC 0x048 9 1 1).flag pgSVC 0x048 9 = true ∧
    (sv 2).bootStage = 11 ∧ State.reset.nv.slots = [] := by decide +kernel

/-- The presence window is open, the jumper fitted as given, a word and an entry in the FUS registers. -/
def fu (j : Bool) (i v : Nat) : State := (((prs Mtr.init).setFld (pgFUS 0) 0x040 2 1 (if j then 1 else 0)).setFld (pgFUS 2) 0x040 0 10 i).setReg (pgFUS 2) 0x044 v
def res (s : State) (n : Nat) : Bool := leaves .fuseGo s fun t => t.reg (pgFUS 2) 0x04C = n ∧ t.boot.prog = none

theorem test_fuse_refusals : leaves .fuseGo State.reset (fun t => (t.hdr (pgFUS 2)).wlock ∧ bitOf (t.hdr (pgFUS 2)).err 2) = true ∧ res (fu false 0x040 (2 ^ 31)) 2 = true ∧
    res (fu true 0x03F (2 ^ 31)) 3 = true ∧ res (fu true 0x090 (2 ^ 31)) 3 = true ∧ res (fu true 0x240 (2 ^ 31)) 3 = true ∧
    res { fu true 0x040 (2 ^ 31) with nv := { Nv.init with fuses := [(0x040, ⟨0, true, false, false, false⟩)] } } 4 = true ∧
    res (fu true 0x040 (2 ^ 31 - 1)) 5 = true ∧ res (fu true 0x040 (2 ^ 31 + 2 ^ 30)) 5 = true ∧
    res ((fu true 0x040 (2 ^ 31)).setFld pgPWR 0x064 0 16 43999) 6 = true := by decide +kernel

theorem test_fuse : leaves .fuseGo (fu true 0x23F (2 ^ 31)) (fun t => t.boot.prog = some (0x23F, 2 ^ 31, 0) ∧ t.flag (pgFUS 0) 0x040 3) = true ∧
    leaves .fuseGo { fu true 0x23F (2 ^ 31) with boot := { Boot.init with prog := some (0x40, 2 ^ 31, 0) } } (fun t => t.reg (pgFUS 2) 0x04C = 7) = true ∧
    leaves (.fuseProgramDone true) { State.reset with boot := { Boot.init with prog := some (0x40, 2 ^ 31, 5) } } (fun t => (t.fuse 0x40).v = 2 ^ 31 ∧ t.boot.prog = none ∧
      t.time = 10 * msec + 5 ∧ t.reg (pgFUS 2) 0x04C = 1) = true ∧
    leaves (.fuseProgramDone true) { injd State.reset (pgFUS 0) 10 with boot := { Boot.init with prog := some (0x40, 2 ^ 31, 5) } } (fun t => (t.fuse 0x40).void ∧
      t.reg (pgFUS 2) 0x04C = 8) = true ∧
    leaves (.fuseProgramDone false) { State.reset with boot := { Boot.init with prog := some (0x40, 2 ^ 31, 5) } } (fun t => (t.fuse 0x40).v = 0xFFFF_FFFF ∧ (t.fuse 0x40).void ∧
      t.reg (pgFUS 2) 0x04C = 8 ∧ bitOf (t.hdr (pgFUS 0)).err 10) = true := by decide +kernel

/-! ### The machine as a whole -/

theorem test_reset_wf : State.reset.memOk = true ∧ tblWf regReset State.reset.regs = true ∧ tblWf blkReset State.reset.blks = true ∧
    tblWf hdrReset State.reset.hdrs = true := by decide +kernel

theorem test_idle_step_reset : (match step State.reset with | .next t => t.time == 8 && t.pending.isEmpty | .fault _ => false | .refused _ => false) = true := by decide +kernel

theorem test_step_takes_front : (match step { State.reset with pending := [.kick, .fltPop] } with
    | .next t => t.pending == [.fltPop] | .fault _ => false | .refused _ => false) = true := by decide +kernel

theorem test_no_words : decodeTableWord 32 0 = none ∧ (State.reset.withFetchWord 32 0).pending = [] := by decide +kernel

end Sys2Proof.Tests
end

section
/-! SUPPORT. Masked errors (R43): the page header after an error, PG_STATUS.ERR, and what a masked error leaves alone. -/

namespace Sys2Proof.Machine

open Sys2Proof

/-! ### Error bits -/

theorem testBit_eq_bitOf (v i : Nat) : v.testBit i = bitOf v i := by
  rw [Nat.testBit_eq_decide_div_mod_eq]; rfl

theorem bitOf_setBit (v b i : Nat) : bitOf (putBits v b 1 1) i = (i == b || bitOf v i) := by
  rcases Nat.lt_trichotomy i b with h | rfl | h
  · have := bitsOf_putBits_below v b 1 1 i 1 h
    simp_all [bitsOf, bitOf, h.ne]
  · have := bitsOf_putBits_same v i 1 1
    simp_all [bitsOf, bitOf]
  · have := bitsOf_putBits_above v b 1 1 i 1 h
    simp_all [bitsOf, bitOf, h.ne']

/-- An error bit that the mask names adds nothing to the unmasked errors. -/
theorem unmasked_setBit {err mask b : Nat} (hb : bitOf mask b = true) :
    putBits err b 1 1 &&& (0xFFFF_FFFF - mask) = err &&& (0xFFFF_FFFF - mask) := by
  by_cases hm : mask < 2 ^ 32
  · have hbit : (0xFFFF_FFFF - mask).testBit b = false := by
      rw [show 0xFFFF_FFFF - mask = 2 ^ 32 - (mask + 1) by omega, Nat.testBit_two_pow_sub_succ hm, testBit_eq_bitOf, hb]
      simp
    refine Nat.eq_of_testBit_eq fun i => ?_
    rw [Nat.testBit_and, Nat.testBit_and, testBit_eq_bitOf (putBits _ _ _ _), bitOf_setBit, testBit_eq_bitOf err]
    by_cases hi : i = b
    · rw [hi, hbit, Bool.and_false, Bool.and_false]
    · rw [beq_eq_false_iff_ne.2 hi, Bool.false_or]
  · rw [Nat.sub_eq_zero_of_le (by omega), Nat.and_zero, Nat.and_zero]

/-! ### The header of a page after an error -/

/-- The header after an error event: its PG_ERR bit set and its count of PG_ERR_CNT, which saturates, advanced (R42, R45). -/
def PageHdr.noted (h : PageHdr) (bit : Nat) (c : Cnt) : PageHdr :=
  { h with
    err := putBits h.err bit 1 1
    corr := if c = .corr then min 0xFFFF (h.corr + 1) else h.corr
    unc := if c = .unc then min 0xFFFF (h.unc + 1) else h.unc }

/-- What ERR_REPORT counts an error bit of a block type as. -/
def errCnt (ty bit : Nat) : Cnt :=
  if (corrBits ty).contains bit then .corr else if (uncBits ty).contains bit then .unc else .none

theorem errCnt_eq_corr_iff (ty bit : Nat) : errCnt ty bit = .corr ↔ (corrBits ty).contains bit = true := by
  unfold errCnt
  cases (corrBits ty).contains bit <;> cases (uncBits ty).contains bit <;> decide

theorem errCnt_eq_unc_iff (ty bit : Nat) :
    errCnt ty bit = .unc ↔ (corrBits ty).contains bit = false ∧ (uncBits ty).contains bit = true := by
  unfold errCnt
  cases (corrBits ty).contains bit <;> cases (uncBits ty).contains bit <;> decide

theorem injected_of_no_inj {s : State} {pg : Nat} (h : (s.hdr pg).inj = 0) (bit : Nat) : s.injected pg bit = (false, s) := by
  simp [State.injected, State.takeInj, h]

theorem hdr_setErr_same (s : State) (pg bit : Nat) :
    (s.setErr pg bit).hdr pg = { s.hdr pg with err := putBits (s.hdr pg).err bit 1 1 } := hdr_setHdr_same _ _ _

/-- A masked error is noted in its page's header and does nothing else. -/
theorem raise_masked {s : State} {pg bit : Nat} (hinj : (s.hdr pg).inj = 0) (hmask : bitOf (s.hdr pg).mask bit = true)
    (cls : Nat) (c : Cnt) (inj : Bool) (info : List Nat) :
    ((s.raise pg bit cls c inj info).hdr pg = (s.hdr pg).noted bit c) ∧
      s.raise pg bit cls c inj info = { s with hdrs := (s.raise pg bit cls c inj info).hdrs } := by
  have hm : bitOf ((s.setErr pg bit).hdr pg).mask bit = true := by rw [hdr_setErr_same]; exact hmask
  unfold State.raise
  rw [injected_of_no_inj hinj]
  dsimp only
  rw [if_pos hm]
  cases c with
  | none => exact ⟨by simp [hdr_setErr_same, PageHdr.noted], rfl⟩
  | corr => exact ⟨by simp [hdr_setErr_same, PageHdr.noted, satAdd], rfl⟩
  | unc => exact ⟨by simp [hdr_setErr_same, PageHdr.noted, satAdd], rfl⟩

/-- ERR_REPORT of a bit that its page defines raises it, counted as `errCnt` says. -/
theorem errReport_raises {s : State} {pg : Nat} {b : Fin 32} (hpg : pageExists pg = true) (hdef : errDefined pg b.val = true)
    (hinj : (s.hdr pg).inj = 0) :
    ∃ cls, exec (.errReport pg b) s = .next (s.raise pg b.val cls (errCnt (pgTy pg) b.val) false []) := by
  show ∃ cls, execErrReport pg b s = _
  unfold execErrReport errCnt
  simp only [hpg, hdef, injected_of_no_inj hinj, Bool.not_true, Bool.or_self, Bool.false_eq_true, if_false]
  split
  · exact ⟨_, rfl⟩
  · split
    · exact ⟨_, rfl⟩
    · exact ⟨_, rfl⟩

/-! ### PG_STATUS.ERR -/

theorem b2n_lt_two (b : Bool) : b2n b < 2 := by cases b <;> decide

/-- PG_STATUS.ERR is set while an unmasked PG_ERR bit is (Table 02.5). -/
theorem bitOf_pgStatus_err (s : State) (pg : Nat) :
    bitOf (s.pgStatus pg) 2 = ((s.hdr pg).err &&& (0xFFFF_FFFF - (s.hdr pg).mask) != 0) := by
  have hbit : ∀ a b d e f g (c : Bool), a < 2 → b < 2 → d < 2 → e < 2 → f < 2 → g < 2 →
      bitOf (packBits [(a, 0), (b, 1), (b2n c, 2), (d, 3), (e, 4), (f, 5), (g, 6)]) 2 = c := by
    intro a b d e f g c ha hb hd he hf hg
    cases c <;> simp [packBits, joinFields, b2n, bitOf] <;> omega
  exact hbit _ _ _ _ _ _ _ (b2n_lt_two _) (b2n_lt_two _) (b2n_lt_two _) (b2n_lt_two _) (b2n_lt_two _) (b2n_lt_two _)

/-- A masked error noted in a page's header does not change its PG_STATUS.ERR. -/
theorem bitOf_pgStatus_err_of_noted {s t : State} {pg bit : Nat} {c : Cnt} (hmask : bitOf (s.hdr pg).mask bit = true)
    (ht : t.hdr pg = (s.hdr pg).noted bit c) : bitOf (t.pgStatus pg) 2 = bitOf (s.pgStatus pg) 2 := by
  rw [bitOf_pgStatus_err, bitOf_pgStatus_err, ht]
  simp only [PageHdr.noted, unmasked_setBit hmask]

/-- Settles O42: the event is raised with the class of its bit, and a masked one is noted in the page's header alone. -/
theorem maskedErrors : Obligations.MaskedErrors := by
  intro pg b s hpg hdef hinj hmask
  obtain ⟨cls, hexec⟩ := errReport_raises (s := s) hpg hdef hinj
  obtain ⟨hhdr, hframe⟩ := raise_masked hinj hmask cls (errCnt (pgTy pg) b.val) false []
  refine ⟨_, hexec, ?_, ?_, ?_, bitOf_pgStatus_err_of_noted hmask hhdr, ?_, ?_, hframe⟩
  · rw [hhdr]; simp only [PageHdr.noted, bitOf_setBit, BEq.rfl, Bool.true_or]
  · rw [hhdr]; simp only [PageHdr.noted, errCnt_eq_corr_iff]
  · rw [hhdr]; simp only [PageHdr.noted, errCnt_eq_unc_iff]
  · rw [hframe]
  · rw [hframe]

end Sys2Proof.Machine
end

section
/-! SUPPORT. Latched reads (R38): what a word access to a page that is reached answers, and what a read latches. -/

namespace Sys2Proof.Machine

open Sys2Proof

/-! ### The low words of 64-bit quantities -/

/-- Every 64-bit quantity lies below offset 0x148 of its page. -/
theorem off_le_of_mem_lowWords (ty : Nat) : ∀ e ∈ lowWords ty, e.2 ≤ 0x140 := by
  unfold lowWords
  iterate 20 refine iteInduction (motive := fun l : List (Nat × Nat) => ∀ e ∈ l, e.2 ≤ 0x140) (fun _ => by decide) fun _ => ?_
  decide

theorem off_le_of_lowWord {ty p off : Nat} (h : (lowWords ty).contains (p, off) = true) : off ≤ 0x140 :=
  off_le_of_mem_lowWords ty _ (List.contains_iff_mem.1 h)

/-- A read of a low word latches its high word at least. -/
theorem high_mem_latchedWith {pg off : Nat} (h : (lowWords (pgTy pg)).contains (pgPage pg, off) = true) :
    off + 4 ∈ latchedWith pg off := by
  unfold latchedWith
  dsimp only
  split
  · next ht =>
    simp only [Bool.and_eq_true, beq_iff_eq] at ht
    simp [ht.2]
  · split
    · next ht =>
      simp only [Bool.and_eq_true, beq_iff_eq] at ht
      simp [ht.2]
    · exact List.mem_singleton_self _

/-! ### Latches -/

theorem latchKey_inj {req a b : Nat} : latchKey req a = latchKey req b ↔ a = b := by
  unfold latchKey; omega

/-- The latches of a requester after a read of a word that no latch holds. -/
def State.latchesAfter (s : State) (req pg off : Nat) : Tbl Nat :=
  (latchedWith pg off).foldl (fun l o => tblPut l (latchKey req (pageAddr pg + o)) (s.regView pg o)) s.latches

theorem tblFind_foldl_tblPut_of_mem {key val : Nat → Nat} (hkey : ∀ {a b}, key a = key b → a = b) {o : Nat}
    (l : List Nat) (t : Tbl Nat) (h : o ∈ l ∨ tblFind t (key o) = some (val o)) :
    tblFind (l.foldl (fun u a => tblPut u (key a) (val a)) t) (key o) = some (val o) := by
  induction l generalizing t with
  | nil => simpa using h
  | cons a l ih =>
    refine ih _ ?_
    by_cases ha : o = a
    · subst ha; exact .inr (tblFind_tblPut_same _ _ _)
    · rw [tblFind_tblPut_other _ _ fun e => ha (hkey e)]
      simpa [ha] using h

/-- A word that goes with the one read is latched at its present value. -/
theorem tblFind_latchesAfter (s : State) {req pg off o : Nat} (h : o ∈ latchedWith pg off) :
    tblFind (s.latchesAfter req pg off) (latchKey req (pageAddr pg + o)) = some (s.regView pg o) :=
  tblFind_foldl_tblPut_of_mem (key := fun o => latchKey req (pageAddr pg + o)) (val := s.regView pg)
    (fun e => Nat.add_left_cancel (latchKey_inj.1 e)) _ _ (.inl h)

/-- A read takes the latch of its requester. -/
theorem readWord_of_latch {s : State} {req pg off v : Nat} (h : tblFind s.latches (latchKey req (pageAddr pg + off)) = some v) :
    s.readWord req pg off = (v, { s with latches := tblDel s.latches (latchKey req (pageAddr pg + off)) }) := by
  simp [State.readWord, h]

/-- With no latch, a read of a word other than MBX_RX_DATA returns it and latches what goes with it. -/
theorem readWord_of_no_latch {s : State} {req pg off : Nat} (h : tblFind s.latches (latchKey req (pageAddr pg + off)) = none)
    (hmbx : off < 0x310) : s.readWord req pg off = (s.regView pg off, { s with latches := s.latchesAfter req pg off }) := by
  simp [State.readWord, h, State.latchesAfter, hmbx.ne]

/-! ### A 32-bit read of a page -/

theorem pageAt_lt {addr pg : Nat} (h : pageAt addr = some pg) : addr < 0x1_8E40_0000 := by
  unfold pageAt at h
  by_contra hlt
  rw [if_neg (by omega), if_neg (by omega), if_pos (by omega)] at h
  cases h

theorem isScratch_eq_false {addr : Nat} (h : addr < 0x1_8E40_0000) : isScratch addr = false := by
  have : ¬ spdWindow ≤ addr := by unfold spdWindow; omega
  rw [isScratch, decide_eq_false this, Bool.false_and]

theorem isBulk_eq_false {addr : Nat} (h : addr < 0x1_8E40_0000) : isBulk addr = false := by
  have hinter : ¬ interBase ≤ addr := by unfold interBase; omega
  have hdirect : ¬ directBase ≤ addr := by unfold directBase; omega
  rw [isBulk, decide_eq_false hinter, decide_eq_false hdirect, Bool.false_and, Bool.false_and, Bool.or_false]

theorem takeInjOf_of_no_inj {s : State} {pg : Nat} (h : (s.hdr pg).inj = 0) (l : List Nat) : s.takeInjOf pg l = none := by
  induction l with
  | nil => rfl
  | cons b l ih => simpa [State.takeInjOf, State.takeInj, h] using ih

/-- The load of a word that a requester performs once, with nothing to follow it. -/
def Access.ofRead (req addr : Nat) : Access := ⟨req, addr, 4, .load, false, .done⟩

theorem plain_ofRead {req addr : Nat} (h : addr % 4 = 0) : (Access.ofRead req addr).plain = true := by
  simp [Access.plain, Access.ofRead, h]

/-- A plain access comes to a page that is reached and has nothing to inject. -/
theorem pageFor_of_reached {s : State} {a : Access} {pg : Nat} (hpg : pageAt a.addr = some pg) (hplain : a.plain = true)
    (hreach : s.pageReached pg = true) (hinj : (s.hdr pg).inj = 0) : s.pageFor a = .ok (pg, false, s) := by
  unfold State.pageReached at hreach
  unfold State.pageFor
  rw [hpg]
  dsimp only
  cases htile : isTileTy (pgTy pg) <;> simp_all [takeInjOf_of_no_inj hinj]

/-- An access that is OK, with no access fault to inject, gives its requester status and value and does nothing else. -/
theorem complete_ok {s : State} {req : Nat} (h : 8 ≤ req ∨ s.injPend (pgGLB 0) 10 = false) (addr : Nat) (write : Bool) (v : Nat) :
    s.complete req addr write accOK v = { s with accesses := tblPut s.accesses req (accOK, v) } := by
  unfold State.complete
  rcases h with h | h
  · simp [h]
  · simp only [h, beq_self_eq_true, Bool.not_false, Bool.and_self, Bool.true_or, if_true]

theorem accessNow_of_page {s u : State} {a : Access} {pg v : Nat} (hpg : pageAt a.addr = some pg) (hplain : a.plain = true)
    (hload : a.op = .load) (hlate : a.late = false) (hreach : s.pageReached pg = true) (hinj : (s.hdr pg).inj = 0)
    (hread : s.readWord a.req pg (a.addr % 0x1000) = (v, u)) : s.accessNow a = (some (accOK, v), u) := by
  have hlt := pageAt_lt hpg
  simp [State.accessNow, isScratch_eq_false hlt, isBulk_eq_false hlt, State.pageAccess, hlate, hload,
    pageFor_of_reached hpg hplain hreach hinj, hread]

/-- A requester that is free waits for no other of its accesses and has no access fault to inject. -/
theorem accessFree_iff {s : State} {req : Nat} : s.accessFree req = true ↔
    (s.svcBusy req || s.svcWait.any (·.req == req)) = false ∧ (8 ≤ req ∨ s.injPend (pgGLB 0) 10 = false) := by
  simp [State.accessFree, and_assoc]

/-- A free requester's read of a word of a page that it reaches returns what `readWord` does. -/
theorem latchedRead_page {s u : State} {req addr pg v : Nat} (hpg : pageAt addr = some pg) (halign : addr % 4 = 0)
    (hfree : s.accessFree req = true) (hreach : s.pageReached pg = true) (hinj : (s.hdr pg).inj = 0)
    (hread : s.readWord req pg (addr % 0x1000) = (v, u)) (hhdrs : u.hdrs = s.hdrs) :
    exec (.latchedRead req addr 4) s = .next { u with accesses := tblPut u.accesses req (accOK, v) } := by
  obtain ⟨hwait, hfault⟩ := accessFree_iff.1 hfree
  have hfault' : 8 ≤ req ∨ u.injPend (pgGLB 0) 10 = false := by
    simpa only [State.injPend, State.hdr, hhdrs] using hfault
  have hnow : s.accessNow (.ofRead req addr) = (some (accOK, v), u) :=
    accessNow_of_page hpg (plain_ofRead halign) rfl rfl hreach hinj hread
  have hend : u.accessEnd (.ofRead req addr) accOK v = (none, { u with accesses := tblPut u.accesses req (accOK, v) }) :=
    congrArg (Prod.mk none) (complete_ok hfault' _ _ _)
  calc exec (.latchedRead req addr 4) s
      = .next (s.access (.ofRead req addr)) := rfl
    _ = .next (svcRun 3 s (.ofRead req addr)) := by rw [State.access, if_neg (by simpa [Access.ofRead] using hwait)]; rfl
    _ = _ := by rw [svcRun, hnow]; dsimp only; rw [hend]

/-- Settles O4: the read of the low word latches the high word among what goes with it, and the read of the high word takes the
latch or, with none, returns the word. -/
theorem latchedReads : Obligations.LatchedReads := by
  intro req pg off s lo hi hlo hhi hoff halign hlow hfree hreach hinj
  have hle := off_le_of_lowWord hlow
  have hoff' : hi % 0x1000 = off + 4 := by omega
  have halign' : hi % 4 = 0 := by omega
  refine ⟨fun hnone => ?_, fun v hv => ?_, fun hnone => ?_⟩
  · have hread := (congrArg (s.readWord req pg) hoff).trans (readWord_of_no_latch hnone (by omega))
    exact ⟨_, latchedRead_page hlo halign hfree hreach hinj hread rfl, tblFind_tblPut_same _ _ _,
      tblFind_latchesAfter s (high_mem_latchedWith hlow), rfl⟩
  · have hread := (congrArg (s.readWord req pg) hoff').trans (readWord_of_latch hv)
    refine ⟨_, latchedRead_page hhi halign' hfree hreach hinj hread rfl, tblFind_tblPut_same _ _ _, ?_, rfl⟩
    exact (tblFind_tblDel _ _ _).trans (if_pos rfl)
  · have hread := (congrArg (s.readWord req pg) hoff').trans (readWord_of_no_latch hnone (by omega))
    exact ⟨_, latchedRead_page hhi halign' hfree hreach hinj hread rfl, tblFind_tblPut_same _ _ _⟩

end Sys2Proof.Machine
end
